-- ==== Sys2Proof/Word.lean ====
section
/-!
DEFINITION. Sys2Proof/Word.lean: the word types and the plain names (domains, states, writers, readers, operand records)
that the commands and the state of the Kyovex block share. Nothing here computes; bit fields and arithmetic are in
Machine/Bits.lean.
-/
namespace Sys2Proof

/-- A 32-bit register or instruction word (R15, R274). -/
abbrev Word := BitVec 32

/-- One byte of a memory of the block. -/
abbrev Byte := BitVec 8

/-- The load domains of Table 0-3 (R8). -/
inductive Domain where
  | L | S | K | M
  deriving DecidableEq, Repr

/-- The five cluster power states of Table 6-7 (R184), deepest last. -/
inductive PState where
  | A | B1 | B2 | B3 | D
  deriving DecidableEq, Repr

/-- A program core: the Ridge, or the Rafter of a tile position (R269). -/
inductive CoreId where
  | ridge
  | rafter (t : Nat)
  deriving DecidableEq, Repr

/-- Who writes a register (R24, R169): the host port, the test port's HOSTACC, the boot logic's REGS pairs
(all class 7), the Ridge (class 8) or a Rafter (class 9). -/
inductive Writer where
  | host | test | boot | ridge
  | rafter (t : Nat)
  deriving DecidableEq, Repr

/-- Who reads a register: each reader keeps its own latch of wide values (R17). -/
inductive Reader where
  | host | test | ridge
  deriving DecidableEq, Repr

/-- The two Ridge links (R216). -/
inductive Side where
  | W | E
  deriving DecidableEq, Repr

/-- What one cell's converters and comparators deliver over a switching period (R45, R49, R50), as whole LSBs before the
clamps of R45: grid-node code, phase currents in mA, input in 10 mV, and whether each comparator is tripped. -/
structure CellReading where
  tile : Nat
  cluster : Nat
  reg : Nat
  v : Int
  ima : List Int
  vin : Int
  overT : Bool := false
  under : Bool := false
  deriving DecidableEq, Repr

/-- The lane mappings of Table 3-9 (R94). -/
inductive Mapping where
  | M0 | M1 | M2
  deriving DecidableEq, Repr

/-- A lane's error in one sample: under mapping `map`, partial `j` of Table 3-8 comes out `delta` too high, or, with
`comb`, the word that the lane of partial `j` combines and rounds (R93) does. -/
structure LaneDelta where
  map : Mapping
  comb : Bool
  j : Nat
  delta : Int
  deriving DecidableEq, Repr

/-- The raw code that one cluster's diode converts to at a read instant (R229, R230). -/
structure DiodeReading where
  tile : Nat
  cluster : Nat
  raw : Nat
  deriving DecidableEq, Repr

/-- The memories of Table 9-5 in which a two-bit word can be found (R260): of the trace, DMA and event buffers, a record of a tile's trace by its
place, a burst of a channel by its offset, a record by its SEQ; of a store's map, band and trim blocks, a word by its store offset. -/
inductive EccPlace where
  | coreRam (c : CoreId)
  | coreRom (c : CoreId)
  | fuseeSlot (t slot : Nat)
  | fuseeBlock (t off : Nat)
  | loopState (t c : Nat)
  | fmax (t core : Nat)
  | traceRecord (t i : Nat)
  | burst (n off : Nat)
  | logRecord (q : Nat)
  deriving DecidableEq, Repr

/-- The straps sampled as PORST_N rises (R378, Table 14-3). -/
structure Straps where
  pos : Nat := 0
  mstr : Bool := false
  lbud : Nat := 0
  vsel : Nat := 0
  nvskip : Bool := false
  deriving DecidableEq, Repr

/-- The non-volatile memory's answer to its identification and SFDP reads (R374): its identification bytes and the
log2 of its size; `answers` is false where it gives none or has no SFDP. -/
structure NvFound where
  answers : Bool := false
  mfr : Nat := 0
  dev : Nat := 0
  dens : Nat := 0
  deriving DecidableEq, Repr

end Sys2Proof
end

