-- ==== Sys2Proof/Syntax.lean ====
section
/-!
DEFINITION. Sys2Proof/Syntax.lean: the commands of the block, one constructor for each row of spec/opcode_table.json.
The table gives no operands: they are the ones the rule beside each row needs. Operand names: `t` a tile position, `c` a cluster
number, `r` a regulator, `p` a phase (or port), `ns` an instant in ns since release from cold reset, `w : Writer` who writes a
register, `v` the written word, `k` a program core; `a b c` are the register fields and `imm14`/`imm18` the immediate fields
of a KX instruction (R274).
-/
namespace Sys2Proof

/-- The commands (events, port activity, register writes and KX instructions) that change the block's state. -/
inductive Instr where
  /-- SWITCHING_BOUNDARY (R166): At each switching-period boundary every slewed reference steps toward its end value, comparator references follow, and cell sample registers update 1 ns later. -/
  | switchingBoundary (rd : List CellReading)
  /-- PULSE_START (R41): An active phase starts its high-side pulse at its fixed offset, applying the duty word in force and its trim. -/
  | pulseStart (t c r p : Nat)
  /-- CYCLE_LIMIT (R53): A phase's replica current reaches 1.6 A, its pulse ends and the phase is at limit for that switching period. -/
  | cycleLimit (t c r p : Nat)
  /-- HICCUP (R54): A phase at limit for NLIM consecutive switching periods stops all four phases of its cell for 200 µs. -/
  | hiccup (t c r p : Nat)
  /-- HICCUP_RETRY (R54): After 200 µs off the cell's available phases restart at the preset duty with trim 0. -/
  | hiccupRetry (t c r ns : Nat)
  /-- RETRY_COUNT_RESET (R55): After 10 ms without a hiccup the cell's retry count returns to 0. -/
  | retryCountReset (t c r ns : Nat)
  /-- UVLO (R58): A cell's input falls below 1.45 V and the cell stops all phases without counting a hiccup. -/
  | uvlo (t c r : Nat)
  /-- UVLO_RESTART (R58): After the input has stayed above 1.52 V for 16 periods the cell restarts as for a retry. -/
  | uvloRestart (t c r : Nat)
  /-- SHORT (R59): A phase's replica current leaves +2.0 A/−1.2 A and the phase is turned off and disconnected. -/
  | short (t c r p : Nat) (stuckClosed : Bool)
  /-- OVERSHOOT_TRUNCATION (R49): The grid node rises above the comparator reference plus the overshoot threshold and the cell's pulses are ended and suppressed. -/
  | overshootTruncation (t c r : Nat)
  /-- DROOP_ASSERT (R50): An undershoot comparator trips and the cluster's droop flag asserts on the tile port. -/
  | droopAssert (t c r ns : Nat)
  /-- DROOP_DEASSERT (R50): Every comparator of the cluster has released and at least 6 ns have passed, so the droop flag deasserts. -/
  | droopDeassert (t c ns : Nat)
  /-- DROOP_HOLDOFF_END (R156): 200 ns after the later droop flag clears, held frequency-up requests and limit raises are carried out in arrival order. -/
  | droopHoldoffEnd (t c ns : Nat)
  /-- PERIOD_BOUNDARY (R72): At each period boundary the fall-back compensators read their samples and compute, trims adjust, and mode and handover changes take effect. -/
  | periodBoundary
  /-- FALLBACK_DUTY_WRITE (R72): 13 ns after the period boundary the fall-back compensator writes its regulator's duty word. -/
  | fallbackDutyWrite (t c r : Nat)
  /-- CLUSTER_SAMPLE (R82): At a cluster's slot start the Remontoire latches its inputs, computes the law and writes the duty words 40 ns later. -/
  | clusterSample (t c : Nat) (errs : List LaneDelta)
  /-- VOTE_REPEAT (R98): In the slot of a later sample M0, M1 and M2 recompute the mismatched sample and a verdict decides the words and lane action. -/
  | voteRepeat (t c : Nat) (errs : List LaneDelta)
  /-- HANDOVER (R103): At the first period boundary after the verdict the cluster passes to the fall-back compensator. -/
  | handover (t c : Nat)
  /-- LOOP_STALL (R259): Two consecutive write instants pass with no duty word and the cluster is handed to the fall-back. -/
  | loopStall (t c : Nat)
  /-- RETURN (R110): A write of LOOP_CLCMD.RETURN returns a handed-over cluster to the Remontoire at its next sample. -/
  | returnCluster (w : Writer) (t c : Nat)
  /-- HALT (R108): A write of LOOP_CTRL.HALT halts or releases the tile's Remontoire at the next period boundary. -/
  | halt (w : Writer) (t : Nat) (on : Bool)
  /-- DUAL (R96): A write of LOOP_CTRL.DUAL changes single or dual mode from the next period boundary. -/
  | dual (w : Writer) (t : Nat) (on : Bool)
  /-- ARRAY_SELFTEST_DONE (R106): The array self-test completes, remapping failing lanes and reporting LOOP_STAT.BIST. -/
  | arraySelftestDone (t : Nat) (failing : List Nat)
  /-- OUTER_BOUNDARY (R125): At each outer boundary the outer loop computes ρ and β, bands, power and the compare self-test for every cluster. -/
  | outerBoundary (missed : List Nat)
  /-- SHADOW_MIRROR (R305): A tile's whole window mirror arrives and replaces the previous one in a single cycle. -/
  | shadowMirror (t : Nat)
  /-- SHADOW_LATCH_EXPIRY (R306): 100 µs after a host latch of a tile mirror the latch ends. -/
  | shadowLatchExpiry (rdr : Reader) (t ns : Nat)
  /-- TICK_BOUNDARY (R208): At each tick boundary estimates, device power, energy, ladders, positions and the state chooser are updated. -/
  | tickBoundary (marginMicrovolts : Nat)
  /-- MARGIN_P_PERIOD (R127): The high time of a 1 µs MARGIN_P period is measured and gives a margin target. -/
  | marginPPeriod (high : Nat)
  /-- MARGIN_P_LOSS (R127): MARGIN_P shows no rising edge for two ticks, its target becomes 0 and PLOSS is set. -/
  | marginPLoss
  /-- EPOCH_BOUNDARY (R201): At each epoch boundary the estimator words are latched and programs divide budgets, and a master sends EPOCH. -/
  | epochBoundary
  /-- HINT_WORD (R140): A hint-port word enters the Escapement's FIFO, or is dropped when the FIFO is full. -/
  | hintWord (t : Nat) (w : Word) (ns : Nat)
  /-- HINT (R142): A scheduled hint token creates start and end edges for its masked clusters. -/
  | hint (t ns : Nat)
  /-- QUIET_WINDOW_MARKER (R150): A scheduled marker makes a window pending and starts the guard rise. -/
  | quietWindowMarker (t ns : Nat)
  /-- SLACK_REPORT (R163): A scheduled slack report is forwarded to the budget unit. -/
  | slackReport (t ns : Nat)
  /-- NEXT_EVENT_TIME (R162): A scheduled next-event token sets the clusters' next known event. -/
  | nextEventTime (t ns : Nat)
  /-- CANCEL (R142): A scheduled cancel removes uninjected start edges of the tag and their end edges. -/
  | cancel (t ns : Nat)
  /-- FORECAST_SCORE (R148): At T + 576 ns an edge is scored good, fair or bad against the measured step. -/
  | forecastScore (t id ns : Nat)
  /-- QUIET_WINDOW_START (R150): At tick W a window comes into force, freezing grants, shedding and region. -/
  | quietWindowStart (t c : Nat)
  /-- QUIET_WINDOW_END (R154): At tick E trust, regions, deferred caps and held requests take effect in order and the guard descends. -/
  | quietWindowEnd (t c : Nat)
  /-- OPREQ (R174): An operating-point request frame is receipted and queued as a class 10 transition. -/
  | opreq (t : Nat) (w : Word)
  /-- FREQ (R181): A frequency-only request frame is receipted and queued. -/
  | freq (t : Nat) (w : Word)
  /-- FACK (R180): An acknowledgement of FSYNC or STATE lets a voltage descent or state entry proceed. -/
  | fack (t : Nat) (w : Word)
  /-- CPM (R176): A critical-path monitor report lowers the cluster's monitor minimum for its band. -/
  | cpm (t : Nat) (w : Word)
  /-- RETURN_SLOT (R183): In each return slot the highest-precedence queued payload is sent with the receipt. -/
  | returnSlot (t : Nat)
  /-- FACK_TIMEOUT (R182): No FACK arrives within FACKTO and the transition or state entry is abandoned. -/
  | fackTimeout (t tnum ns : Nat)
  /-- ADMISSION_DEFER_EXPIRY (R190): DEFER µs pass and the waiting power-on begins at quarter slope. -/
  | admissionDeferExpiry (t c ns : Nat)
  /-- START (R192): SEQ_CTL.START brings every present cluster from off to state A in the tracking profiles. -/
  | start (w : Writer)
  /-- STOP (R193): SEQ_CTL.STOP runs the tracking profiles in reverse and preempts every transition. -/
  | stop (w : Writer)
  /-- SEQ_CLSP_WRITE (R177): A write of SEQ_CLSP.TARGET starts a class 7 transition. -/
  | seqClspWrite (w : Writer) (t c : Nat) (v : Word)
  /-- SEQ_CLLIM_WRITE (R169): A write of SEQ_CLLIM sets the bounds and may start a transition to the nearest bound. -/
  | seqCllimWrite (w : Writer) (t c : Nat) (v : Word)
  /-- SEQ_CLPS_WRITE (R189): A write of SEQ_CLPS forces or releases a cluster's power state. -/
  | seqClpsWrite (w : Writer) (t c : Nat) (v : Word)
  /-- SEQ_CLGR_WRITE (R195): A write of SEQ_CLGR sets the grant policy, releasing held rises on 0b00. -/
  | seqClgrWrite (w : Writer) (t c : Nat) (v : Word)
  /-- CPM_CLEAR (R196): A write of RFT_CPMCTL.CLR resets the monitor minima of the named clusters. -/
  | cpmClear (w : Writer) (t clr : Nat)
  /-- CAP_WRITE (R206): A write of BUD_TCAP or BUD_CLCAP.CAP is validated and takes effect at the next tick or the window's end. -/
  | capWrite (w : Writer) (t : Nat) (c : Option Nat) (v : Word)
  /-- DEVLIM_WRITE (R206): A write of BUD_DEVLIM is validated and takes effect at the next tick boundary. -/
  | devlimWrite (w : Writer) (v : Word)
  /-- LOCAL_WRITE (R221): A write of BUD_LOCAL sets the local budget from the next tick boundary. -/
  | localWrite (w : Writer) (v : Word)
  /-- GROUP_BUDGET_WRITE (R206): A write of BUD_GRPn sets a group budget from the next tick boundary. -/
  | groupBudgetWrite (w : Writer) (g : Nat) (v : Word)
  /-- BOARD_ALERT (R224): BRD_ALERT_N low for 16 ns takes every cluster to its lowest state and holds the wafer. -/
  | boardAlert (ns : Nat)
  /-- ALERT_RELEASE (R225): A write of BUD_ALERT.RELEASE ends the alert hold once the pin has been high for 1 ms. -/
  | alertRelease (w : Writer)
  /-- LINK_TRAINED (R216): A link completes training at some width or at none. -/
  | linkTrained (side : Side) (width : Nat)
  /-- LINK_TRAIN_RETRY (R216): A link that trained at no width retries after 10 ms. -/
  | linkTrainRetry (side : Side)
  /-- LINK_BLOCK_TIMEOUT (R217): 1 µs without valid blocks, or a lane losing lock or alignment, starts retraining. -/
  | linkBlockTimeout (side : Side)
  /-- RETRAIN (R216): A write of LNK_CTRL.RETRAIN retrains both links. -/
  | retrain (w : Writer)
  /-- FORGET (R222): A write of LNK_CTRL.FORGET drops the reservation of position FPOS. -/
  | forget (w : Writer) (pos : Nat)
  /-- EPOCH (R220): A valid EPOCH frame is forwarded once and answered with a REPORT. -/
  | epoch (side : Side) (frame : List Word)
  /-- REPORT (R220): A REPORT frame is forwarded toward the master or accepted by it. -/
  | report (side : Side) (frame : List Word)
  /-- ALLOC (R220): An ALLOC frame is forwarded once and its allocation held for the next own epoch boundary. -/
  | alloc (side : Side) (frame : List Word)
  /-- COLLECTION_CLOSE (R222): 40 µs after its EPOCH the master closes collection and the allocations are computed and sent. -/
  | collectionClose
  /-- HEARTBEAT_LOSS (R221): A member without a valid EPOCH for 300 ticks or missing from 3 ALLOCs becomes stand-alone. -/
  | heartbeatLoss
  /-- THERMAL_READ (R229): Every diode of the device is converted at the read instant. -/
  | thermalRead (raw : List DiodeReading)
  /-- THERMAL_EVALUATION (R233): 100 µs after a read the readings are tested, bands set, positions moved and shutdown applied. -/
  | thermalEvaluation
  /-- THM_RELEASE (R240): A write of THM_CLCMD.RELEASE ends a locked shutdown hold. -/
  | thmRelease (w : Writer) (t c : Nat)
  /-- THM_RESTORE (R234): A write of THM_CLCMD.RESTORE tests a broken diode again. -/
  | thmRestore (w : Writer) (t c : Nat)
  /-- FAULT_ACK (R249): A write of 1 to an RDG_FPENDn bit acknowledges a source in every scope instance. -/
  | faultAck (w : Writer) (n : Nat) (v : Word)
  /-- SAFE_ENTER (R247): A write of RDG_SAFE.ENTER places the device in safe state. -/
  | safeEnter (w : Writer)
  /-- SAFE_RELEASE (R247): A write of RDG_SAFE.RELEASE ends safe state unless a level-5 instance is pending. -/
  | safeRelease (w : Writer)
  /-- SCRUB_PASS (R261): The scrubber completes a pass over every memory, correcting words and acting on double-bit words. -/
  | scrubPass (corrected : Nat) (bad : List EccPlace) (late : Bool)
  /-- ADD (R277): g[a] = g[b] + g[c] with flags. -/
  | add (k : CoreId) (a b c : Nat)
  /-- SUB (R277): g[a] = g[b] − g[c] with flags. -/
  | sub (k : CoreId) (a b c : Nat)
  /-- AND (R277): Bitwise AND of two registers. -/
  | and (k : CoreId) (a b c : Nat)
  /-- OR (R277): Bitwise OR of two registers. -/
  | or (k : CoreId) (a b c : Nat)
  /-- XOR (R277): Bitwise XOR of two registers. -/
  | xor (k : CoreId) (a b c : Nat)
  /-- SHL (R277): Shift left by a register amount. -/
  | shl (k : CoreId) (a b c : Nat)
  /-- SHR (R277): Logical shift right by a register amount. -/
  | shr (k : CoreId) (a b c : Nat)
  /-- SRA (R277): Arithmetic shift right by a register amount. -/
  | sra (k : CoreId) (a b c : Nat)
  /-- MUL (R277): Signed multiply keeping the low 32 bits. -/
  | mul (k : CoreId) (a b c : Nat)
  /-- MULQ (R277): Signed Q16.16 multiply with rounding and saturation. -/
  | mulq (k : CoreId) (a b c : Nat)
  /-- CLAMP (R277): Clamps g[a] to [g[b], g[c]], or completes with RANGE. -/
  | clamp (k : CoreId) (a b c : Nat)
  /-- ADDI (R277): Adds a sign-extended immediate. -/
  | addi (k : CoreId) (a b imm18 : Nat)
  /-- ANDI (R277): ANDs a zero-extended immediate. -/
  | andi (k : CoreId) (a b imm18 : Nat)
  /-- ORI (R277): ORs a zero-extended immediate. -/
  | ori (k : CoreId) (a b imm18 : Nat)
  /-- XORI (R277): XORs a zero-extended immediate. -/
  | xori (k : CoreId) (a b imm18 : Nat)
  /-- LUI (R277): Loads imm18 × 2^14. -/
  | lui (k : CoreId) (a imm18 : Nat)
  /-- SHLI (R277): Shift left by an immediate. -/
  | shli (k : CoreId) (a b sh : Nat)
  /-- SHRI (R277): Logical shift right by an immediate. -/
  | shri (k : CoreId) (a b sh : Nat)
  /-- SRAI (R277): Arithmetic shift right by an immediate. -/
  | srai (k : CoreId) (a b sh : Nat)
  /-- LDW (R277): Loads a word from ea. -/
  | ldw (k : CoreId) (a b imm18 : Nat)
  /-- LDH (R277): Loads a sign-extended half. -/
  | ldh (k : CoreId) (a b imm18 : Nat)
  /-- LDHU (R277): Loads a zero-extended half. -/
  | ldhu (k : CoreId) (a b imm18 : Nat)
  /-- LDB (R277): Loads a sign-extended byte. -/
  | ldb (k : CoreId) (a b imm18 : Nat)
  /-- LDBU (R277): Loads a zero-extended byte. -/
  | ldbu (k : CoreId) (a b imm18 : Nat)
  /-- STW (R277): Stores a word to ea, including register-window writes. -/
  | stw (k : CoreId) (a b imm18 : Nat)
  /-- STH (R277): Stores a half to ea. -/
  | sth (k : CoreId) (a b imm18 : Nat)
  /-- STB (R277): Stores a byte to ea. -/
  | stb (k : CoreId) (a b imm18 : Nat)
  /-- B (R278): Branches on a condition. -/
  | branch (k : CoreId) (cond imm18 : Nat)
  /-- JAL (R278): Jumps relative and links. -/
  | jal (k : CoreId) (a imm18 : Nat)
  /-- JR (R278): Jumps to a register target and links. -/
  | jr (k : CoreId) (a b imm14 : Nat)
  /-- RETE (R283): Returns from an event handler, restoring PC, flags and ERR. -/
  | rete (k : CoreId)
  /-- WAIT (R282): Starts waiting for a selected event or a tick deadline. -/
  | wait (k : CoreId) (a b c : Nat) (dl : Bool)
  /-- WAIT_COMPLETE (R282): A waiting WAIT completes on a pending selected event or its deadline. -/
  | waitComplete (k : CoreId) (cycles : Nat)
  /-- ARM (R284): Sets an EVMASK bit. -/
  | arm (k : CoreId) (n : Nat)
  /-- DISARM (R284): Clears an EVMASK bit. -/
  | disarm (k : CoreId) (n : Nat)
  /-- RAISE (R284): Sets a software event's pending bit. -/
  | raise (k : CoreId) (n : Nat)
  /-- MFS (R285): Reads a special register, an RC read such as LREF removing its entry. -/
  | mfs (k : CoreId) (a n : Nat)
  /-- MTS (R285): Writes a special register, a write to WDKICK kicking or expiring the watchdog. -/
  | mts (k : CoreId) (b n : Nat)
  /-- UNDEFINED_ENCODING (R274): An undefined encoding or fetch outside instruction memory completes with UNKNOWN. -/
  | undefinedEncoding (k : CoreId) (w : Word)
  /-- EVENT_ENTRY (R281): Between instructions the lowest pending armed event is entered at its vector. -/
  | eventEntry (k : CoreId)
  /-- WATCHDOG_EXPIRY (R286): A core's watchdog expires and the core restarts from its resident ROM. -/
  | watchdogExpiry (k : CoreId)
  /-- SETP (R290): Device operation queuing a set-point transition at the core's class. -/
  | setp (k : CoreId) (b c imm14 : Nat)
  /-- PSTATE (R189): Device operation forcing a cluster power state. -/
  | pstate (k : CoreId) (b imm14 : Nat)
  /-- CAPSET (R206): Device operation setting a tile or cluster cap. -/
  | capset (k : CoreId) (b c imm14 : Nat)
  /-- FMAXW (R291): Device operation writing a core's Fmax entry. -/
  | fmaxw (k : CoreId) (b c imm14 : Nat)
  /-- TBLSEL (R123): Device operation setting a cluster's region lock, force and forced region. -/
  | tblsel (k : CoreId) (b imm14 : Nat)
  /-- QRY (R292): Device operation returning a cluster, tile or device value. -/
  | qry (k : CoreId) (a b imm14 : Nat)
  /-- POST (R293): Device operation recording a program event. -/
  | post (k : CoreId) (b c imm14 : Nat)
  /-- SEND (R297): Queues a message to another core over Purlin. -/
  | send (k : CoreId) (b c imm14 : Nat)
  /-- RECV (R300): Takes the oldest inbound message into data RAM. -/
  | recv (k : CoreId) (a b imm14 : Nat)
  /-- TRIG (R134): Device operation forcing a trace trigger on a tile or every tile. -/
  | trig (k : CoreId) (b imm14 : Nat)
  /-- GRANT (R195): Device operation setting a cluster's grant policy. -/
  | grant (k : CoreId) (b imm14 : Nat)
  /-- OPERATION_ARRIVAL (R294): A Ridge or host operation or tile-window write arrives over Purlin and is validated again against live state. -/
  | operationArrival (src : Writer) (t : Nat)
  /-- LATE_REFUSAL (R294): A late refusal arrives and enters the issuer's refusal queue. -/
  | lateRefusal (dst : Writer)
  /-- MESSAGE_DELIVERY (R299): A message reaches its destination's inbound queue or is refused. -/
  | messageDelivery (src : CoreId) (t : Option Nat)
  /-- HOST_WRITE (R308): A host write to a register without a row of its own is checked and applied. -/
  | hostWrite (addr be : Nat) (v : Word)
  /-- SHSTAMP_READ (R306): A host read of RFT_SHSTAMP latches the tile's mirror for host reads. -/
  | shstampRead (rdr : Reader) (t : Nat)
  /-- RC_READ (R307): A read of an RC field in a tile window returns the shadow and subtracts the value from the live count. -/
  | rcRead (rdr : Reader) (addr : Nat)
  /-- WIDE_READ (R17): A read of the least significant word of a wide value latches the remaining words for that reader. -/
  | wideRead (rdr : Reader) (addr : Nat)
  /-- HLREF_READ (R309): A read of RDG_HLREF returns and removes the oldest host late refusal. -/
  | hlrefRead (rdr : Reader)
  /-- NOP (R312): Host command completing with OK. -/
  | nop
  /-- CMD_SETP (R313): Host command executed as SETP at class 7. -/
  | cmdSetp
  /-- CMD_PSTATE (R313): Host command executed as PSTATE. -/
  | cmdPstate
  /-- CMD_CAPSET (R313): Host command executed as CAPSET. -/
  | cmdCapset
  /-- CMD_FMAXW (R313): Host command executed as FMAXW. -/
  | cmdFmaxw
  /-- CMD_TBLSEL (R313): Host command executed as TBLSEL. -/
  | cmdTblsel
  /-- CMD_QRY (R312): Host command returning a query value. -/
  | cmdQry
  /-- CMD_TRIG (R312): Host command forcing a trace trigger. -/
  | cmdTrig
  /-- CMD_GRANT (R313): Host command executed as GRANT. -/
  | cmdGrant
  /-- WRITE (R312): Host command performing a host write. -/
  | write
  /-- READ (R312): Host command performing a host read without the latch. -/
  | read
  /-- FENCE (R312): Host command waiting until every earlier tile write and command has arrived. -/
  | fence
  /-- FENCE_COMPLETE (R312): A FENCE completes with the count of late refusals. -/
  | fenceComplete
  /-- WAITT (R312): Host command waiting for a tick. -/
  | waitt
  /-- WAITT_COMPLETE (R312): A WAITT completes at its tick boundary. -/
  | waittComplete
  /-- PING (R317): Program command held for the Ridge program, returning the image TAG. -/
  | ping
  /-- USER_COMMAND (R317): A user or reserved program command is held for the Ridge program. -/
  | userCommand
  /-- UNKNOWN_OPCODE (R312): An unlisted opcode completes with UNKNOWN. -/
  | unknownOpcode
  /-- PROGRAM_COMMAND_DONE (R317): The Ridge writes CMD_PDONE.STATUS and the held program command completes. -/
  | programCommandDone (v : Word)
  /-- PROGRAM_COMMAND_TIMEOUT (R317): PTO ms pass with a program command held and it completes with BUSY. -/
  | programCommandTimeout
  /-- COMMAND_RING_FETCH (R315): The entry at HEAD is fetched, executed unless OWN is 0, written back and HEAD advanced. -/
  | commandRingFetch (w0 w1 w2 w3 : Word)
  /-- COMMAND_RING_ENABLE (R315): A write of CMD_RCTL.EN starts or stops the command ring. -/
  | commandRingEnable (w : Writer) (on : Bool)
  /-- RHALT (R322): A write of RDG_PCTL.RHALT halts or resumes the Ridge. -/
  | rhalt (w : Writer) (on : Bool)
  /-- RSTART (R322): RDG_PCTL.RSTART restarts the Ridge on RSEL. -/
  | rstart (w : Writer)
  /-- FSTARTALL (R322): RDG_PCTL.FSTARTALL restarts every Rafter on FSEL. -/
  | fstartall (w : Writer)
  /-- FHALTALL (R322): RDG_PCTL.FHALTALL halts every Rafter. -/
  | fhaltall (w : Writer)
  /-- FRELALL (R322): RDG_PCTL.FRELALL releases every Rafter. -/
  | frelall (w : Writer)
  /-- RAFTER_HALT (R322): A write of RFT_CTL.HALT halts or resumes one Rafter. -/
  | rafterHalt (w : Writer) (t : Nat) (on : Bool)
  /-- RAFTER_START (R322): RFT_CTL.START restarts one Rafter on FSEL. -/
  | rafterStart (w : Writer) (t : Nat)
  /-- LOAD_CHECK (R320): The check of a loaded image completes, starting the core on it or on its resident program. -/
  | loadCheck (k : CoreId)
  /-- FUS_COMMIT (R114): FUS_CMD COMMIT starts validation of a slot. -/
  | fusCommit (w : Writer) (t slot : Nat)
  /-- FUS_INVALIDATE (R116): FUS_CMD INVALIDATE starts invalidation of a slot. -/
  | fusInvalidate (w : Writer) (t slot : Nat)
  /-- FUS_MAPW (R115): A write of FUS_MAPW starts a region-map write. -/
  | fusMapw (w : Writer) (t : Nat) (v : Word)
  /-- FUS_COMMAND_COMPLETE (R116): A Fusee command completes and reports its status in FUS_CMDST. -/
  | fusCommandComplete (t : Nat)
  /-- RUN (R116): A write of FUS_CTRL.RUN puts the image sets in use from the next period boundary. -/
  | run (w : Writer) (t : Nat) (on : Bool)
  /-- FUS_CLCTL_WRITE (R123): A write of FUS_CLCTL sets region lock, force and forced region. -/
  | fusClctlWrite (w : Writer) (t c : Nat) (v : Word)
  /-- ARM_TRACE (R135): TRC_CTL.ARM clears the record count and arms the trace buffer. -/
  | armTrace (w : Writer) (t : Nat)
  /-- STOP_TRACE (R135): TRC_CTL.STOP moves the buffer to DONE without a trigger. -/
  | stopTrace (w : Writer) (t : Nat)
  /-- FORCE_TRACE (R134): TRC_CTL.FORCE triggers the trace buffer manually. -/
  | forceTrace (w : Writer) (t : Nat)
  /-- ARMALL (R135): TRC_GCTL.ARMALL arms every tile's trace buffer. -/
  | armall (w : Writer)
  /-- FORCEALL (R134): TRC_GCTL.FORCEALL triggers every tile's trace buffer. -/
  | forceall (w : Writer)
  /-- TRACE_CROSS_TRIGGER (R134): A trigger sent by another tile arrives and triggers a tile with XIN set. -/
  | traceCrossTrigger (t : Nat)
  /-- DMA_ENABLE (R327): A write of DMA_CHCTLn.EN starts or stops a channel's work through its ring. -/
  | dmaEnable (w : Writer) (n : Nat) (on : Bool)
  /-- DMA_TAIL_WRITE (R327): A write of DMA_RTAILn hands descriptors to the channel. -/
  | dmaTailWrite (w : Writer) (n : Nat) (v : Word)
  /-- DESCRIPTOR_FETCH (R330): A fetched descriptor is validated and its transfer run or status written. -/
  | descriptorFetch (n : Nat) (words : List Word)
  /-- SOURCE_BURST (R332): A source burst arrives in a buffer slot. -/
  | sourceBurst (n : Nat) (data : List Byte) (bad : Bool)
  /-- DESTINATION_BURST (R332): A destination burst write is acknowledged and its slot freed. -/
  | destinationBurst (n : Nat)
  /-- DESCRIPTOR_WRITEBACK (R332): The descriptor's W6 and W0 are written back and HEAD advances. -/
  | descriptorWriteback (n : Nat)
  /-- ABORT (R337): DMA_CHCTLn.ABORT stops a channel, writing back the descriptor in progress with ABT. -/
  | abort (w : Writer) (n : Nat)
  /-- RESUME (R340): DMA_CHCTLn.RESUME restarts a halted channel in its failed phase. -/
  | resume (w : Writer) (n : Nat)
  /-- SKIP (R340): DMA_CHCTLn.SKIP moves a halted channel past its failing descriptor. -/
  | skip (w : Writer) (n : Nat)
  /-- BUS_ERROR (R338): An error response on the system bus halts the channel. -/
  | busError (n addr : Nat)
  /-- NV_TIMEOUT (R338): Non-volatile memory does not answer within 1 ms and the channel halts. -/
  | nvTimeout (n : Nat)
  /-- NV_FETCH (R375): A write of RDG_NVADDR starts a 32-byte fetch from non-volatile memory. -/
  | nvFetch (w : Writer) (v : Word)
  /-- NV_FETCH_DONE (R375): A non-volatile fetch ends with DONE, or ERR after 1 ms. -/
  | nvFetchDone (ok : Bool)
  /-- FLUSH_PAGE (R350): A page of a flush is written and read back, or fails and stops the flush. -/
  | flushPage (ok : Bool)
  /-- OPTIME_SECOND (R350): Each whole second of OPTIME triggers a flush and a retry after NVERR. -/
  | optimeSecond
  /-- MILLISECOND_BOUNDARY (R354): Every rate bucket gains RATE milli-tokens and OPTIME advances. -/
  | millisecondBoundary
  /-- HEARTBEAT (R347): After HBEAT hours a HEARTBEAT record is taken. -/
  | heartbeat
  /-- FLUSH (R350): LOG_CMD.FLUSH starts a flush. -/
  | flush (w : Writer)
  /-- FREEZE (R358): LOG_CMD.FREEZE stops log writes while records are still taken. -/
  | freeze (w : Writer)
  /-- THAW (R358): LOG_CMD.THAW ends a freeze and starts one flush for held triggers. -/
  | thaw (w : Writer)
  /-- FREEZE_EXPIRY (R358): A freeze ends 10 s after it began and a FRZEXP record is taken. -/
  | freezeExpiry
  /-- NONCE (R359): LOG_CMD.NONCE issues a nonce from PCC and OPTIME. -/
  | nonce (w : Writer)
  /-- NONCE_EXPIRY (R359): An outstanding nonce lapses after 60 s. -/
  | nonceExpiry
  /-- CLEAR (R361): LOG_CMD.CLEAR checks the tag and starts erasing the log region. -/
  | clear (w : Writer)
  /-- CLEAR_ERASE_DONE (R361): The erase ends, the CLEAR record is written and pending records flushed. -/
  | clearEraseDone
  /-- POWER_FAIL (R372): PF_N low for 1 µs takes a PFAIL record, ends any freeze, flushes and makes event PFAIL pending. -/
  | powerFail
  /-- COLD_RESET (R381): PORST_N low turns off every phase, stops clocks and returns Kyovex to its cold-reset state. -/
  | coldReset
  /-- COLD_BOOT (R384): Release from cold reset samples the straps, locks the PLL and begins the boot stages. -/
  | coldBoot (straps : Straps) (nv : NvFound) (refPresent : Bool)
  /-- BOOT_STAGE_COMPLETE (R384): A boot stage ends and the next begins, cores starting with stage 4. -/
  | bootStageComplete (failedCells : List (Nat × Nat × Nat))
  /-- WARM_RESET (R382): WRST_N low stops the cores, DMA and the command ring while regulation continues. -/
  | warmReset
  /-- WARM_FAST_PATH (R382): At the rise of WRST_N the scrub pass and route check run; the words that the pass found corrected or beyond
  correction. -/
  | warmFastPath (corrected : Nat := 0) (bad : List EccPlace := [])
  /-- FAST_PATH_DONE (R382): The warm fast path ends and each core starts on its selection. -/
  | fastPathDone
  /-- TILE_RESET (R370): TILE_RST_N low places the tile in reset, discarding its Rafter's queues. -/
  | tileReset (t : Nat)
  /-- TILE_RESET_END (R370): 1 µs after TILE_RST_N rises the tile leaves reset and its Rafter starts. -/
  | tileResetEnd (t : Nat)
  /-- KEY_WORD (R376): A key word is taken from KEY_D, the eighth acknowledging and storing the key. -/
  | keyWord (w : Word) (consecutive : Bool)
  /-- AVS_SET (R371): A write of RDG_AVSSET.VSET commands a new intermediate rail voltage over AVSBus. -/
  | avsSet (w : Writer) (v : Word)
  /-- AVS_RETRY (R371): An unacknowledged AVSBus write is retried after 10 µs. -/
  | avsRetry
  /-- AVS_READBACK (R371): Each millisecond the rail voltage and status are read back. -/
  | avsReadback (mv : Nat)
  /-- REFLOSS (R379): The clock monitor declares the reference lost and the PLL enters hold-over. -/
  | refloss
  /-- HOLDOVER_EXPIRY (R379): After HOLD µs the PLL starts gliding toward the internal oscillator. -/
  | holdoverExpiry
  /-- REFERENCE_RETURN (R379): The reference has passed every window for 10 ms and the PLL glides back. -/
  | referenceReturn
  /-- REFRET (R379): The PLL completes its lock to the returned reference. -/
  | refret
  /-- EXTEST (R377): Test instruction EXTEST drives the boundary register while PHASE is off; `bits` as Update-DR leaves it. -/
  | extest (bits : Nat := 0)
  /-- IDCODE (R377): Test instruction IDCODE selects the identification register. -/
  | idcode
  /-- SAMPLE_PRELOAD (R377): Test instruction SAMPLE/PRELOAD samples the boundary register; `bits` as Update-DR leaves it. -/
  | samplePreload (bits : Nat := 0)
  /-- CORESTOP (R377): Test instruction CORESTOP halts every core and stops the watchdogs. -/
  | corestop
  /-- LOOPSTOP (R377): Test instruction LOOPSTOP halts every Remontoire. -/
  | loopstop
  /-- SELFTEST (R377): Test instruction SELFTEST runs the cell tests and array self-test while PHASE is off. -/
  | selftest
  /-- HOSTACC (R377): Update-DR under HOSTACC makes a host access at class 7. -/
  | hostacc (dr : Nat)
  /-- BYPASS (R377): Test instruction BYPASS selects the bypass register; its code, or one that is not listed. -/
  | bypass (code : Nat := 0x3F)
  /-- FLIT_CRC_ERROR (R400): A flit fails its CRC and is resent, the fifth failure bypassing the port; `again`: on a resend. -/
  | flitCrcError (t port : Nat) (again : Bool := false)
  /-- PORT_FRAMING_LOSS (R400): A port's receiver loses framing for 64 Purlin cycles and the port is bypassed. -/
  | portFramingLoss (t port : Nat)
  /-- PURLIN_RETRY (R400): A write of PUR_STAT.RETRY retrains every bypassed port of the router. -/
  | purlinRetry (w : Writer) (t : Nat)
  /-- PORT_RETRAINED (R400): A bypassed port passes 1,024 training flits and returns to service. -/
  | portRetrained (t port : Nat)
  /-- OSCILLATOR_GLIDE_COMPLETE (R379): The PLL's glide toward the internal oscillator ends and the root then tracks the oscillator (CLK_STAT.STATE 3, CLK_CNT.GLIDES advances). -/
  | oscillatorGlideComplete (offset : Int)
  /-- LINK_FRAME_CRC_ERROR (R219): A Ridge link frame whose CRC fails or whose reserved fields are not 0 is dropped and counted, and the 16th such frame in an epoch starts retraining. -/
  | linkFrameCrcError (side : Side)
  /-- MALFORMED_REQUEST_FRAME (R174): A Pallet request frame of reserved TYPE, or of TYPE 0b000 with other bits set, is receipted UNKNOWN or RANGE and counted as a rejection. -/
  | malformedRequestFrame (t : Nat) (w : Word)
  /-- BOOTSTRAP_COMPLETE (R192): A restarting cluster's cell bootstrap of typically 2.5 µs ends and its ramp from 0 V at SSLEW begins. -/
  | bootstrapComplete (t c : Nat)
  /-- CELL_POWER_UP_COMPLETE (R186): On a wake from D the cells' power-up and ADC and comparator offset calibration end, and the wake goes on as from B3. -/
  | cellPowerUpComplete (t c : Nat)
  /-- AVSBUS_ACKNOWLEDGE (R371): The board stage acknowledges an AVSBus write, which ends its retries and clears RDG_AVSST.BUSY. -/
  | avsbusAcknowledge
  /-- BRD_ALERT_N_HIGH (R225): BRD_ALERT_N returns high, which clears BUD_ALERT.PIN and starts the high time that a later RELEASE is checked against. -/
  | brdAlertNHigh (ns : Nat)
  deriving DecidableEq, Repr

end Sys2Proof
end

