-- ==== Sys2Proof/Decode.lean ====
section
/-!
DEFINITION. Sys2Proof/Decode.lean: the commands that words of spec/opcode_table.json spell. No row of the table gives bits: a command is an event, a port
request, a register write or an instruction of a program core, and comes to the queue as a term of `Instr` (log 41).
-/
namespace Sys2Proof

/-- The command of a table word: none. -/
def decodeTableWord (_nbits _w : Nat) : Option Instr := none

end Sys2Proof
end

