-- ==== Sys2Proof/Config.lean ====
section
/-!
DEFINITION. Sys2Proof/Config.lean: what one build of the block fixes (R2, R3) and the values the manual leaves open.
-/
namespace Sys2Proof

/-- What the integrator fixes when the block is placed (R2, R3, R391, the Purlin chapter): for each tile position whether it is
built, its built clusters, its four mesh neighbours (north, east, south, west) and the tile whose router joins the Ridge. -/
structure Build where
  /-- R391: tile position `t` is built with the clusters listed (empty: not built). -/
  clusters : List (List Nat)
  /-- R394 ff.: neighbour positions of each tile, in the port order of the Purlin chapter. -/
  mesh : List (List (Option Nat))
  /-- R401: the tile at whose router the Ridge joins the mesh. -/
  ridgeTile : Nat
  deriving DecidableEq, Repr

/-- The clusters c00 to c15 that every full tile has (Table 0-3). -/
def Config.plainTile : List Nat := List.range 16

/-- A row-major mesh `w` wide over `n` tile positions: DESIGN CHOICE, the manual leaves the floor plan to the integrator. -/
def Config.rowMesh (n w : Nat) : List (List (Option Nat)) :=
  (List.range n).map fun t =>
    [ if w ≤ t then some (t - w) else none,
      if t % w + 1 < w ∧ t + 1 < n then some (t + 1) else none,
      if t + w < n then some (t + w) else none,
      if 0 < t % w then some (t - 1) else none ]

/-- R3, Table 0-1: the W-class reference build, 84 tiles of 16 clusters and 24 memory-interface clusters. Which edge tiles
carry them is not given: DESIGN CHOICE, one c16 on each of t00 to t11 and t72 to t83. -/
def Config.wClass : Build where
  clusters := (List.range 84).map fun t => if t < 12 ∨ 72 ≤ t then Config.plainTile ++ [16] else Config.plainTile
  mesh := Config.rowMesh 84 12
  ridgeTile := 0

/-- The build of `State.reset`: the reference configuration of Table 0-1. -/
def Config.build : Build := Config.wClass

/-- FREE VALUE: D0 of a plausibility record is a mean in mA (Table 13-3); how a mean that is no whole number is rounded is
not stated. Applied to the sum and the count. -/
opaque Config.recordMean : Int → Nat → Int

/-- FREE VALUE: a power kept in mW shows in W or 0.1 W (BUD_PDEV, BUD_TLAD, BUD_CLPWR, D0 of UNMET); how it is rounded is not stated.
Applied to the power and the unit, both in mW. -/
opaque Config.inUnits : Int → Nat → Nat

/-- FREE VALUE: D1 of a BROKEN record is the neighbour median (Table 13-3); for a diode with no unbroken neighbour the manual gives none.
Applied to the reading. -/
opaque Config.noMedian : Int → Int

/-- The instructions whose op number the manual does not give. -/
inductive OpenOp where
  | wait | arm | disarm | raise | mfs | mts
  deriving DecidableEq, Repr

/-- FREE VALUE: ERR.OP takes an instruction's op (R276); the manual gives WAIT, ARM, DISARM, RAISE, MFS and MTS no op number. -/
opaque Config.opNumber : OpenOp → BitVec 6

/-- FREE VALUE: the level of a pin that the boundary register captures and no rule gives (R377). Applied to the capture's number and the cell's. -/
opaque Config.pinFree : Nat → Nat → Bool

/-- FREE VALUE: CLK_STAT.FOFS where the root locks to the internal oscillator at release from cold reset (R379): the manual gives no offset. -/
opaque Config.oscOffset : Int

/-- FREE VALUE: the resident Rafter program's new coefficient, in units of 2^-16, where the exact result of R202 is no whole number of them: the
manual does not state its rounding. -/
opaque Config.calWord : Rat → Int

end Sys2Proof
end

