-- ==== Sys2Proof/Machine/State.lean ====
section
/-!
DEFINITION. Sys2Proof/Machine/State.lean: everything the manual gives the block to hold, as plain data, and its value right
after reset. A field's default value is its value after cold reset. Each docstring names the rule that gives the field.
Registers that software reads and writes whole stay words; what lives only inside the block is Nat, Int, Bool or a small type.
-/
namespace Sys2Proof.Machine

/-- No command of this block stops with a fault: the type has no values. -/
inductive Fault where
  deriving DecidableEq, Repr

/-- Why a command has no meaning. -/
inductive Refusal where
  /-- Answered only by an arm of `exec` whose command has no meaning yet. Safe. -/
  | notModelled (mnemonic : String)
  deriving DecidableEq, Repr

/-! ### Regulator cells (chapter 2) -/

/-- One buck phase of a cell. -/
structure Phase where
  /-- R59: the disconnect switch is closed. -/
  avail : Bool := true
  /-- R64: the phase is switching. -/
  active : Bool := false
  /-- R43: trim, −8 to +8 duty steps. -/
  trim : Int := 0
  /-- R45: sampled current, mA, signed 12 bits. -/
  ma : Int := 0
  /-- R42, R44: on-time in duty steps of the pulse in progress, 0 none. -/
  pulse : Nat := 0
  /-- R53: the phase was at limit in the present switching period. -/
  atLimit : Bool := false
  /-- R54: consecutive switching periods at limit, up to the latest one. -/
  limRun : Nat := 0
  /-- R129: the currents at the cluster's last 8 samples, newest first. -/
  hist : List Int := []
  deriving DecidableEq, Repr

/-- R54 to R62: what a cell is doing. -/
inductive CellMode where
  | run | hiccup | uvlo | latched | failed
  deriving DecidableEq, Repr

/-- Table 2-8: the shed state of a regulator. -/
inductive Shed where
  | steady | pending1 (p : Nat) | pending2 (p : Nat)
  deriving DecidableEq, Repr

/-- R125, R198: what one slot start latched from one cell. -/
structure Latch where
  ima : Int
  vin : Nat
  vcode : Nat
  miss : Bool
  deriving DecidableEq, Repr

/-- One regulator cell. -/
structure Cell where
  /-- R38: the four phases p0 to p3. -/
  phases : List Phase := List.replicate 4 {}
  /-- R54, R57, R58, R62: running, in hiccup off-time, in lockout, latched off, or disconnected whole. -/
  mode : CellMode := .run
  /-- R58: the input is in under-voltage lockout while the cell's hiccup off-time runs. -/
  low : Bool := false
  /-- R54: instant at which the latest hiccup began, ns. -/
  hicAt : Nat := 0
  /-- R55: retries used. -/
  retries : Nat := 0
  /-- R51: switching periods left in which the comparators are held released after a restart. -/
  blank : Nat := 0
  /-- R49: overshoot truncation acts in the present switching period. -/
  trunc : Bool := false
  /-- R49, R50: comparator outputs. -/
  overT : Bool := false
  under : Bool := false
  /-- R258: consecutive samples against the voltage code, and whether the undershoot comparator has been removed. -/
  ovRun : Nat := 0
  undRun : Nat := 0
  undOut : Bool := false
  /-- R45: sample register of the grid-node voltage, 10 bits. -/
  vcode : Nat := 0
  /-- R45: sample register of the input, 10 mV, 8 bits. -/
  vin : Nat := 0
  /-- R46: the averages of the latest switching period until they reach the sample registers: its end (ns), voltage code, phase
  currents, input. -/
  nxt : Option (Nat × Nat × List Int × Nat) := none
  /-- R40, R42: the duty word in force, 10 bits. -/
  duty : Nat := 0
  /-- R42, R91: the Remontoire's word of the sample in progress: the instant at which it is written, ns, and the word. -/
  wnext : Option (Nat × Nat) := none
  /-- R72: fall-back history u1, u2, u3 (1/256 duty step) and e1, e2, e3 (codes). -/
  fu : List Int := [0, 0, 0]
  fe : List Int := [0, 0, 0]
  /-- R72: the word the fall-back compensator formed at the latest period boundary, to be written 13 ns after it. -/
  fword : Option Nat := none
  /-- R73: a preset of the history due at the next period boundary, the preset duty. -/
  fpre : Option Nat := none
  /-- R89: Remontoire compensator history u1, u2, u3 (class U) and e1, e2, e3 (class V). -/
  cu : List Int := [0, 0, 0]
  ce : List Int := [0, 0, 0]
  /-- R66, R67: shed state and consecutive samples meeting the shed test. -/
  shed : Shed := .steady
  shedRun : Nat := 0
  /-- R39: sum and count of the regulator-current values of the tick so far; consecutive ticks above 0.9 A per phase. -/
  ovSum : Int := 0
  ovCnt : Nat := 0
  ovTicks : Nat := 0
  /-- R128: cross-check run, current counter, share-check run. -/
  xcRun : Nat := 0
  ciCnt : Nat := 0
  kmRun : Nat := 0
  /-- R130: samples for which the regulator still carries SENSEREP. -/
  senseRep : Nat := 0
  /-- R125: share trim, Ref LSB. -/
  sh : Int := 0
  /-- R125, R121: reference and bias words in force, and the pair computed at the latest outer boundary. -/
  rho : Int := 0
  beta : Int := 0
  rhoN : Int := 0
  betaN : Int := 0
  /-- R125: the latches of the last 8 slot starts, newest first. -/
  latches : List Latch := []
  /-- R47, R386: the 16 calibration bytes of the image's CELL record. -/
  cal : List Byte := []
  deriving DecidableEq, Repr

/-! ### Clusters -/

/-- The Remontoire's part of a cluster (chapters 2 and 3). -/
structure ClLoop where
  /-- Table 2-12: LOOP_CMPCFG as written and as in force since the latest sample (R75). -/
  cmpcfg : Word := 0x00010C0C
  cmpcfgE : Word := 0x00010C0C
  /-- Table 2-13: LOOP_OCCFG, written and in force. -/
  occfg : Word := 0x00000740
  occfgE : Word := 0x00000740
  /-- Table 2-14: LOOP_SHEDCFG, written and in force. -/
  shedcfg : Word := 0x00002001
  shedcfgE : Word := 0x00002001
  /-- Table 2-16: LOOP_CELLEV. -/
  cellev : Word := 0
  /-- Table 2-16: LOOP_DROOPCNT counts. -/
  ovcnt : Nat := 0
  drpcnt : Nat := 0
  /-- R50: the droop flag, the instant it asserted and the instant it last deasserted, ns. -/
  droop : Bool := false
  droopAt : Nat := 0
  droopEnd : Nat := 0
  /-- R156: the 200 ns hold-off after the flag runs. -/
  holdoff : Bool := false
  /-- R65: every regulator goes to all its available phases at the next sample (droop flag, regulator lost or unavailable). -/
  addAll : Bool := false
  /-- R148: instants of recent assertions, newest first. -/
  droops : List Nat := []
  /-- R168, R192: the cluster's cells drive an output. -/
  outOn : Bool := false
  /-- R246, R398: the output has gone off: LOOP_CLST.LAW reads 0b11. -/
  lawOff : Bool := false
  /-- R51: power-good, and consecutive periods within the undershoot threshold. -/
  pgood : Bool := false
  pgRun : Nat := 0
  /-- R82: predicted state left by the last sample, 20 words. -/
  xp : List Int := List.replicate 20 0
  /-- R82: the words of the latest computed sample (trace nodes, R132): y, nu, xc, d, w, f, pre. -/
  y : List Int := []
  nu : List Int := []
  xc : List Int := []
  d : List Int := []
  wv : List Int := []
  fq : List Int := [0, 0, 0, 0]
  pre : List Int := [0, 0, 0, 0]
  /-- R89: u0 of the compensators at the latest sample. -/
  u0 : List Int := []
  /-- R71, R103: the fall-back compensators write the words; handed over under R102 or R103. -/
  fb : Bool := true
  handed : Bool := false
  /-- R103: a hand-over due at the first period boundary after an instant (ns), with the cause of FBENTER. -/
  handDue : Option (Nat × Nat) := none
  /-- R110: a RETURN accepted, due at the next sample. -/
  retDue : Bool := false
  /-- R86: the next sample is an entry; samples left under the entry limit. -/
  entry : Bool := true
  entryLeft : Nat := 0
  /-- R97: the last sample held its words. -/
  hold : Bool := false
  /-- R97, R98: the duty words that the Remontoire wrote at the cluster's latest sample; none where it wrote none. -/
  lastW : List Nat := []
  /-- R145: words of an edge whose injection sample was taken by a repeat, moved to the next sample: added to pre and f. -/
  carry : List Int := [0, 0, 0, 0]
  /-- Table 3-20: LOOP_SATCNT counts. -/
  dclamp : Nat := 0
  wsat : Nat := 0
  /-- R132: sample sequence number, modulo 4096. -/
  seq : Nat := 0
  /-- R74: fall-back coefficients a1, a2, a3, b0, b1, b2, b3 in Q2.15. -/
  fbCoef : List Int := [40960, -8192, 0, 65536, -104858, 29491, 10617]
  deriving DecidableEq, Repr

/-- The Fusee's part of a cluster (chapter 4). -/
structure ClFus where
  /-- R117: bands have been evaluated since cold reset; set-point, load, temperature band; load quantity, 1/2 mA. -/
  seen : Bool := false
  bandS : Nat := 0
  bandI : Nat := 0
  bandT : Nat := 0
  iq : Int := 0
  /-- R119: selected region of the latest outer boundary, and the full region in use. -/
  sel : Nat := 0
  use : Nat := 0
  /-- R121: the instant from which the latest boundary's region, slots, ρ and β apply, ns; none once applied. -/
  due : Option Nat := none
  /-- R122: the region selected when the latest window ended, with its domain's slots, until it takes effect: the end's instant, ns, the region, the slots. -/
  rel : Option (Nat × Nat × List Nat) := none
  /-- R119, R121: the slots mapped to the regions of the cluster's domain, as adopted. -/
  slots : List Nat := []
  /-- R119: the slot in force, 0x3F none; the capacity band of the latest sample. -/
  slot : Nat := 0x3F
  cap : Nat := 0
  /-- R128: samples since the set in force changed, saturating at 16. -/
  setAge : Nat := 16
  /-- Table 4-8: FUS_CLCTL; and the word in force since the latest sample (R22). -/
  clctl : Word := 0
  clctlE : Word := 0
  /-- Table 4-8: FUS_PLEV. -/
  plev : Word := 0
  /-- R128: envelope counter. -/
  ca : Nat := 0
  /-- R129, R244: degraded until cold reset. -/
  degraded : Bool := false
  /-- R125: margin offset, temperature term. -/
  mg : Int := 0
  tc : Int := 0
  /-- R125: cluster current of the latest outer boundary, mA; and those of the tick so far. -/
  icl : Int := 0
  icls : List Int := []
  deriving DecidableEq, Repr

/-- R150: a quiet window of a cluster, from tick `w` to tick `e`. -/
structure Win where
  w : Nat
  e : Nat
  inForce : Bool := false
  deriving DecidableEq, Repr

/-- R147: the quadrant currents latched at one slot start. -/
structure QSample where
  ns : Nat
  q : List Int
  deriving DecidableEq, Repr

/-- The Escapement's part of a cluster (chapter 5). -/
structure ClEsc where
  /-- R150: windows pending or in force, in order of start. -/
  wins : List Win := []
  /-- R152: end tick of the latest window. -/
  lastEnd : Option Nat := none
  /-- R151: the guard is in the end value; a guard is rising, applied or descending; its codes. -/
  guardOn : Bool := false
  guardMove : Bool := false
  /-- R151: the guard, codes. -/
  guard : Nat := 0
  /-- R162: tick of the latest accepted next-event token. -/
  nextTok : Option Nat := none
  /-- R159: voltage band. -/
  fband : Nat := 0
  /-- R147: recent quadrant currents, newest first. -/
  qhist : List QSample := []
  deriving DecidableEq, Repr

/-- What a transition changes (R177, R181). -/
inductive TKind where
  | setpoint | freqUp | freqDown
  deriving DecidableEq, Repr

/-- A transition in progress or waiting (R177). -/
structure Trans where
  /-- R24: authority class, 7 to 10. -/
  cls : Nat
  kind : TKind
  /-- R178: the target asked for, and the FCODE, 0 none. -/
  code : Nat := 0
  fcode : Nat := 0
  /-- R167: the slew a SETP gives, 0 for SEQ_CLCFG.SLEW. -/
  slew : Nat := 0
  /-- R173: RID of a Pallet request; a bound moved it (R178). -/
  rid : Option Nat := none
  bound : Bool := false
  /-- R177: order of acceptance. -/
  no : Nat := 0
  /-- R173: TNUM, once started; Table 6-13 STEP. -/
  tnum : Nat := 0
  step : Nat := 0
  /-- R180: the new A-state target lies below the present one. -/
  down : Bool := false
  deriving DecidableEq, Repr

/-- R185 to R190: a change of a cluster's power state that is under way. -/
inductive Chg where
  | none
  /-- R185: STATE frame queued or sent, FACK awaited. -/
  | asked (into : PState)
  /-- R185: the descent (or the ramp to off) runs. -/
  | descending (into : PState)
  /-- R190: a wake decided, awaiting admission, MAXON or its S clusters. -/
  | waiting
  /-- Table 6-8: cells powering up and calibrating; bootstrapping; reference rising; settling; STATE A frame queued. -/
  | powering
  | bootstrap
  | rising
  | settling
  | framed
  deriving DecidableEq, Repr

/-- R22, R296: an accepted change that takes effect at the cluster's next sample, or at the end tick of a window that comes first. -/
inductive HeldOp where
  | state (force : Bool) (fstate cls : Nat)
  | grant (w : Word)
  deriving DecidableEq, Repr

/-- The sequencing unit's part of a cluster (chapter 6). -/
structure ClSeq where
  /-- R166: A-state target; target (none with the output off). -/
  atarget : Nat := 0
  target : Option Nat := none
  /-- R22: the target (none: off) and slew that take effect at the next sample; whether the move is a wake or a fall. -/
  move : Option (Option Nat × Nat) := none
  /-- R166: slewed reference on the absolute scale, 1/625 Ref LSB; end value on the same scale; slew in force, mV/µs. -/
  ref : Nat := 0
  endv : Nat := 0
  slew : Nat := 20
  /-- R167: how far, on the absolute scale, the movement under way goes at that slew; beyond it a guard alone moves the reference. -/
  knee : Nat := 0
  /-- R192, R193: the reference to which a K cluster's ratio to its lead refers, on the same scale. -/
  ref0 : Nat := 0
  /-- R151, R166: the code on which the end value stands, without the guard; none where it is off. -/
  base : Option Nat := none
  /-- R166: the instant of the latest change of the end value, ns. -/
  movedAt : Nat := 0
  /-- Table 6-13: SEQ_CLLIM, SEQ_CLCFG, SEQ_CLGR as written and in force, SEQ_CLPS.FORCE and FSTATE as written. -/
  cllim : Word := 0
  clcfg : Word := 0x00000414
  /-- R22: SEQ_CLLIM and SEQ_CLCFG in force since the latest sample; R27: the spans, and the grant policies, that classes have written, by class,
  highest class first. -/
  cllimE : Word := 0
  clcfgE : Word := 0x00000414
  bounds : List (Nat × Word) := []
  grants : List (Nat × Word) := []
  clgr : Word := 0
  clgrE : Word := 0
  clps : Word := 0
  /-- R189: FORCE and FSTATE in force. -/
  force : Bool := false
  fstate : Nat := 0
  /-- R184: present state; and the one in force in the cells since the latest sample (R22). -/
  st : PState := .D
  stE : PState := .D
  /-- R185: the state change under way, its TNUM, the instant of the wake decision. -/
  chg : Chg := .none
  chgTnum : Nat := 0
  wakeAt : Nat := 0
  /-- R191: the authority class of the wake decision; R190: the admission check has let the power-on begin, and its S clusters are awaited. -/
  wakeCls : Nat := 10
  admitted : Bool := false
  /-- R209: the chooser of R187 holds the cluster in its present state. -/
  chosen : Bool := false
  /-- R185: the wake under way began with the output off (R160, R190). -/
  fromOff : Bool := false
  /-- R190: the power-on has been deferred; quarter slope in force, or due because DEFER has passed. -/
  deferred : Bool := false
  qtr : Bool := false
  /-- R178: last granted FCODE, 0 none. -/
  flast : Nat := 0
  /-- R177: transition in progress, waiting transitions in order of acceptance. -/
  cur : Option Trans := none
  queue : List Trans := []
  /-- R157: a transition whose grants are held, while a frequency-down request accepted after it is carried out. -/
  aside : Option Trans := none
  /-- R179: consecutive settled samples. -/
  settled : Nat := 0
  /-- R192: the cluster follows the start or stop profile. -/
  track : Bool := false
  /-- R188: the instant, ns, of the event for which WAKELATE was last set. -/
  lateAt : Option Nat := none
  /-- R26, R296: held changes. -/
  held : List HeldOp := []
  deriving DecidableEq, Repr

/-- R207, R208: a ladder. -/
structure Ladder where
  h : Nat := 0
  overT : Bool := false
  /-- R208: ticks counted in the allowance, none outside one. -/
  allow : Option Nat := none
  under : Nat := 0
  /-- R213: consecutive ticks at H and over with no allowance; consecutive ticks not over; unmet. -/
  atH : Nat := 0
  notOver : Nat := 0
  unmet : Bool := false
  /-- R208: a lowered cap has just taken effect. -/
  cut : Bool := false
  deriving DecidableEq, Repr

/-- The budget unit's part of a cluster (chapter 7). -/
structure ClBud where
  /-- Table 7-11: BUD_CLCAP.CAP as written; cap in force; a cap waiting for a window's end (R206). -/
  cap : Nat := 0xFFFF
  capE : Nat := 0xFFFF
  capHeld : Bool := false
  /-- R207: the cluster ladder. -/
  ladder : Ladder := {}
  /-- R209: effective position taken; R214: the greatest ladder position when no window was in force last. -/
  heff : Nat := 0
  hbase : Nat := 0
  /-- R245, Table 7-11: PMIN; R254: capacity position and consecutive ticks under its limit. -/
  pmin : Nat := 0
  pc : Nat := 0
  pcUnder : Nat := 0
  /-- R210: r on the skip lines, in sixteenths. -/
  skip : Nat := 16
  /-- R209: held in B1 by a position H. -/
  b1 : Bool := false
  /-- R198: pm of the outer boundaries of the tick so far; tick value; R200: estimate, mW. -/
  pms : List Int := []
  pm : Int := 0
  pe : Int := 0
  /-- R200: slewed reference at the tick's start, whole code. -/
  codeAt : Nat := 0
  /-- Table 7-1: th0 to th3, signed Q16.16, written and in force. -/
  theta : List Int := [0, 0, 0, 0]
  thetaE : List Int := [0, 0, 0, 0]
  /-- R201: sums over the epoch so far of x1, x2, x3 (Q16.16) and pm, their tick count, and whether each tick was in A. -/
  sums : List Int := [0, 0, 0, 0]
  ticks : Nat := 0
  allA : Bool := true
  /-- R201: the latched epoch words: means of x1, x2, x3, of pm, and VALID. -/
  epx : List Int := [0, 0, 0]
  epm : Int := 0
  valid : Bool := false
  /-- R202: the resident program's covariance, row-major 4x4. -/
  rls : List Rat := []
  /-- R254: a regulator was over-rated at the latest tick. -/
  ovr : Bool := false
  /-- R203, R204: the latest pm, for device power at outer boundaries. -/
  pmNow : Int := 0
  deriving DecidableEq, Repr

/-- The thermal monitor's part of a cluster (chapter 8). -/
structure ClThm where
  /-- Table 8-5: THM_CLCAL, written and in force. -/
  clcal : Word := 0x80001000
  clcalE : Word := 0x80001000
  /-- R229: raw code of the latest read; reading and the one before it, 1/16 °C; effective temperature. -/
  raw : Nat := 0
  rawN : Nat := 0
  read : Int := 0
  prev : Option Int := none
  eff : Int := 0
  /-- R231: latest temperature, whole °C. -/
  temp : Int := 70
  /-- R236, Table 8-5: bands. -/
  warn : Bool := false
  throt : Bool := false
  shut : Bool := false
  /-- R233, R234: broken; consecutive passes while being tested again; disagreement run; rate violations of the last 8. -/
  broken : Bool := false
  retest : Option Nat := none
  disRun : Nat := 0
  rates : List Bool := []
  noxchk : Bool := false
  /-- R237: thermal position. -/
  pt : Nat := 0
  /-- R239: held off; release lock; evaluation numbers at which the shutdown band set. -/
  hold : Bool := false
  rellock : Bool := false
  /-- R241: a RELEASE accepted, due at the next evaluation. -/
  relDue : Bool := false
  shuts : List Nat := []
  /-- R190, R232: adjacency from the image, as (tile, cluster); none without an image. -/
  adj : Option (List (Nat × Nat)) := none
  deriving DecidableEq, Repr

/-- One cluster of a tile. -/
structure Cluster where
  /-- R391: built and in the floor plan from cold reset; R246: isolated; R255: dark. -/
  present : Bool := false
  isolated : Bool := false
  dark : Bool := false
  /-- R38: the eight cells r0 to r7; the parts of each chapter. -/
  cells : List Cell := List.replicate 8 {}
  loop : ClLoop := {}
  fus : ClFus := {}
  esc : ClEsc := {}
  seq : ClSeq := {}
  bud : ClBud := {}
  thm : ClThm := {}
  deriving DecidableEq, Repr

/-! ### Program cores (chapter 10) -/

/-- R297: a Purlin message; `dst` none is the Ridge, and `bcast` a broadcast (R298). -/
structure Msg where
  src : CoreId
  dst : Option Nat
  bcast : Bool := false
  tag : Nat
  words : List Word
  /-- R295: order of issue. -/
  no : Nat := 0
  deriving DecidableEq, Repr

/-- R294, Table 10-12 LREF, Table 11-8 RDG_HLREF: a late refusal. -/
structure Refused where
  status : Nat
  op : Nat
  tile : Nat
  cluster : Nat
  seq : Nat
  deriving DecidableEq, Repr

/-- R282: a WAIT that waits. -/
structure Waiting where
  a : Nat
  mask : Word
  deadline : Option Word
  /-- The instant from which its waited cycles count, ns. -/
  since : Nat := 0
  deriving DecidableEq, Repr

/-- R273, R303: one Ridge or Rafter. -/
structure Core where
  /-- R320, R384: the core has started and executes; R322: halted by the host; R377: halted by CORESTOP. -/
  on : Bool := false
  halted : Bool := false
  stopped : Bool := false
  /-- R320: a load check is under way, with the RESET.CAUSE to start with. -/
  checking : Option Nat := none
  /-- R260: halted by an uncorrectable word of its ROM. -/
  dead : Bool := false
  /-- R273: g0 to g15 (entry 0 is never read), PC, flags. -/
  g : Vector Word 16 := Vector.replicate 16 0
  pc : Word := 0x00010000
  z : Bool := false
  n : Bool := false
  c : Bool := false
  v : Bool := false
  e : Bool := false
  /-- Table 10-12: ERR. -/
  fails : Nat := 0
  errOp : Nat := 0
  errStatus : Nat := 0
  /-- R280: EVMASK; pending bits of edge events. -/
  evmask : Word := 0
  evpend : Word := 0
  /-- R281: EVCAUSE.ACTIVE and EVENT, EPC, EFLAGS, EVBASE. -/
  active : Bool := false
  cause : Nat := 0
  epc : Word := 0
  eflags : Word := 0
  evbase : Word := 0x00010080
  /-- R286: WDOG.PERIOD written, in force since the kick, ticks since the kick; an expiry is due (R287). -/
  period : Nat := 1000
  periodE : Nat := 1000
  wd : Nat := 0
  wdDue : Bool := false
  /-- R280: TCMP, and whether event TIMER is still to come for it. -/
  tcmp : Word := 0
  timer : Bool := false
  /-- Table 10-12: CYCLE, but for the cycles of a WAIT that waits and of a halt; the instant at which the core was halted, ns, 0 while it is not. -/
  cycle : Nat := 0
  haltAt : Nat := 0
  /-- R294: refusal queue, LRLOST. -/
  lref : List Refused := []
  lrlost : Nat := 0
  /-- R297, R299: message queues. -/
  inq : List Msg := []
  outq : List Msg := []
  /-- Table 10-12: RESET.CAUSE. -/
  rcause : Nat := 0
  /-- R282: the WAIT that waits. -/
  waiting : Option Waiting := none
  /-- R320 to R322: running a loaded image, its TAG, outcome of the latest check, instruction RAM written while halted. -/
  loaded : Bool := false
  tag : Word := 0
  chk : Nat := 0
  dirty : Bool := false
  /-- R260, R321, R382: a RAM of the core holds an uncorrectable word that was found while a reset kept the core stopped. -/
  ramBad : Bool := false
  /-- Table 11-5: epoch boundaries since this start (resident duties). -/
  epochs : Nat := 0
  deriving DecidableEq, Repr

/-! ### Tiles -/

/-- A Pallet return payload other than a lowered limit (Table 6-3). -/
inductive Pay where
  | limit (core : Nat)
  | fsync (tnum c fcode : Nat)
  | fup (tnum c fcode : Nat)
  | done (tnum result vcode c : Nat)
  | state (tnum c : Nat) (st : PState)
  deriving DecidableEq, Repr

/-- R182: an FSYNC or STATE frame awaiting its FACK. -/
structure Await where
  tnum : Nat
  c : Nat
  st : Option PState
  sent : Nat
  deriving DecidableEq, Repr

/-- The Pallet port of a tile (R170 to R183). -/
structure Pallet where
  /-- R183: forced STATE frames; lowered limits (cores); every other payload in the order produced. -/
  forced : List Pay := []
  lowered : List Nat := []
  rest : List Pay := []
  /-- R211: newest queued limit of a core. -/
  value : List (Nat × Nat) := []
  /-- R183: latest limit sent for a core. -/
  sent : List (Nat × Nat) := []
  /-- R172: run pointer of a limit run; whether it is a run of lowered limits. -/
  ptr : Option Nat := none
  ptrLow : Bool := false
  /-- R170: receipt of the present slot. -/
  rcpt : Nat := 0xF
  /-- R170: word of the latest return slot. -/
  out : Word := 0xF
  /-- R182: frames awaiting FACK. -/
  awaits : List Await := []
  /-- R173: count of the tile's own transitions, modulo 128. -/
  own : Nat := 0
  deriving DecidableEq, Repr

/-- R142: an edge of a hint. -/
structure Edge where
  id : Nat
  /-- Identity of the hint, tag, start or end edge, instant T (ns), instant of scheduling (ns). -/
  hint : Nat
  tag : Nat
  isEnd : Bool
  ns : Nat
  sched : Nat
  /-- The forecast steps DQq of this edge (negated for an end edge), 0.1 A. -/
  dq : List Int
  /-- Masked clusters still to inject; those that the edge is for, injected or not. -/
  mask : List Nat
  all : List Nat
  /-- R143, R147: applied clusters: scaled steps formed at the start edge, injection instant, pre means. -/
  applied : List (Nat × List Int × Nat × List Int) := []
  /-- R143: an end edge's scaled steps, formed at its start edge, by cluster. -/
  steps : List (Nat × List Int) := []
  /-- It has been applied somewhere; it was late. -/
  ever : Bool := false
  late : Bool := false
  /-- R148: folded into another edge's score. -/
  folded : Bool := false
  deriving DecidableEq, Repr

/-- R140: a word in the hint FIFO with its instant of entry, ns. -/
structure HintWord where
  w : Word
  ns : Nat
  /-- R140: words of its token that stand in the FIFO, where the token has been dropped for an overflow; 0 otherwise. -/
  dead : Nat := 0
  deriving DecidableEq, Repr

/-- The Escapement of a tile (chapter 5). -/
structure Esc where
  /-- R140: hint FIFO, words still to discard of an overflowed token, and words of the token being received. -/
  fifo : List HintWord := []
  discard : Nat := 0
  partialN : Nat := 0
  /-- R141: instant at which the latest token was scheduled, ns. -/
  lastSched : Option Nat := none
  /-- Table 5-7, 5-9: ESC_CFG and ESC_QWCFG, written and in force. -/
  cfg : Word := 0x00080003
  cfgE : Word := 0x00080003
  qwcfg : Word := 0x0000050C
  qwcfgE : Word := 0x0000050C
  /-- Table 5-10: ESC_EV. -/
  ev : Word := 0
  /-- Tables 5-11, 5-12: counts. -/
  dropped : Nat := 0
  tokens : Nat := 0
  latecnt : Nat := 0
  unscored : Nat := 0
  bad : Nat := 0
  fair : Nat := 0
  good : Nat := 0
  /-- R142: edges held, at most 32; next edge and hint identity. -/
  edges : List Edge := []
  /-- R148, R188: edges freed lately, which the forecasts of others and the next known event still count. -/
  past : List Edge := []
  /-- R142: next edge identity. -/
  nextId : Nat := 0
  /-- R149: trust factor; grades scored and not yet applied; deferred net; TAG of the last edge scored. -/
  trust : Nat := 0
  grades : List Int := []
  defer : Int := 0
  lastTag : Nat := 0
  /-- Table 5-13: BUD_FBNDL, BUD_FBNDS, written and in force. -/
  fbndl : Word := 0x1B85A118
  fbndlE : Word := 0x1B85A118
  fbnds : Word := 0x1CC64140
  fbndsE : Word := 0x1CC64140
  deriving DecidableEq, Repr

/-- R116: a Fusee command that runs after its register write. -/
inductive FusCmd where
  | commit (slot : Nat)
  | invalidate (slot : Nat)
  | mapw (slot dom region : Nat)
  deriving DecidableEq, Repr

/-- The Fusee of a tile (chapter 4). -/
structure Fus where
  /-- Table 4-9: FUS_CTRL.RUN; the instant at which an accepted RUN takes effect, ns (R116). -/
  run : Bool := false
  runDue : Bool := false
  /-- Table 4-9: FUS_STAT bits. -/
  banderr : Bool := false
  wlive : Bool := false
  /-- R114: valid slots. -/
  valid : List Bool := List.replicate 24 false
  /-- R116: the command running; FUS_CMDST.STATUS. -/
  cmd : Option FusCmd := none
  status : Nat := 0
  /-- R117: band block working copies, four words a domain; the non-ascending content last reported. -/
  bands : List (List Word) := []
  badBand : List (List Word) := [[], [], [], []]
  /-- R126: trim blocks in force since the latest outer boundary, eight words a cluster. -/
  trims : List (List Word) := []
  /-- R121: map bytes as of the latest outer boundary. -/
  map : List Nat := []
  /-- R260: the store offsets of the words of the map, band and trim blocks that are beyond correction. -/
  badOffs : List Nat := []
  deriving DecidableEq, Repr

/-- The trace buffer of a tile (R132 to R135). -/
structure Trace where
  /-- Table 4-9: TRC_CFG, TRC_TRIG, TRC_NODEn. -/
  cfg : Word := 0x00020000
  trig : Word := 0
  nodes : List Word := [0, 0, 0, 0]
  /-- R135: 0 IDLE, 1 ARMED, 2 TRIGGERED, 3 DONE. -/
  st : Nat := 0
  /-- R132: records, oldest first, each as its words; R260: the places of those marked bad. -/
  recs : List (List Word) := []
  bad : List Nat := []
  /-- R134: the instant of a trigger event that has marked no record yet, ns; records still to write; index of the trigger record. -/
  fired : Option Nat := none
  post : Nat := 0
  tpos : Nat := 0
  deriving DecidableEq, Repr

/-- R97, R99: a sample that waits for, or is in, its repeat: kept inputs and first results' errors. -/
structure VoteJob where
  c : Nat
  /-- The prior state after preload and entry, the measurement words (or errors), f, missing flags, slot, entry limit. -/
  xp : List Int
  y : List Int
  f : List Int
  miss : List Bool
  slot : Nat
  beta : List Int
  pre : List Int
  /-- R130: the regulators under SENSEREP; R86: the bounds of its duty words; R98: the words of the sample before it. -/
  rep : List Bool
  lims : List (Int × Int)
  prev : List Nat
  errs : List LaneDelta
  /-- R97: its slot start and the instant of detection, ns. -/
  start : Nat
  seen : Nat
  /-- R97, R99: the vote lanes compute M2 for it from its detection; the instant at which its repeat completes, ns. -/
  own : Bool := false
  fin : Option Nat := none
  deriving DecidableEq, Repr

/-- R98: a differing partial or word: the partial that names its lane, the values under M0′, M1′ and M2, and the first results M0 and M1. -/
structure VItem where
  j : Nat
  isWord : Bool
  /-- The lane of `j` is charged for it: a partial, or a word whose partials all agree. -/
  lane : Bool
  /-- What M0′, M1′ and M2 give in the repeat (M2 once), and what M0 and M1 gave in the sample. -/
  a0 : Int
  a1 : Int
  a2 : Int
  b0 : Int
  b1 : Int
  deriving DecidableEq, Repr

/-- Table 3-6, R104: what a sample of a cluster brings at an instant after its slot start: the verdict of its repeat, begun at `start`; words clamped or
saturated; its mismatch found the vote queue full; its measurement words and innovations, for the supervisor (R92 step 7, R128). -/
inductive SlotAct where
  | verdict (c start : Nat) (items : List VItem)
  | counts (c dclamp wsat : Nat)
  | full (c : Nat)
  | innov (c : Nat) (y nu : List Int)
  deriving DecidableEq, Repr

/-- The Remontoire of a tile (chapter 3). -/
structure Rem where
  /-- Table 3-13: LOOP_CTRL written and in force. -/
  ctrl : Word := 7
  ctrlE : Word := 6
  /-- R377: LOOPSTOP halts it; R108. -/
  stopped : Bool := false
  /-- R105: a compare unit has failed; the compare point tested next. -/
  cmpFail : Bool := false
  /-- R105: the compare point tested next. -/
  cmpNext : Nat := 0
  /-- R106: LOOP_STAT.BIST. -/
  bist : Nat := 0
  /-- Table 3-16, 3-17. -/
  mmev : Word := 0
  votes : Nat := 0
  mismatch : Nat := 0
  locate : Word := 0
  /-- R97: instants of compare points, ns, whose mismatches are not yet counted. -/
  mmDue : List Nat := []
  /-- R104: what the samples of the tile have still to bring (the instants of R92's stages), with its instant, ns, in the order of time. -/
  acts : List (Nat × SlotAct) := []
  /-- R101: remaps in order, (lane, spare); spares that failed the self-test. -/
  remaps : List (Nat × Nat) := []
  badSpares : List Nat := []
  /-- R100: lanes charged, with the instant, ns. -/
  charges : List (Nat × Nat) := []
  /-- R99: the vote queue in order of detection, the cluster in its repeat included until that completes. -/
  queue : List VoteJob := []
  deriving DecidableEq, Repr

/-- One tile position. -/
structure Tile where
  /-- R391: the tile is in the floor plan. -/
  present : Bool := false
  /-- R370: in reset. -/
  rst : Bool := false
  /-- R3: the clusters of the tile, and the tile parts of the chapters. -/
  clusters : List Cluster := []
  rem : Rem := {}
  fus : Fus := {}
  trace : Trace := {}
  esc : Esc := {}
  pal : Pallet := {}
  /-- Table 7-10: BUD_TCAP written and in force, BUD_TGRP, tile ladder, tile power of the latest tick in mW. -/
  tcap : Nat := 0xFFFF
  tcapE : Nat := 0xFFFF
  tgrp : Nat := 0
  ladder : Ladder := {}
  power : Int := 0
  /-- R29, R191: the rotating pointer of the tile's power-ons. -/
  admPtr : Nat := 0
  /-- R196: monitor minima of L clusters c00 to c09, four bands each, signed; RFT_CPMCTL.GUARD. -/
  cpm : List (List Int) := List.replicate 10 [127, 127, 127, 127]
  cpmGuard : Nat := 2
  /-- R158, R386: the image's core map, one byte a core; none for the default of R392. -/
  cmap : Option (List Nat) := none
  /-- R260: cores whose Fmax entry holds an uncorrectable word. -/
  fmaxBad : List Nat := []
  /-- R291: the four codes by which the limits of cores written since the latest outer boundary still stand. -/
  fmaxOld : List (Nat × List Nat) := []
  /-- R269: the Rafter. -/
  core : Core := {}
  /-- R400, Table 15-7: ports bypassed, resends of the flit in hand on each port, ports retraining; PUR_PCNT. -/
  byp : List Bool := [false, false, false, false]
  tries : List Nat := [0, 0, 0, 0]
  train : List Bool := [false, false, false, false]
  crcerr : Nat := 0
  retry : Nat := 0
  /-- R246: the router has lost its feed. -/
  noFeed : Bool := false
  deriving DecidableEq, Repr

/-- R307: an RC field read in the shadow, not yet mirrored with its subtraction: offset, high and low bit, the order of issue of the subtraction, and
the outer boundaries counted when the tile applied it. -/
structure RcRead where
  off : Nat
  hi : Nat
  lo : Nat
  no : Nat
  applied : Option Nat := none
  deriving DecidableEq, Repr

/-- R305: a tile as it stood at an outer boundary, that boundary's number, and BUD_LADCFG as it then stood (BUD_CLLAD.FCAP). -/
structure Snap where
  tile : Tile := {}
  outer : Nat := 0
  lad : Word := 0x60204884
  deriving DecidableEq, Repr

/-- R305 to R307: the mirror of a tile's window. -/
structure Mirror where
  cur : Snap := {}
  /-- R305, Table 11-10: RFT_SHSTAMP.STALE; outer boundaries since the latest mirror arrived, the release from cold reset among them. -/
  stale : Bool := false
  since : Nat := 1
  /-- Mirrors on their way, oldest first. -/
  flight : List Snap := []
  /-- R306: the latched copy for the host port and for the test port, with the instant of the latch, ns. -/
  host : Option (Snap × Nat) := none
  test : Option (Snap × Nat) := none
  /-- R307: RC reads under way. -/
  reads : List RcRead := []
  deriving DecidableEq, Repr

/-! ### Device units -/

/-- The sequencing unit's device part (Table 6-12). -/
structure SeqDev where
  /-- Table 6-12: SEQ_STAT.PHASE, RAILSGOOD. -/
  phase : Nat := 0
  railsGood : Bool := false
  /-- Table 6-12: SEQ_CFG, SEQ_BE01, SEQ_BE23, SEQ_WK01, SEQ_WK23, SEQ_ADM, SEQ_EV and its counts. -/
  cfg : Word := 0x440A6414
  be01 : Word := 0x00140002
  be23 : Word := 0xC3500190
  wk01 : Word := 0x00280002
  wk23 : Word := 0x271001C2
  adm : Word := 0x00005A32
  ev : Word := 0
  rej : Nat := 0
  trans : Nat := 0
  /-- R177: next order of acceptance. -/
  next : Nat := 0
  /-- R192: the limits of START have been queued. -/
  limitsOut : Bool := false
  deriving DecidableEq, Repr

/-- R163: the latest slack report of a tile. -/
structure Slack where
  age : Nat := 1023
  /-- R163: its group, its signed slack, its synchronisation point and the tick of its anchor. -/
  group : Nat := 0
  slack : Int := 0
  sync : Nat := 0
  anchor : Nat := 0
  deriving DecidableEq, Repr

/-- The budget unit's device part (Table 7-8). -/
structure BudDev where
  /-- Table 7-8: BUD_CTRL. -/
  ctrl : Word := 3
  /-- R205: device cap in force, W. -/
  devcap : Nat := 0
  /-- Table 7-8: BUD_DEVLIM, BUD_LOCAL written and in force, W. -/
  devlim : Nat := 0xFFFFFF
  devlimE : Nat := 0xFFFFFF
  blocal : Nat := 0
  localE : Nat := 0
  /-- R207: the device ladder. -/
  ladder : Ladder := {}
  /-- R203: pdev of the latest tick, mW; R204: energy in µJ, residue in pJ. -/
  pdev : Int := 0
  energy : Nat := 0
  res : Nat := 0
  /-- Table 7-8: BUD_LOSS, BUD_LADCFG, BUD_EV. -/
  loss : Word := 0x22E90000
  ladcfg : Word := 0x60204884
  ev : Word := 0
  /-- R225: alert hold, pin low, instant since which the pin has been high, ns, instants of alerts. -/
  hold : Bool := false
  pin : Bool := false
  /-- R225: the instant since which the pin has been high, ns; instants of alerts. -/
  highSince : Nat := 0
  alerts : List Nat := []
  /-- Table 7-8: BUD_SHIFT. -/
  shift : Word := 0x00C80010
  /-- Table 7-8: BUD_GRPn written and in force. -/
  grp : List Nat := List.replicate 64 0xFFFFFF
  grpE : List Nat := List.replicate 64 0xFFFFFF
  /-- R163: the latest slack report of each tile. -/
  slack : List Slack := List.replicate 96 {}
  /-- R219: sum and count of pdev over the epoch so far, PMEAN of the last complete epoch in W. -/
  psum : Int := 0
  pcnt : Nat := 0
  pmean : Nat := 0
  /-- R219: sums of pe at the last tick with no activity, and with every ladder at position 0, mW. -/
  floorP : Int := 0
  demandP : Int := 0
  /-- R213: the next REPORT carries UNMET. -/
  unmetRep : Bool := false
  deriving DecidableEq, Repr

/-- R222: what the acting master keeps of a position. -/
structure Member where
  member : Bool := false
  /-- R222: reports accepted in this epoch: how many, and the words of the latest. -/
  count : Nat := 0
  report : List Word := []
  /-- R222: last allocation and LOCAL of a reserved position, and the epochs since it last reported. -/
  resv : Bool := false
  alloc : Nat := 0
  mlocal : Nat := 0
  absent : Nat := 0
  deriving DecidableEq, Repr

/-- The Ridge link (Table 7-9). -/
structure LinkDev where
  /-- Table 7-9: LNK_CTRL. -/
  ctrl : Word := 1
  /-- R216: width of each link in lanes, 0 none. -/
  wwidth : Nat := 0
  ewidth : Nat := 0
  /-- R216, R221: the link is training. -/
  wtrain : Bool := true
  etrain : Bool := true
  /-- Table 7-9: LNK_RACK, LNK_ALLOC and its age, SINCE, NEVER, ALONE, ACTING, LNK_EV, LATE, CRCERR. -/
  rack : Nat := 0xFFFFFF
  alloc : Nat := 0
  allocAge : Nat := 255
  since : Nat := 255
  never : Bool := true
  alone : Bool := true
  acting : Bool := false
  ev : Word := 0
  late : Nat := 0
  crcerr : Nat := 0
  /-- R219: frames failing their CRC in this epoch, W and E. -/
  failsW : Nat := 0
  failsE : Nat := 0
  /-- R222: what the acting master keeps of each position. -/
  members : List Member := List.replicate 64 {}
  /-- R220: own epoch number as master; the ENUMs of EPOCH and of ALLOC forwarded, newest first; side the EPOCH came on. -/
  enum : Nat := 0
  seenEpoch : List Nat := []
  seenAlloc : List Nat := []
  back : Option Side := none
  /-- R220: allocation received, waiting for the device's own epoch boundary. -/
  allocDue : Option Nat := none
  /-- R221: it was received before the latest loss, and ends no stand-alone operation. -/
  dueOld : Bool := false
  /-- R221: allocation in force as budget source; epochs since heartbeat loss; ALLOC frames in a row without this position;
  ticks since a valid EPOCH. -/
  inUse : Bool := false
  lossEpochs : Nat := 0
  missed : Nat := 0
  ticks : Nat := 0
  /-- R221: no heartbeat loss has been suffered since the latest valid EPOCH. -/
  heard : Bool := true
  /-- R222: collection is open; REPORTs are accepted. -/
  collecting : Bool := false
  /-- R219: ALONE at any tick of the epoch. -/
  aloneTick : Bool := true
  /-- R220: frames handed to each link since the latest own epoch boundary, in the order of service. -/
  txW : List (List Word) := []
  txE : List (List Word) := []
  deriving DecidableEq, Repr

/-- The thermal monitor's device part (Table 8-4): written and in force since the latest evaluation. -/
structure ThmDev where
  /-- Table 8-4: THM_CFG, THM_HYS, THM_BRK, THM_TCFG, written and in force, and THM_EV. -/
  cfg : Word := 0x7D695F00
  cfgE : Word := 0x7D695F00
  hys : Word := 0x000F0505
  hysE : Word := 0x000F0505
  brk : Word := 0x6E140A42
  brkE : Word := 0x6E140A42
  tcfg : Word := 0x00000205
  tcfgE : Word := 0x00000205
  ev : Word := 0
  /-- R229: a read awaits its evaluation; evaluations made. -/
  readDue : Bool := false
  evals : Nat := 0
  /-- Table 8-4: THM_MAX: the highest temperature and where it stands. -/
  tmax : Int := 0
  hotTile : Nat := 0
  hotCluster : Nat := 0
  deriving DecidableEq, Repr

/-- R243: the cluster, tile or device to which a fault belongs. -/
inductive Scope where
  | cluster (t c : Nat)
  | tile (t : Nat)
  | device
  deriving DecidableEq, Repr

/-- R248: a pending pair of source and scope. -/
structure Pend where
  sub : Nat
  src : Nat
  scope : Scope
  level : Nat
  /-- R245: a level-3 action of it is in force. -/
  capped : Bool := false
  deriving DecidableEq, Repr

/-- What a fault's handling still has to do within the command that raised it: a further fault it causes (RATELIM and FRZOVF of
R354, R358; PREEMPT of R177), an isolation of a cluster (R246), safe state (R247) with its cause. -/
inductive Todo where
  | fault (sub src : Nat) (scope : Scope) (d0 : Word)
  | isolate (t c : Nat)
  | safe (sub src : Nat)
  deriving DecidableEq, Repr

/-- The fault registers (Tables 9-9, 9-10). -/
structure FaultDev where
  /-- R248: the pending pairs; the RDG_FPENDn PEND bits are theirs. -/
  pend : List Pend := []
  /-- Table 9-10: enables and severities of subsystems 1 to 11 (entry 0 is subsystem 1), and their counts. -/
  ien : List Word := [0x000303FF, 0x000300FF, 0x000100FF, 0x000003FE, 0x0000003F, 0x0000000F, 0x0000007F, 0x00000FFF,
    0x000703FF, 0x00000007, 0x0000001F]
  sev : List (List Word) := [[0x11110000, 0x00000010, 0x00000022, 0], [0x12322110, 0, 0x00000012, 0],
    [0x11122222, 0, 0x00000003, 0], [0x00100000, 0x00000011, 0, 0], [0x00000010, 0, 0, 0], [0x00001100, 0, 0, 0],
    [0x01121211, 0, 0, 0], [0x13202222, 0x00001010, 0, 0], [0x00021212, 0x00000021, 0x00000210, 0],
    [0x00000011, 0, 0, 0], [0x00001021, 0, 0, 0]]
  count : List Nat := List.replicate 11 0
  /-- Table 9-9: RDG_SAFE and RDG_STAT: degraded, safe state with its source. -/
  degraded : Bool := false
  safe : Bool := false
  safeSub : Nat := 0
  safeSrc : Nat := 0
  /-- Table 9-9: RDG_FCFG, RDG_SCRUB, the scrub counts, RDG_FLOOR. -/
  fcfg : Word := 0x00000110
  scrub : Word := 0x00000A01
  passes : Nat := 0
  uncorr : Nat := 0
  corr : Nat := 0
  gen : Nat := 0
  isoTile : Nat := 0
  isoCluster : Nat := 0
  /-- The model's own work list: empty before and after every command. -/
  todo : List Todo := []
  /-- R244: tiles marked degraded. -/
  tdeg : List Bool := List.replicate 96 false
  deriving DecidableEq, Repr

/-- R345: an event record. -/
structure Rec where
  code : Nat
  sub : Nat := 0
  level : Nat := 0
  fault : Bool := false
  pcc : Nat := 0
  optime : Nat := 0
  tile : Nat := 0x7F
  cluster : Nat := 0x1F
  reg : Option Nat := none
  phase : Option Nat := none
  aux : Nat := 0
  seq : Nat := 0
  d0 : Word := 0
  d1 : Word := 0
  rep : Nat := 0
  pend : Bool := true
  chk : Nat := 0
  /-- R260: it is marked bad in the volatile buffer. -/
  bad : Bool := false
  deriving DecidableEq, Repr

/-- R354: what a code's rate limiter holds. -/
structure Bucket where
  code : Nat
  tokens : Nat
  /-- R354: occurrences suppressed since the last stored record was written, and that record. -/
  supp : Nat := 0
  last : Option Rec := none
  deriving DecidableEq, Repr

/-- The event recorder (Table 13-5). -/
structure LogDev where
  /-- Table 13-5: LOG_CFG, LOG_STAT.NVOK and FULL. -/
  cfg : Word := 0x04401001
  nvok : Bool := false
  full : Bool := false
  /-- R350: the records in the buffer, oldest first. -/
  buf : List Rec := []
  /-- Table 13-5: LOG_WPTR, LOG_PCC, LOG_OPT (ms), LOG_SEQ, FRZLOST, LOG_DROP, LOG_RLCNT, LOG_EV. -/
  wptr : Nat := 0
  pcc : Nat := 1
  optime : Nat := 0
  seq : Nat := 0
  frzlost : Nat := 0
  drop : Nat := 0
  rlcnt : Nat := 0
  ev : Word := 0
  /-- R354: the buckets of the codes that have had a record. -/
  buckets : List Bucket := []
  /-- R350: records still to write of the flush under way; a further flush has been triggered; R352: LOST due. -/
  flush : Option Nat := none
  again : Bool := false
  lostDue : Bool := false
  /-- R354: milli-tokens of every code that has had no record yet. -/
  base : Nat := 4000
  /-- R352, R358: records dropped since the latest LOST record. -/
  dropN : Nat := 0
  frzN : Nat := 0
  /-- R358: frozen, records taken since, OPTIME at the freeze, triggers held. -/
  frozen : Bool := false
  frzTaken : Nat := 0
  frzAt : Nat := 0
  frzHeld : Bool := false
  /-- R361: clear in progress; D0 of its CLEAR record; the region has been erased, and the clear's flush is due or under way. -/
  clearing : Bool := false
  clearD0 : Word := 0
  erased : Bool := false
  /-- R351: PF_N has asserted since cold reset. -/
  pf : Bool := false
  /-- R29, R346: the tile positions at which the rotating pointers of the recorder's write port stand, for hardware sources and for the Rafters. -/
  port : Nat := 0
  portR : Nat := 0
  /-- R346: the model's own list of the records offered in the cycle of the command in progress; none before and after every command. -/
  offers : Option (List Rec) := none
  /-- R359: the outstanding nonce and the OPTIME of its issue; the millisecond of the last issue. -/
  nonce : Option Nat := none
  nonceAt : Option Nat := none
  /-- Table 13-5: LOG_TAGL, LOG_TAGH. -/
  tagl : Word := 0
  tagh : Word := 0
  /-- Table 13-5: LOG_VRD.INDEX. -/
  index : Nat := 0
  /-- R347: milliseconds since the last HEARTBEAT record. -/
  hbeat : Nat := 0
  deriving DecidableEq, Repr

/-- R332: a burst held in a buffer slot. -/
structure Burst where
  off : Nat
  /-- R332: its bytes, none while its second reading is still to come (R339); one of them was uncorrectable. -/
  data : List Byte
  bad : Bool := false
  deriving DecidableEq, Repr

/-- R367: a write burst on the system bus: the byte address of its first beat, and of each beat of sixteen bytes the strobes and the bytes that they mark. -/
structure BusBurst where
  addr : Nat
  beats : List (Nat × List Byte)
  deriving DecidableEq, Repr

/-- A DMA channel (Table 12-5). -/
structure Chan where
  /-- Table 12-5: DMA_CHCTLn.EN, DMA_CFGn, ring base, tail, head. -/
  en : Bool := false
  cfg : Word := 0x00080610
  rbl : Word := 0
  rbh : Word := 0
  tail : Nat := 0
  head : Nat := 0
  /-- Table 12-5: DMA_CHSTn.STATE: 0 off, 1 empty, 2 running, 3 aborting, 4 halted. -/
  st : Nat := 0
  /-- Table 12-5: LASTST, ABORTED, the error address, the error index and phase, RESID, the counts. -/
  lastst : Nat := 0
  aborted : Bool := false
  errl : Word := 0
  errh : Word := 0
  erri : Word := 0
  resid : Nat := 0
  notok : Nat := 0
  done : Nat := 0
  /-- R330, R332: the descriptor in progress, its words; status so far; source bytes asked for, destination bytes acknowledged. -/
  desc : Option (List Word) := none
  status : Nat := 0
  rd : Nat := 0
  wr : Nat := 0
  /-- R332: data phase over, write-back due; R337: an abort has ended the descriptor. -/
  wb : Bool := false
  abt : Bool := false
  /-- R337: ABORTED as it stood before the abort in progress. -/
  abtWas : Bool := false
  /-- R332: bursts held in the buffer slots. -/
  slots : List Burst := []
  /-- R331: refused tiles with their codes. -/
  refused : List (Nat × Nat) := []
  /-- R339: the bursts, not yet written, whose source has been read again, by offset. -/
  reread : List Nat := []
  /-- R335: a byte was dropped. -/
  dropped : Bool := false
  /-- R375: data read from non-volatile memory so far. -/
  nv : List Byte := []
  /-- R340: phase in which the channel halted. -/
  phase : Nat := 0
  /-- R332: the latest write-back: ring index, words W6 and W0. -/
  back : Option (Nat × Word × Word) := none
  deriving DecidableEq, Repr

/-- The DMA engine (Table 12-4). -/
structure DmaDev where
  /-- Table 12-4: DMA_NVWEN, broadcast refusals, the channels. -/
  nvwen : Bool := false
  bref : List Nat := []
  ch : List Chan := { cfg := 0x00080010 } :: List.replicate 7 {}
  /-- R367: the latest write burst on the system bus. -/
  bus : Option BusBurst := none
  deriving DecidableEq, Repr

/-- R309, R294: one operation, tile-window write or read-subtraction on its way over Purlin to a tile. -/
inductive OpKind where
  | setp (code slew : Nat)
  | fmaxw (core : Nat) (codes : Word)
  | trig
  /-- A register write at a window offset: PSTATE, CAPSET, TBLSEL, GRANT and stores are all writes (R288). -/
  | regw (off : Nat) (v : Word)
  | sub (off hi lo n : Nat)
  deriving DecidableEq, Repr

/-- An operation under way: who sent it, its op code for LREF, the command's SEQ, its cluster (0 for a tile). -/
structure Flying where
  /-- R294: an operation under way: who sent it, its op code for LREF, the command's SEQ, its cluster (0 for a tile). -/
  src : Writer
  tile : Nat
  cluster : Nat
  op : Nat
  seq : Nat
  /-- R290, R294: what it does. -/
  kind : OpKind
  /-- R295: order of issue. -/
  no : Nat := 0
  deriving DecidableEq, Repr

/-- A command under execution that does not complete at once (R312, R317). -/
inductive Busy where
  | fence (left : Nat)
  | waitt (tick : Word)
  | program
  deriving DecidableEq, Repr

/-- The host port, command unit and program control (Tables 11-8, 11-9). -/
structure HostDev where
  /-- R365: response of the latest request. -/
  rdata : Word := 0
  stat : Nat := 0
  /-- R308, Table 11-8: RDG_WSTAT, RDG_REJ; R309: the host late-refusal queue. -/
  wstatAddr : Nat := 0
  wstat : Nat := 0
  rej : Nat := 0
  hlref : List Refused := []
  hlrlost : Nat := 0
  /-- R320: selections RSEL, FSEL. -/
  rsel : Bool := false
  fsel : Bool := false
  /-- R314, Table 11-9: the command register block. -/
  handle : Word := 0
  arg0 : Word := 0
  arg1 : Word := 0
  exec : Word := 0
  ready : Bool := false
  done : Bool := true
  stSeq : Nat := 0
  stStatus : Nat := 0
  cres : Word := 0
  /-- R315, Table 11-9: the ring. -/
  ren : Bool := false
  rhalted : Bool := false
  log2n : Nat := 6
  rbasel : Word := 0
  rbaseh : Word := 0
  rtail : Nat := 0
  rhead : Nat := 0
  stoperr : Bool := false
  pto : Nat := 10
  /-- R316: a command holds the unit: its words, whether it came from the ring, what it waits for. -/
  unit : Option (List Word × Bool × Busy) := none
  /-- R317, Table 11-9: program command words, CMD_PRES, HELD, the instant at which HELD was set, ns. -/
  pcmd : List Word := [0, 0, 0, 0]
  pres : Word := 0
  held : Bool := false
  heldAt : Nat := 0
  /-- R312: host late refusals since the previous FENCE completed. -/
  fenced : Nat := 0
  /-- R315: the latest write-back of the ring: entry index, words W0 and W2; R341: it failed and is to be repeated. -/
  wback : Option (Nat × Word × Word) := none
  rback : Bool := false
  /-- R343: DMA_CHCNT0.DONE and NOTOK before it, none where a read has returned them since; DMA_CHST0.LASTST before it. -/
  wcnt : Option (Nat × Nat) := none
  wlast : Nat := 0
  /-- R382: host writes are rejected. -/
  closed : Bool := true
  /-- R17: latched remaining words of wide values, by address, for the host port, HOSTACC and the Ridge. -/
  latchH : List (Nat × Word) := []
  latchT : List (Nat × Word) := []
  latchR : List (Nat × Word) := []
  deriving DecidableEq, Repr

/-- Boot, board stage, non-volatile access, key, clocks, test port (Table 14-7). -/
structure BootDev where
  /-- Table 14-5, Table 14-7: RDG_BOOT.STAGE. -/
  stage : Nat := 0
  /-- R384: boot is under way; the warm fast path is under way; PORST_N, WRST_N low. -/
  booting : Bool := false
  porst : Bool := true
  wrst : Bool := false
  fast : Bool := false
  /-- R384, Table 14-7: the cores have started; milliseconds at the start and at RAILSGOOD (BOOTMS). -/
  started : Bool := false
  startMs : Nat := 0
  bootms : Nat := 0
  /-- R384: RAILSGOOD has been seen since cold reset. -/
  railsSeen : Bool := false
  /-- Table 14-7: RDG_BOOT.IMGERR, WARM, TFAIL, REGREJ. -/
  imgerr : Nat := 0
  warm : Bool := false
  tfail : Nat := 0
  regrej : Bool := false
  /-- R378: the straps as sampled. -/
  straps : Straps := {}
  /-- Table 14-7, R376: NVIMG, KEYV, the key words taken, KEY_ACK. -/
  nvimg : Bool := false
  keyv : Bool := false
  keyw : List Word := []
  keyAck : Bool := false
  /-- R371, Table 14-7: VSET, the link's state, read-back. -/
  vset : Nat := 1800
  avsBusy : Bool := false
  avsTries : Nat := 0
  avsErr : Bool := false
  vread : Nat := 0
  avsOff : Nat := 0
  /-- R374, R375, Table 14-7: RDG_NVID, NVCRC, NVADDR and its fetch. -/
  nvid : Word := 0
  nvcrc : Word := 0
  nvaddr : Word := 0
  nverr : Bool := false
  nvdone : Bool := true
  nvdata : List Word := List.replicate 8 0
  /-- Table 14-7: CLK_STAT, CLK_CFG, CLK_CNT. -/
  clkState : Nat := 0
  fofs : Int := 0
  clkcfg : Word := 0x00C80000
  glides : Nat := 0
  losses : Nat := 0
  /-- R377: current test instruction, 6 bits; data register of HOSTACC. -/
  ir : Nat := 1
  dr : Nat := 0
  /-- R377: the boundary register (its cells: `Dev.boundary`), as Update-DR last left it; what its latest Capture-DR loaded, by cell, shifted out at TDO. -/
  bound : Nat := 0
  caught : List Bool := []
  /-- The model's own: captures of the boundary register so far, to which the free levels of pins are applied (log 122). -/
  scans : Nat := 0
  /-- R387, R389: the image was applied; Table 11-5: tiles whose store the resident Ridge loaded, those it failed. -/
  loadedTiles : List Nat := []
  failedTiles : List Nat := []
  /-- Table 11-5: the resident Ridge waits to write START. -/
  startDue : Bool := false
  runDue : Bool := false
  deriving DecidableEq, Repr

/-- The Purlin device registers (Table 15-6). -/
structure PurDev where
  /-- Table 15-6: PUR_GEV, lost tiles, the bypass and retry counts. -/
  gev : Word := 0
  lost : List Bool := List.replicate 96 false
  bypass : Nat := 0
  retry : Nat := 0
  deriving DecidableEq, Repr

/-- The margin inputs (Table 4-10) and the trace broadcast. -/
structure MargDev where
  /-- Table 4-10: the margin inputs: configuration, PLOSS, measured high time, MARGIN_A value. -/
  cfg : Word := 0x00000200
  ploss : Bool := false
  phigh : Nat := 0
  aval : Nat := 0
  /-- R127: target of MARGIN_P. -/
  mtp : Int := 0
  deriving DecidableEq, Repr

/-- The Balance boundaries counted since release from cold reset (R12, R34), and the latest instant told, ns. -/
structure Clk where
  sw : Nat := 0
  per : Nat := 0
  outer : Nat := 0
  tick : Nat := 0
  epoch : Nat := 0
  ms : Nat := 0
  /-- R12: the latest instant told, ns. -/
  now : Nat := 0
  deriving DecidableEq, Repr

/-- The block, but for its byte memories. -/
structure Dev where
  /-- R2, R391: the build. -/
  build : Build
  /-- R12, R34: the Balance boundaries. -/
  clk : Clk := {}
  /-- R391: the tiles by position. -/
  tiles : List Tile := []
  /-- R305: the mirrors by tile. -/
  mirrors : List Mirror := []
  /-- The device parts of the chapters (Tables 6-12, 7-8, 7-9, 8-4, 9-9, 13-5, 12-4, 11-8, 14-7, 15-6, 4-10). -/
  seq : SeqDev := {}
  bud : BudDev := {}
  lnk : LinkDev := {}
  thm : ThmDev := {}
  flt : FaultDev := {}
  log : LogDev := {}
  dma : DmaDev := {}
  hp : HostDev := {}
  boot : BootDev := {}
  pur : PurDev := {}
  marg : MargDev := {}
  /-- R269: the Ridge. -/
  ridge : Core := {}
  /-- R294, R309: operations on their way, in the order issued. -/
  air : List Flying := []
  /-- R294, R299: late refusals on their way back, with the writer they return to. -/
  back : List (Writer × Refused) := []
  /-- R301: messages that have left their core's outbound queue, in the order in which they left. -/
  wire : List Msg := []
  /-- R295: operations and messages issued so far. -/
  issued : Nat := 0
  /-- R134: trace triggers on their way, by destination tile. -/
  xtrig : List Nat := []
  deriving DecidableEq, Repr

/-- The machine: the block, its byte memories (one list over the map of Machine/Mem.lean) and the commands that wait. -/
structure State where
  dev : Dev
  /-- The bytes that differ from what their address reads as unlisted, addresses strictly rising. -/
  mem : List Host.Cell := []
  /-- Commands waiting, first in first out. -/
  pending : List Instr := []
  deriving DecidableEq, Repr

/-! ### Reset -/

/-- Table 4-2: the default band blocks, L to M. -/
def resetBands : List (List Word) :=
  [[0x1B85A118, 0x06503018, 0x000454B8, 0], [0x1CC64140, 0x06503018, 0x000454B8, 0],
   [0x1905512C, 0x06201008, 0x000454B8, 0], [0x2A89B230, 0x06201008, 0x000454B8, 0]]

/-- Table 4-3: the default trim block. -/
def resetTrim : List Word := [0, 0x000A2046, 0xFA4B2830, 0x00082018, 0, 0, 0, 0]

/-- Q16.16 of whole and half units. -/
def q16 (halves : Int) : Int := halves * 32768

/-- What the domain of cluster `c` gives at cold reset: A-state target under STRAP_VSEL (Tables 0-4, 14-3), SEQ_CLLIM (Table 15-4) and
th0 to th3 (Table 7-1). -/
def resetOfDomain (c vsel : Nat) : Nat × Word × List Int :=
  let up := fun (n : Nat) => if vsel = 1 then n + 20 else if vsel = 2 then n - 20 else n
  if c < 10 then (up 360, 0x02080078, [q16 0, q16 44, q16 4000, q16 60])
  else if c < 14 then (up 400, 0x020800C8, [q16 0, q16 12, q16 6000, q16 90])
  else if c < 16 then (360, 0x01E00118, [q16 1000, q16 0, q16 7000, q16 40])
  else (640, 0x02F80208, [q16 1600, q16 0, q16 8000, q16 50])

/-- Cluster `c` of a tile after cold reset. -/
def resetCluster (vsel : Nat) (built : List Nat) (c : Nat) : Cluster :=
  let r := resetOfDomain c vsel
  { present := built.contains c
    seq := { atarget := r.1, cllim := r.2.1, cllimE := r.2.1 }
    bud := if built.contains c then { theta := r.2.2, thetaE := r.2.2 } else {} }

/-- A tile position after cold reset. -/
def resetTile (vsel : Nat) (built : List Nat) : Tile :=
  { present := !built.isEmpty
    clusters := (List.range 18).map (resetCluster vsel built)
    fus := { bands := resetBands, trims := List.replicate 18 resetTrim, map := List.replicate 256 0xFF } }

/-- R381, R391, R395 to R399: the block after cold reset, of a build, under straps. -/
def Dev.resetOf (b : Build) (st : Straps) : Dev :=
  let tiles := (List.range 96).map fun t => resetTile st.vsel (b.clusters.getD t [])
  let n := tiles.countP (·.present)
  { build := b
    tiles := tiles
    mirrors := tiles.map fun x => { cur := { tile := x } }
    bud := { ctrl := if n ≤ 16 then 2 else 3, devcap := (st.lbud + 1) * 3000, blocal := (st.lbud + 1) * 3000, localE := (st.lbud + 1) * 3000 }
    boot := { straps := st } }

/-- The machine of a build after cold reset, with straps as sampled. -/
def State.resetOf (b : Build) (st : Straps) : State := { dev := Dev.resetOf b st }

/-- R381: the machine right after cold reset, in the reference build. No strap has been sampled (they read 0 until R378 samples them). -/
def State.reset : State := State.resetOf Config.build {}

end Sys2Proof.Machine
end

