-- ==== Sys2Proof/Machine/Bits.lean ====
section
/-!
DEFINITION. Sys2Proof/Machine/Bits.lean: bit fields of words, rounding, clamping, list helpers and check sums.
-/
namespace Sys2Proof.Machine

/-- Bits [hi:lo] of a word. -/
def fld (w : Word) (hi lo : Nat) : Nat := w.toNat / 2 ^ lo % 2 ^ (hi + 1 - lo)

/-- Bit `i` of a word. -/
def tst (w : Word) (i : Nat) : Bool := w.toNat / 2 ^ i % 2 == 1

/-- A word from fields: each value stands at its low bit. -/
def word (fs : List (Nat × Nat)) : Word := BitVec.ofNat 32 (fs.foldl (fun a f => a + f.1 * 2 ^ f.2) 0)

/-- `w` with `v` in bits [hi:lo]. -/
def put (w : Word) (hi lo v : Nat) : Word :=
  BitVec.ofNat 32 (w.toNat - fld w hi lo * 2 ^ lo + v % 2 ^ (hi + 1 - lo) * 2 ^ lo)

/-- `w` with bit `i` set. -/
def setBit (w : Word) (i : Nat) : Word := w ||| BitVec.ofNat 32 (2 ^ i)

/-- R15, RW1C: `v`'s ones clear bits of `w`. -/
def w1c (w v : Word) : Word := w &&& ~~~v

/-- The word of a natural number, modulo 2^32. -/
def nw (n : Nat) : Word := BitVec.ofNat 32 n

/-- The word of an integer, two's complement. -/
def iw (i : Int) : Word := BitVec.ofInt 32 i

def b2n (b : Bool) : Nat := if b then 1 else 0

/-- The signed value of an `n`-bit field. -/
def sgn (n v : Nat) : Int := if 2 ^ (n - 1) ≤ v % 2 ^ n then (v % 2 ^ n : Nat) - (2 ^ n : Nat) else (v % 2 ^ n : Nat)

/-- The `n`-bit field of an integer. -/
def uns (n : Nat) (i : Int) : Nat := (i % (2 ^ n : Nat)).toNat

def clampI (lo hi x : Int) : Int := if x < lo then lo else if hi < x then hi else x

/-- Saturation to a signed `n`-bit range. -/
def satS (n : Nat) (x : Int) : Int := clampI (-(2 ^ (n - 1) : Nat)) ((2 ^ (n - 1) : Nat) - 1) x

/-- A counter of at most `hi`, one up. -/
def incSat (hi n : Nat) : Nat := if n < hi then n + 1 else hi

/-- `a / b` rounded to nearest, ties to even. -/
def divHE (a : Int) (b : Nat) : Int :=
  let q := a / (b : Int)
  let r := 2 * (a % (b : Int))
  if r < b then q else if (b : Int) < r then q + 1 else if q % 2 = 0 then q else q + 1

/-- `a / b` rounded to nearest, ties up. -/
def divHU (a : Int) (b : Nat) : Int := (2 * a + b) / (2 * b : Nat)

/-- A power in mW shown in units of `u` mW in `n` bits; a power that is no whole number of units shows as the free value gives. -/
def shown (n : Nat) (p : Int) (u : Nat) : Nat :=
  if p % (u : Int) = 0 then (p / (u : Int)).toNat % 2 ^ n else Config.inUnits p u % 2 ^ n

/-- A mean in mA as a record carries it. -/
def meanOf (s : Int) (n : Nat) : Int := if s % (n : Int) = 0 then s / (n : Int) else Config.recordMean s n

def sumI (l : List Int) : Int := l.foldl (· + ·) 0

/-- Entry `i` of a list of integers, 0 beyond its end. -/
def at0 (l : List Int) (i : Nat) : Int := l.getD i 0

/-- Insertion into a rising list. -/
def insUp (x : Int) : List Int → List Int
  | [] => [x]
  | y :: l => if x ≤ y then x :: y :: l else y :: insUp x l

/-- A list in rising order. -/
def sortUp (l : List Int) : List Int := l.foldl (fun a x => insUp x a) []

/-- The least of a non-empty list, `d` for an empty one. -/
def minD (d : Nat) : List Nat → Nat
  | [] => d
  | x :: l => l.foldl min x

/-- Four bytes of a word, lowest address first. -/
def wordBytes (w : Word) : List Byte := [w.extractLsb' 0 8, w.extractLsb' 8 8, w.extractLsb' 16 8, w.extractLsb' 24 8]

/-- The little-endian number of bytes. -/
def leNat : List Byte → Nat
  | [] => 0
  | b :: l => b.toNat + 256 * leNat l

/-- `n` bytes of a number, lowest first. -/
def natBytes : Nat → Nat → List Byte
  | 0, _ => []
  | n + 1, v => BitVec.ofNat 8 v :: natBytes n (v / 256)

/-- One bit step of a CRC shifted left. -/
def crcStep (n poly : Nat) (crc : Nat) : Nat :=
  if crc / 2 ^ (n - 1) % 2 = 1 then (crc * 2 % 2 ^ n) ^^^ poly else crc * 2 % 2 ^ n

/-- One bit step of a CRC shifted right. -/
def crcStepR (poly : Nat) (crc : Nat) : Nat := if crc % 2 = 1 then (crc / 2) ^^^ poly else crc / 2

def iter {α : Type} (f : α → α) : Nat → α → α
  | 0, x => x
  | n + 1, x => iter f n (f x)

/-- Table 13-1: CRC-16, polynomial 0x1021, initial value 0xFFFF, not reflected. -/
def crc16 (l : List Byte) : Nat :=
  l.foldl (fun c b => iter (crcStep 16 0x1021) 8 (c ^^^ (b.toNat * 256))) 0xFFFF

/-- CRC-32 of IEEE 802.3, reflected, initial value and final inversion 0xFFFFFFFF (R319). -/
def crc32 (l : List Byte) : Nat :=
  (l.foldl (fun c b => iter (crcStepR 0xEDB88320) 8 (c ^^^ b.toNat)) 0xFFFFFFFF) ^^^ 0xFFFFFFFF

end Sys2Proof.Machine
end

