-- ==== Sys2Proof/Machine/Mem.lean ====
section
/-!
DEFINITION. Sys2Proof/Machine/Mem.lean: the byte memories of the block, kept in one list over one map, and their operations.

| Base | Size | Memory |
|---|---|---|
| 0x0 | 64 KiB | Ridge instruction RAM (Table 10-1) |
| 0x10000 | 64 KiB | Ridge data RAM |
| 0x1000000 × (t + 1) | 32 KiB | Rafter instruction RAM of tile t |
| + 0x10000 | 16 KiB | Rafter data RAM |
| + 0x20000 | 64 KiB | Fusee store (Table 4-1) |
| + 0x40000 | 42 KiB | Fmax store, four bytes a core (R158) |
| 0x100000000 | as found | external non-volatile memory, as the block last saw and wrote it (R374) |

The list holds the bytes that differ from what their address reads as unlisted, addresses strictly rising.
-/
namespace Sys2Proof.Machine

/-- Base of the Ridge's data RAM, of a tile's memories, of a tile's parts, and of the non-volatile memory. -/
def ridgeD : Nat := 0x10000
def tileBase (t : Nat) : Nat := 0x1000000 * (t + 1)
def dataRam : Nat := 0x10000
def storeBase (t : Nat) : Nat := tileBase t + 0x20000
def fmaxBase (t : Nat) : Nat := tileBase t + 0x40000
def nvBase : Nat := 0x100000000

/-- Table 4-2: default words W0 and W1 of a domain's band block; W2 is one for all, W3 is 0. -/
def bandDefault : Domain → Nat × Nat
  | .L => (280 + 360 * 2 ^ 10 + 440 * 2 ^ 20, 24 + 48 * 2 ^ 8 + 80 * 2 ^ 16 + 6 * 2 ^ 24)
  | .S => (320 + 400 * 2 ^ 10 + 460 * 2 ^ 20, 24 + 48 * 2 ^ 8 + 80 * 2 ^ 16 + 6 * 2 ^ 24)
  | .K => (300 + 340 * 2 ^ 10 + 400 * 2 ^ 20, 8 + 16 * 2 ^ 8 + 32 * 2 ^ 16 + 6 * 2 ^ 24)
  | .M => (560 + 620 * 2 ^ 10 + 680 * 2 ^ 20, 8 + 16 * 2 ^ 8 + 32 * 2 ^ 16 + 6 * 2 ^ 24)

/-- Table 0-3: the domain of a field code. -/
def domOfCode : Nat → Domain
  | 0 => .L | 1 => .S | 2 => .K | _ => .M

/-- Word `k` of the default band block (Table 4-2): SPHYS 8, TB 75, THYS 5, LDREL 4. -/
def bandWord (dm : Domain) (k : Nat) : Nat :=
  match k with
  | 0 => (bandDefault dm).1
  | 1 => (bandDefault dm).2
  | 2 => 8 + 75 * 2 ^ 4 + 5 * 2 ^ 12 + 4 * 2 ^ 16
  | _ => 0

/-- Word `k` of the default trim block (Table 4-3). -/
def trimWord (k : Nat) : Nat :=
  match k with
  | 1 => 70 + 32 * 2 ^ 8 + 10 * 2 ^ 16
  | 2 => 48 + 40 * 2 ^ 8 + 75 * 2 ^ 16 + 250 * 2 ^ 24
  | 3 => 24 + 32 * 2 ^ 8 + 8 * 2 ^ 16
  | _ => 0

/-- Byte `o % 4` of a word. -/
def byteOf (w o : Nat) : Byte := BitVec.ofNat 8 (w / 256 ^ (o % 4))

/-- R113: what an offset of a Fusee store reads as after cold reset. -/
def storeDefault (o : Nat) : Byte :=
  if o < 0xF080 then 0
  else if o < 0xF180 then 0xFF
  else if o < 0xF1C0 then byteOf (bandWord (domOfCode ((o - 0xF180) / 16)) ((o - 0xF180) / 4 % 4)) o
  else if o < 0xF200 then 0
  else if o < 0xF440 then byteOf (trimWord ((o - 0xF200) / 4 % 8)) o
  else 0

/-- R158: the default codes of a core's four bands. -/
def fmaxDefault (b : Nat) : Byte :=
  match b with
  | 0 => 32 | 1 => 56 | 2 => 72 | _ => 88

/-- What a byte that nothing has written since cold reset reads as. DESIGN CHOICE (log 1): the non-volatile memory reads
erased, 0xFF, and RAM reads 0 before boot stage 1 fills it with zeros (R384). -/
def Mem.dflt (a : Nat) : Byte :=
  if nvBase ≤ a then 0xFF
  else if a < 0x1000000 then 0
  else
    let o := a % 0x1000000
    if o < 0x20000 then 0
    else if o < 0x30000 then storeDefault (o - 0x20000)
    else if o < 0x40000 then 0
    else if o < 0x40000 + 43008 then fmaxDefault (o % 4)
    else 0

/-- One byte. -/
def Mem.read : List Host.Cell → Nat → Byte
  | [], a => Mem.dflt a
  | c :: m, a => if a = c.1 then c.2 else if a < c.1 then Mem.dflt a else Mem.read m a

/-- A listed byte in front of a list, left out where it equals what its address reads as unlisted. -/
def Mem.cons (a : Nat) (b : Byte) (m : List Host.Cell) : List Host.Cell :=
  if b = Mem.dflt a then m else (a, b) :: m

/-- One byte written. -/
def Mem.write : List Host.Cell → Nat → Byte → List Host.Cell
  | [], a, b => Mem.cons a b []
  | c :: m, a, b =>
    if a = c.1 then Mem.cons a b m
    else if a < c.1 then Mem.cons a b (c :: m)
    else c :: Mem.write m a b

/-- Bytes written at consecutive addresses. -/
def Mem.writeL (m : List Host.Cell) (a : Nat) : List Byte → List Host.Cell
  | [] => m
  | b :: l => Mem.writeL (Mem.write m a b) (a + 1) l

/-- `n` bytes read at consecutive addresses. -/
def Mem.readL (m : List Host.Cell) (a : Nat) : Nat → List Byte
  | 0 => []
  | n + 1 => Mem.read m a :: Mem.readL m (a + 1) n

/-- A little-endian word. -/
def Mem.readW (m : List Host.Cell) (a : Nat) : Word := nw (leNat (Mem.readL m a 4))

/-- Bytes [lo, hi) back to what they read as unlisted. -/
def Mem.drop (m : List Host.Cell) (lo hi : Nat) : List Host.Cell := m.filter fun c => c.1 < lo || hi ≤ c.1

/-- The canonical form: addresses strictly rising, no entry equal to what its address reads as unlisted. -/
def Memory.wf : List Host.Cell → Bool
  | [] => true
  | c :: m => (c.2 != Mem.dflt c.1) && m.all (fun e => c.1 < e.1) && Memory.wf m

end Sys2Proof.Machine
end

