-- ==== Sys2Proof/Machine/Ops.lean ====
section
/-!
DEFINITION. Sys2Proof/Machine/Ops.lean: reading and updating the parts of the block by tile, cluster, regulator and phase, and
the small predicates over them that the chapters share.
-/
namespace Sys2Proof

/-- Table 6-13: the number of a power state, and the state of a number. -/
def PState.depth (s : PState) : Nat := match s with | .A => 0 | .B1 => 1 | .B2 => 2 | .B3 => 3 | .D => 4
def PState.num (n : Nat) : PState := match n with | 0 => .A | 1 => .B1 | 2 => .B2 | 3 => .B3 | _ => .D

end Sys2Proof

namespace Sys2Proof.Machine

/-- A list with `f` applied at every index. -/
def mapI {α : Type} (f : Nat → α → α) : Nat → List α → List α
  | _, [] => []
  | i, x :: l => f i x :: mapI f (i + 1) l

/-- The indices at which a test holds. -/
def idxs {α : Type} (p : α → Bool) : Nat → List α → List Nat
  | _, [] => []
  | i, x :: l => if p x then i :: idxs p (i + 1) l else idxs p (i + 1) l

/-! ### Parts -/

def Dev.tl (d : Dev) (t : Nat) : Tile := d.tiles.getD t {}
def Dev.cl (d : Dev) (t c : Nat) : Cluster := (d.tl t).clusters.getD c {}
def Cluster.cell (k : Cluster) (r : Nat) : Cell := k.cells.getD r {}

def Dev.onT (d : Dev) (t : Nat) (f : Tile → Tile) : Dev := { d with tiles := d.tiles.modify t f }
def Tile.onC (x : Tile) (c : Nat) (f : Cluster → Cluster) : Tile := { x with clusters := x.clusters.modify c f }
def Dev.onC (d : Dev) (t c : Nat) (f : Cluster → Cluster) : Dev := d.onT t fun x => x.onC c f
def Dev.onR (d : Dev) (t c r : Nat) (f : Cell → Cell) : Dev := d.onC t c fun k => { k with cells := k.cells.modify r f }
def Dev.onLoop (d : Dev) (t c : Nat) (f : ClLoop → ClLoop) : Dev := d.onC t c fun k => { k with loop := f k.loop }
def Dev.onFus (d : Dev) (t c : Nat) (f : ClFus → ClFus) : Dev := d.onC t c fun k => { k with fus := f k.fus }
def Dev.onEsc (d : Dev) (t c : Nat) (f : ClEsc → ClEsc) : Dev := d.onC t c fun k => { k with esc := f k.esc }
def Dev.onSeq (d : Dev) (t c : Nat) (f : ClSeq → ClSeq) : Dev := d.onC t c fun k => { k with seq := f k.seq }
def Dev.onBud (d : Dev) (t c : Nat) (f : ClBud → ClBud) : Dev := d.onC t c fun k => { k with bud := f k.bud }
def Dev.onThm (d : Dev) (t c : Nat) (f : ClThm → ClThm) : Dev := d.onC t c fun k => { k with thm := f k.thm }
def Dev.onRem (d : Dev) (t : Nat) (f : Rem → Rem) : Dev := d.onT t fun x => { x with rem := f x.rem }
def Dev.onTEsc (d : Dev) (t : Nat) (f : Esc → Esc) : Dev := d.onT t fun x => { x with esc := f x.esc }
def Dev.onPal (d : Dev) (t : Nat) (f : Pallet → Pallet) : Dev := d.onT t fun x => { x with pal := f x.pal }
def Dev.onTFus (d : Dev) (t : Nat) (f : Fus → Fus) : Dev := d.onT t fun x => { x with fus := f x.fus }
def Dev.onTrc (d : Dev) (t : Nat) (f : Trace → Trace) : Dev := d.onT t fun x => { x with trace := f x.trace }

/-- Every cluster of a tile changed. -/
def Tile.mapC (x : Tile) (f : Nat → Cluster → Cluster) : Tile := { x with clusters := mapI f 0 x.clusters }

/-- Every tile changed. -/
def Dev.mapT (d : Dev) (f : Nat → Tile → Tile) : Dev := { d with tiles := mapI f 0 d.tiles }

/-- Every cluster of the device changed. -/
def Dev.mapC (d : Dev) (f : Nat → Nat → Cluster → Cluster) : Dev := d.mapT fun t x => x.mapC (f t)

/-! ### Presence -/

def Dev.hasT (d : Dev) (t : Nat) : Bool := (d.tl t).present
/-- R398: the cluster is in the floor plan from cold reset. -/
def Dev.hasC (d : Dev) (t c : Nat) : Bool := d.hasT t && (d.cl t c).present
/-- R246: the cluster answers. -/
def Dev.live (d : Dev) (t c : Nat) : Bool := d.hasC t c && !(d.cl t c).isolated

/-- R244, R289: every cluster of the tile is isolated. DEDUCED (log 93): so stands an isolated tile, which answers NOTARGET. -/
def Dev.isoT (d : Dev) (t : Nat) : Bool :=
  let x := d.tl t
  x.present && x.clusters.any (·.present) && x.clusters.all fun k => !k.present || k.isolated
/-- R8, R289: the tile answers. -/
def Dev.answersT (d : Dev) (t : Nat) : Bool := d.hasT t && !d.isoT t

/-- The tiles present. -/
def Dev.tilesOn (d : Dev) : List Nat := idxs (·.present) 0 d.tiles
/-- The clusters present in a tile. -/
def Tile.clsOn (x : Tile) : List Nat := if x.present then idxs (·.present) 0 x.clusters else []
/-- Every cluster present, in order. -/
def Dev.allC (d : Dev) : List (Nat × Nat) := d.tilesOn.flatMap fun t => (d.tl t).clsOn.map fun c => (t, c)

/-- R346: from here on the records of the command are offered in one cycle; the recorder takes them when the command closes (Machine/Seq.lean). -/
def Dev.offering (d : Dev) : Dev := { d with log := { d.log with offers := some (d.log.offers.getD []) } }

/-- `f` applied for every cluster present, all in one cycle. -/
def Dev.eachC (d : Dev) (f : Nat → Nat → Dev → Dev) : Dev := d.allC.foldl (fun e p => f p.1 p.2 e) d.offering
/-- `f` applied for every tile present, all in one cycle. -/
def Dev.eachT (d : Dev) (f : Nat → Dev → Dev) : Dev := d.tilesOn.foldl (fun e t => f t e) d.offering

/-- `f` where a condition holds, nothing otherwise. -/
def Dev.on (d : Dev) (p : Bool) (f : Dev → Dev) : Dev := if p then f d else d

/-! ### Domains (Tables 0-3, 0-4) -/

def domOf (c : Nat) : Domain := if c < 10 then .L else if c < 14 then .S else if c < 16 then .K else .M
def domCode (dm : Domain) : Nat := match dm with | .L => 0 | .S => 1 | .K => 2 | .M => 3
def isLS (c : Nat) : Bool := c < 14
def codeLo (dm : Domain) : Nat := match dm with | .L => 120 | .S => 200 | .K => 280 | .M => 520
def codeHi (dm : Domain) : Nat := match dm with | .L => 520 | .S => 520 | .K => 480 | .M => 760
def nominal (dm : Domain) : Nat := match dm with | .L => 360 | .S => 400 | .K => 360 | .M => 640
/-- R378: the strap-default nominal under STRAP_VSEL. -/
def nominalV (vsel : Nat) (dm : Domain) : Nat :=
  let n := nominal dm
  match dm with
  | .L | .S => if vsel = 1 then n + 20 else if vsel = 2 then n - 20 else n
  | _ => n
/-- The retention code of state B2. -/
def retention (dm : Domain) : Nat := match dm with | .L => 160 | _ => 240

/-! ### Cells -/

/-- R57, R62: latched off or disconnected whole. -/
def Cell.lost (x : Cell) : Bool := x.mode == .latched || x.mode == .failed
/-- R56, R58: in hiccup off-time or under-voltage lockout. -/
def Cell.away (x : Cell) : Bool := x.mode == .hiccup || x.mode == .uvlo
/-- R83: missing, whether unavailable or lost. -/
def Cell.missing (x : Cell) : Bool := x.mode != .run
def Cell.nAvail (x : Cell) : Nat := x.phases.countP (·.avail)
def Cell.nActive (x : Cell) : Nat := x.phases.countP (·.active)
/-- R45: the regulator current, mA. -/
def Cell.cur (x : Cell) : Int := sumI (x.phases.map fun p => if p.avail then p.ma else 0)
/-- R42, R91: the word of the sample in progress is in force from its write instant. -/
def Cell.wordBy (x : Cell) (ns : Nat) : Cell :=
  match x.wnext with
  | some (w, v) => if w ≤ ns then { x with duty := v, wnext := none } else x
  | none => x
/-- R133: the duty word of the sample in progress, or the one in force. -/
def Cell.word (x : Cell) : Nat := match x.wnext with | some (_, v) => v | none => x.duty
def Cell.onPh (x : Cell) (p : Nat) (f : Phase → Phase) : Cell := { x with phases := x.phases.modify p f }
def Cell.allPh (x : Cell) (f : Phase → Phase) : Cell := { x with phases := x.phases.map f }
/-- R253: regulators lost. -/
def Cluster.nLost (k : Cluster) : Nat := k.cells.countP (·.lost)
def Cluster.nMissing (k : Cluster) : Nat := k.cells.countP (·.missing)
/-- R62: available phases of the cells neither lost nor latched off. -/
def Cluster.nPhases (k : Cluster) : Nat := (k.cells.map fun x => if x.lost then 0 else x.nAvail).foldl (· + ·) 0
/-- R62: surviving capacity, mA. -/
def Cluster.survive (k : Cluster) : Nat := 900 * k.nPhases
/-- R253, Table 9-3: capacity limit in mA; none with full capacity. -/
def Cluster.icap (k : Cluster) : Option Nat :=
  if k.nPhases = 32 then none else if k.nLost ≤ 2 then some k.survive else some (k.survive * 85 / 100)

/-! ### Windows, droop, state -/

/-- R150: a quiet window is in force on the cluster. -/
def Cluster.quiet (k : Cluster) : Bool := k.esc.wins.any (·.inForce)
/-- R13, R150: at the tick boundary `n` a window [W, E) is in force that has come by then and does not end there. -/
def Cluster.quietAt (k : Cluster) (n : Nat) : Bool := k.esc.wins.any fun w => w.w ≤ n && n < w.e
/-- R166: the reference slews. -/
def ClSeq.slewing (q : ClSeq) : Bool := q.ref != q.endv
/-- R166: the slewed reference in class Ref (a quarter code), and as a whole code (R72, R258). -/
def ClSeq.rs (q : ClSeq) : Int := divHE q.ref 625 - 960
def ClSeq.code (q : ClSeq) : Int := divHE q.rs 4
/-- R166: a code on the absolute scale, 1/625 Ref LSB. -/
def absOf (code : Nat) : Nat := 600000 + 2500 * code

/-- The slot of a cluster (Table 3-5): c16 and c17 share the slots of c14 and c15. -/
def slotOf (c : Nat) : Nat := if c < 16 then c else c - 2
/-- The slot start of the cluster in the present period, ns (Table 3-5). -/
def Dev.slotStart (d : Dev) (c : Nat) : Nat := 48 * d.clk.per + 3 * slotOf c

/-- A command that tells an instant advances the clock to it. -/
def Dev.at (d : Dev) (ns : Nat) : Dev := { d with clk := { d.clk with now := max d.clk.now ns } }

/-- R247, R225: the wafer is held. -/
def Dev.held (d : Dev) : Bool := d.flt.safe || d.bud.hold

/-- R134, R135: a trigger event at `ns` for the trace of a tile; the first one in ARMED moves it to TRIGGERED and with XOUT goes to every other tile. Until
the trigger record is written the earliest event stands. -/
def trcFireAt (t ns : Nat) (own : Bool) (d : Dev) : Dev :=
  let x := (d.tl t).trace
  if x.st = 1 then
    let d := d.onTrc t fun x => { x with st := 2, fired := some ns }
    if own && tst x.cfg 6 then { d with xtrig := d.xtrig ++ d.tilesOn.filter (· != t) } else d
  else if x.st = 2 then d.onTrc t fun x => { x with fired := x.fired.map (min ns) }
  else d

/-- R134: a trigger event now. -/
def trcFire (t : Nat) (own : Bool) (d : Dev) : Dev := trcFireAt t d.clk.now own d

/-- R134: an event of source `src` on cluster `c` at `ns`. -/
def trcEventAt (t c src ns : Nat) (d : Dev) : Dev :=
  let x := (d.tl t).trace
  d.on (fld x.trig 3 0 == src && fld x.cfg 4 0 == c) (trcFireAt t ns true)

/-- R134: an event of source `src` on cluster `c` now. -/
def trcEvent (t c src : Nat) (d : Dev) : Dev := trcEventAt t c src d.clk.now d

/-! ### Program cores -/

def Dev.core (d : Dev) (k : CoreId) : Core := match k with | .ridge => d.ridge | .rafter t => (d.tl t).core
def Dev.onCore (d : Dev) (k : CoreId) (f : Core → Core) : Dev :=
  match k with | .ridge => { d with ridge := f d.ridge } | .rafter t => d.onT t fun x => { x with core := f x.core }

/-- R280: an edge event becomes pending on a started core. -/
def ev (k : CoreId) (n : Nat) (d : Dev) : Dev := d.onCore k fun x => if x.on then { x with evpend := setBit x.evpend n } else x

end Sys2Proof.Machine
end

