-- ==== Sys2Proof/Machine/Record.lean ====
section
/-!
DEFINITION. Sys2Proof/Machine/Record.lean: taking a record, rate limiting and the start of flushes (chapter 13).
-/
namespace Sys2Proof.Machine

def Dev.onLog (d : Dev) (f : LogDev → LogDev) : Dev := { d with log := f d.log }
def Dev.onFlt (d : Dev) (f : FaultDev → FaultDev) : Dev := { d with flt := f d.flt }
def Dev.addTodo (d : Dev) (x : Todo) : Dev := d.onFlt fun f => { f with todo := f.todo ++ [x] }

def LogDev.npend (l : LogDev) : Nat := l.buf.countP (·.pend)
/-- LOG_CFG fields (Table 13-5). -/
def LogDev.burst (l : LogDev) : Nat := fld l.cfg 23 20
def LogDev.rate (l : LogDev) : Nat := fld l.cfg 15 8
def LogDev.rlen (l : LogDev) : Bool := tst l.cfg 0

/-- R355: never suppressed. -/
def LogDev.exempt (l : LogDev) (r : Rec) : Bool :=
  (r.fault && 3 ≤ r.level) || r.code ≤ 8 || r.code == 0x0820 || !l.rlen

/-- R358, R352: the buffer does not take a further record now. -/
def LogDev.frzFull (l : LogDev) : Bool := l.frozen && 512 ≤ l.frzTaken
def LogDev.pendFull (l : LogDev) : Bool := 2048 ≤ l.npend && l.nvok && !l.full

/-- R352: the buffer with a free slot. It loses its oldest record where it overwrites (`stuck`: the log takes no records), else its oldest one that has
been written. -/
def roomIn (stuck : Bool) (b : List Rec) : List Rec :=
  if b.length < 2048 then b else if !stuck && b.any (!·.pend) then b.eraseP (!·.pend) else b.tail

/-- R346, R350, R352: a record into the buffer. -/
def LogDev.store (l : LogDev) (r : Rec) : LogDev :=
  { l with
    buf := roomIn (!l.nvok || l.full) l.buf ++
      [{ r with pcc := l.pcc, optime := l.optime, seq := l.seq, pend := true }]
    seq := (l.seq + 1) % 2 ^ 32
    frzTaken := if l.frozen then incSat 512 l.frzTaken else l.frzTaken }

/-- R354: the bucket of a code. -/
def LogDev.bucket (l : LogDev) (code : Nat) : Bucket :=
  (l.buckets.find? (·.code == code)).getD { code := code, tokens := l.base }

def LogDev.setBucket (l : LogDev) (b : Bucket) : LogDev :=
  { l with buckets := if l.buckets.any (·.code == b.code) then l.buckets.map (fun x => if x.code == b.code then b else x)
                      else l.buckets ++ [b] }

/-- R350: the REPEATS records of a flush (R354), then the flush of every record pending. -/
def LogDev.startFlush (l : LogDev) : LogDev :=
  let due := l.buckets.filter fun b => 0 < b.supp
  let l := due.foldl (fun l b =>
    match b.last with
    | some r => if l.frzFull || l.pendFull then l
        else (l.store { r with code := 4, sub := 0, level := 0, fault := false, aux := 0, d0 := nw b.code, d1 := nw b.supp,
                               rep := 0, chk := 0 }).setBucket { b with supp := 0 }
    | none => l) l
  { l with flush := if l.npend = 0 then none else some l.npend, again := false }

/-- R350, R353, R358, R361: a trigger of a flush; `second` is the whole second of OPTIME, at which a failed flush is tried
again. DEDUCED (log 12): during an erase nothing starts, and the clear's own flush takes the pending records. -/
def LogDev.trigger (second : Bool) (l : LogDev) : LogDev :=
  if l.frozen then { l with frzHeld := true }
  else if !l.erased && (l.clearing || l.full) then l
  else if !l.nvok && !second then l
  else if l.flush.isSome then { l with again := true }
  else l.startFlush

/-- R29: where the pointers of the write port stand once a record has been granted: that of the hardware sources, a tile's or the device's, or that of the
Rafters. The Ridge is alone in its class. -/
def LogDev.granted (l : LogDev) (r : Rec) : LogDev :=
  if r.code < 0x2000 then { l with port := if r.tile < 96 then r.tile + 1 else 0 } else if r.tile < 96 then { l with portR := r.tile + 1 } else l

/-- R346: a record is taken now, suppressed (R354) or dropped (R352, R358). R350: a flush starts for 64 records pending and for a fault handled at level 3 or
above; R351: and, once PF_N has asserted, for every record. -/
def takeNow (r : Rec) (d : Dev) : Dev :=
  let l := d.log.granted r
  let b := l.bucket r.code
  let high := r.fault && 3 ≤ r.level
  let after := fun (p : Bool) (l : LogDev) => if p || high then l.trigger false else l
  if l.exempt r || 1000 ≤ b.tokens then
    if l.frzFull then
      { d with log := after false { l with frzlost := incSat 0xFFFF l.frzlost, frzN := l.frzN + 1 } }.addTodo (.fault 11 4 .device 0)
    else if l.pendFull then
      { d with log := after false { l with drop := incSat 0xFFFF l.drop, dropN := l.dropN + 1, lostDue := true } }
    else
      let r' := { r with seq := l.seq }
      let b' := { b with tokens := if 1000 ≤ b.tokens then b.tokens - 1000 else b.tokens, last := some r' }
      let l' := (l.setBucket b').store r
      { d with log := after (64 ≤ l'.npend || l'.pf) l' }
  else
    let onBuf := match b.last with
      | some x => l.buf.any fun y => y.pend && y.seq == x.seq
      | none => false
    let l' : LogDev :=
      if onBuf then
        { l with buf := l.buf.map fun y => if y.pend && some y.seq == b.last.map (·.seq) then { y with rep := incSat 0xFFFF y.rep } else y }
      else l.setBucket { b with supp := b.supp + 1 }
    ({ d with log := { l' with rlcnt := incSat 0xFFFFFFFF l'.rlcnt } }).addTodo (.fault 11 2 .device 0)

/-- R346: a record is taken, or joins those offered in the same cycle. -/
def takeRec (r : Rec) (d : Dev) : Dev :=
  match d.log.offers with
  | some l => d.onLog fun x => { x with offers := some (l ++ [r]) }
  | none => takeNow r d

/-- R29, R346: how far a record's source stands from being granted: its class, a hardware source's, the Ridge's or a Rafter's, then its distance from the
class's rotating pointer. DESIGN CHOICE (log 64): the sources are the tile positions in rising order, then the device. -/
def Rec.turn (r : Rec) (l : LogDev) : Nat :=
  let hw := r.code < 0x2000
  97 * (if hw then 0 else if 96 ≤ r.tile then 1 else 2) + (min r.tile 96 + 97 - (if hw then l.port else l.portR)) % 97

/-- R29: the record granted next, and the others. -/
def pickOffer (p : LogDev) : List Rec → Option (Rec × List Rec)
  | [] => none
  | r :: l =>
    match pickOffer p l with
    | some (b, rest) => if r.turn p ≤ b.turn p then some (r, l) else some (b, r :: rest)
    | none => some (r, [])

/-- R29, R346: records offered in one cycle are taken one by one, its class's pointer moving at each. -/
def takeOffered : Nat → List Rec → Dev → Dev
  | 0, _, d => d
  | n + 1, l, d => match pickOffer d.log l with | some (r, rest) => takeOffered n rest (takeNow r d) | none => d

/-- The records offered by the command are taken. -/
def takeOffers (d : Dev) : Dev :=
  let l := d.log.offers.getD []
  takeOffered l.length l (d.onLog fun x => { x with offers := none })

/-- R352, R358: the LOST record. -/
def takeLost (d : Dev) : Dev :=
  let l := d.log
  takeRec { code := 7, d0 := nw l.dropN, d1 := nw l.frzN }
    { d with log := { l with dropN := 0, frzN := 0, lostDue := false } }

end Sys2Proof.Machine
end

