-- ==== Sys2Proof/Machine/Fault.lean ====
section
/-!
DEFINITION. Sys2Proof/Machine/Fault.lean: raising a fault with its escalation and the actions of its level (R243 to R252), and
acknowledgement. The actions that reach into other chapters (isolation, safe state) go onto the work list that every command
empties before it ends (Machine/Settle.lean).
-/
namespace Sys2Proof.Machine

/-- Programmed severity of source `src` of subsystem `sub` (Table 9-10). -/
def FaultDev.sevOf (f : FaultDev) (sub src : Nat) : Nat :=
  fld ((f.sev.getD (sub - 1) []).getD (src / 8) 0) (4 * (src % 8) + 2) (4 * (src % 8))

def Pend.is (p : Pend) (sub src : Nat) (sc : Scope) : Bool := p.sub == sub && p.src == src && p.scope == sc

/-- R262: the event-register bit of a source. -/
def evBit (sub src : Nat) (sc : Scope) (d : Dev) : Dev :=
  if sub = 9 ∧ 16 ≤ src then { d with pur := { d.pur with gev := setBit d.pur.gev src } }
  else if 16 ≤ src then d
  else match sub, sc with
    | 1, .cluster t c => d.onLoop t c fun l => { l with cellev := setBit l.cellev src }
    | 2, .cluster t _ => d.onRem t fun r => { r with mmev := setBit r.mmev src }
    | 2, .tile t => d.onRem t fun r => { r with mmev := setBit r.mmev src }
    | 3, .cluster t c => d.onFus t c fun l => { l with plev := setBit l.plev src }
    | 3, .tile t =>
      if src = 6 then d.onTFus t fun x => { x with banderr := true }
      else if src = 7 then d.onTFus t fun x => { x with wlive := true } else d
    | 4, .tile t => d.onTEsc t fun x => { x with ev := setBit x.ev src }
    | 5, _ => { d with seq := { d.seq with ev := setBit d.seq.ev src } }
    | 6, _ => { d with bud := { d.bud with ev := setBit d.bud.ev src } }
    | 7, _ => { d with thm := { d.thm with ev := setBit d.thm.ev src } }
    | 9, _ => { d with lnk := { d.lnk with ev := setBit d.lnk.ev src } }
    | 11, _ => { d with log := { d.log with ev := setBit d.log.ev src } }
    | _, _ => d

/-- R248: the level taken by a fault. -/
def FaultDev.levelOf (f : FaultDev) (sub src : Nat) (sc : Scope) : Nat :=
  let sv := f.sevOf sub src
  if sv = 0 then 0
  else match f.pend.find? (·.is sub src sc) with
    | none => sv
    | some p => min 5 (p.level + 1)

/-- R248: pending flag and instance level. -/
def FaultDev.note (f : FaultDev) (sub src : Nat) (sc : Scope) (lvl : Nat) : FaultDev :=
  { f with
    pend :=
      if f.pend.any (·.is sub src sc) then
        f.pend.map fun p => if p.is sub src sc then { p with level := max p.level lvl, capped := p.capped || 3 ≤ lvl } else p
      else f.pend ++ [{ sub := sub, src := src, scope := sc, level := lvl, capped := 3 ≤ lvl }]
    count := f.count.modify (sub - 1) (incSat 0xFFFF) }

/-- R244, Table 9-1: the actions of level 2 and above that mark, and those that go onto the work list. -/
def levelActs (sub src lvl : Nat) (sc : Scope) (d : Dev) : Dev :=
  let d := if lvl < 2 then d else
    match sc with
    | .cluster t c => d.onFus t c fun l => { l with degraded := true }
    | .tile t => (d.onFlt fun f => { f with tdeg := f.tdeg.set t true }).onRem t fun r => { r with ctrl := setBit r.ctrl 0 }
    | .device => d.onFlt fun f => { f with degraded := true }
  if lvl < 4 then d
  else
    let d := match sc with
      | .cluster t c => d.addTodo (.isolate t c)
      | .tile t => (d.tl t).clsOn.foldl (fun d c => d.addTodo (.isolate t c)) d
      | .device => d
    d.on (lvl == 5 || sc == .device) fun d => d.addTodo (.safe sub src)

/-- R243: the place a scope names in a record. -/
def Scope.tileNo (sc : Scope) : Nat := match sc with | .cluster t _ => t | .tile t => t | .device => 0x7F
def Scope.clusterNo (sc : Scope) : Nat := match sc with | .cluster _ c => c | _ => 0x1F

/-- R252, R348: RATELIM and FRZOVF make no record of their own. -/
def recorded (sub src : Nat) : Bool := !(sub == 11 && (src == 2 || src == 4))

/-- A fault of source `src` of subsystem `sub` in scope instance `sc`, with its record's place and data (R248, R252). -/
def raiseIn (sub src : Nat) (sc : Scope) (tile cluster : Nat) (d0 d1 : Word) (reg phase : Option Nat) (aux : Nat) (d : Dev) : Dev :=
  let lvl := d.flt.levelOf sub src sc
  let d := (evBit sub src sc d).onFlt fun f => f.note sub src sc lvl
  let d := if recorded sub src then
      takeRec { code := 0x100 * sub + src, sub := sub, level := lvl, fault := true, tile := tile, cluster := cluster,
                reg := reg, phase := phase, aux := aux, d0 := d0, d1 := d1 } d
    else d.on (3 ≤ lvl) fun d => d.onLog (LogDev.trigger false)
  levelActs sub src lvl sc d

/-- A fault whose record names its scope instance. -/
def raiseAt (sub src : Nat) (sc : Scope) (d0 d1 : Word) (reg phase : Option Nat) (aux : Nat) (d : Dev) : Dev :=
  raiseIn sub src sc sc.tileNo sc.clusterNo d0 d1 reg phase aux d

/-- A fault with at most one data word. -/
def raise (sub src : Nat) (sc : Scope) (d0 : Word) (d : Dev) : Dev := raiseAt sub src sc d0 0 none none 0 d

/-- R260: a word with two flipped bits has been read. -/
def badRead (d : Dev) : Dev := d.onFlt fun f => { f with uncorr := incSat 0xFFFF f.uncorr }

/-- R249: source `src` of subsystem `sub` acknowledged in every scope instance. -/
def FaultDev.ackOne (f : FaultDev) (sub src : Nat) : FaultDev :=
  { f with pend := f.pend.filter fun p => !(p.sub == sub && p.src == src) }

/-- RDG_FPENDn: bit k is set while source k has an instance pending. -/
def FaultDev.pendWord (f : FaultDev) (sub : Nat) : Word :=
  f.pend.foldl (fun w p => if p.sub == sub then setBit w p.src else w) 0

/-- R249: ones written to RDG_FPENDn. -/
def FaultDev.ack (f : FaultDev) (sub : Nat) (v : Word) : FaultDev :=
  { f with pend := f.pend.filter fun p => !(p.sub == sub && tst v p.src) }

/-- Highest instance level of a source, of a subsystem, of the device. -/
def FaultDev.srcLevel (f : FaultDev) (sub src : Nat) : Nat :=
  f.pend.foldl (fun m p => if p.sub == sub && p.src == src then max m p.level else m) 0
def FaultDev.subLevel (f : FaultDev) (sub : Nat) : Nat :=
  f.pend.foldl (fun m p => if p.sub == sub then max m p.level else m) 0

/-- R251: interrupt output `n`. -/
def FaultDev.irq (f : FaultDev) (n : Nat) : Bool :=
  f.pend.any fun p => p.sub == n && tst (f.ien.getD (n - 1) 0) p.src && 1 ≤ p.level

/-- R245: a level-3 action of an unacknowledged fault covers the cluster. -/
def FaultDev.caps (f : FaultDev) (t c : Nat) : Bool :=
  isLS c && f.pend.any fun p => p.capped && (match p.scope with
    | .cluster a b => a == t && b == c
    | .tile a => a == t
    | .device => true)

/-- LOOP_CELLST (Table 2-15). -/
def Cluster.cellst (k : Cluster) : Word :=
  word [(b2n k.loop.droop, 24), ((k.cells.map (·.nActive)).foldl (· + ·) 0, 18), ((k.cells.map (·.nAvail)).foldl (· + ·) 0, 12),
    (k.nLost, 8), (k.cells.countP (·.away), 4), (k.cells.countP (fun x => !x.missing), 0)]

/-- A fault of subsystem 1, whose record carries LOOP_CELLST (Table 13-3). -/
def raiseCell (src t c : Nat) (reg phase : Option Nat) (d : Dev) : Dev :=
  let d' := evBit 1 src (.cluster t c) d
  raiseAt 1 src (.cluster t c) (d'.cl t c).cellst 0 reg phase 0 d'

end Sys2Proof.Machine
end

