-- ==== Sys2Proof/Machine/Limits.lean ====
section
/-!
DEFINITION. Sys2Proof/Machine/Limits.lean: voltage bands, ladder positions, the limit of every core and its sending, and what holds
a frequency-up grant (R156 to R161, R207, R211, R212).
-/
namespace Sys2Proof.Machine

/-! ### Ladder positions (Table 7-3) -/

def BudDev.ftop (b : BudDev) : Nat := fld b.ladcfg 31 24
def BudDev.ffloor (b : BudDev) : Nat := fld b.ladcfg 23 16
def BudDev.fstep (b : BudDev) : Nat := fld b.ladcfg 15 12
def BudDev.soft (b : BudDev) : Nat := fld b.ladcfg 11 8
def BudDev.upwait (b : BudDev) : Nat := fld b.ladcfg 7 4
def BudDev.hys (b : BudDev) : Nat := fld b.ladcfg 3 0
def BudDev.laden (b : BudDev) : Bool := tst b.ctrl 1
/-- R207: NF, rounded up, and H. -/
def BudDev.nf (b : BudDev) : Nat := if b.fstep = 0 then 0 else (b.ftop - b.ffloor + b.fstep - 1) / b.fstep
def BudDev.bigH (b : BudDev) : Nat := b.nf + 16
/-- fcap code of a position. -/
def BudDev.fcap (b : BudDev) (h : Nat) : Nat :=
  if h = 0 then 255 else if h ≤ b.nf then max b.ffloor (b.ftop - b.fstep * h) else b.ffloor
/-- Run fraction of a position, sixteenths. -/
def BudDev.frac (b : BudDev) (h : Nat) : Nat :=
  if h ≤ b.nf then 16 else if h < b.bigH then 16 - (h - b.nf) else 1

/-! ### Core map (R158, R386, R392) -/

/-- R392: the default clusters of core `k`. -/
def defCore (k : Nat) : Nat × Nat := ((10 * k + 9) / 10752, 10 + (4 * k + 3) / 10752)

/-- The clusters of core `k`; none for an absent core. A map byte holds the L cluster in [3:0], 0xF for an absent core, and the S
cluster, less c10, in [5:4] (R386). -/
def Tile.core2 (x : Tile) (k : Nat) : Option (Nat × Nat) :=
  match x.cmap with
  | none => if k < 10752 then some (defCore k) else none
  | some m =>
    let b := m.getD k 0xF
    if b % 16 = 15 then none else some (b % 16, 10 + b / 16 % 4)

/-- The tile's cores in order. -/
def Tile.cores (x : Tile) : List Nat := List.range (match x.cmap with | none => 10752 | some m => m.length)

/-- R175: the cores that belong to a cluster. -/
def Tile.coresOf (x : Tile) (c : Nat) : List Nat :=
  x.cores.filter fun k => match x.core2 k with | some (l, s) => l == c || s == c | none => false

/-- R186: the S clusters to which the cores of an L cluster map. -/
def Tile.sOfL (x : Tile) (c : Nat) : List Nat :=
  match x.cmap with
  | none => [10, 11, 12, 13].filter fun s => x.clsOn.any fun l => l == c &&
      ((10752 * c) / 10 < 10752 * (s - 9) / 4) && (10752 * (s - 10) / 4 < 10752 * (c + 1) / 10)
  | some _ => [10, 11, 12, 13].filter fun s => x.cores.any fun k => x.core2 k == some (c, s)

/-- The L clusters whose cores map to an S cluster. -/
def Tile.lOfS (x : Tile) (s : Nat) : List Nat := (List.range 10).filter fun l => (x.sOfL l).contains s

/-! ### Guard and voltage band -/

/-- R151: the guard presently applied, whole codes. -/
def Cluster.guardNow (k : Cluster) : Nat :=
  if k.esc.guardOn || k.esc.guardMove then
    match k.seq.target with
    | some g => min k.esc.guard (k.seq.code - g).toNat
    | none => 0
  else 0

/-- Table 5-13: edges of a cluster's voltage bands. -/
def Tile.edges (x : Tile) (c : Nat) : List Nat :=
  let w := match domOf c with | .S => x.esc.fbndsE | _ => x.esc.fbndlE
  [fld w 9 0, fld w 19 10, fld w 29 20]

/-- R159: vb of a cluster. With no target, the reference words alone count (DEDUCED, log 13). -/
def Cluster.vb (k : Cluster) : Int :=
  let g : Int := 4 * k.guardNow
  let rhos := (k.cells.filter fun x => !x.missing).map fun x => x.rho - g
  let start := match k.seq.target with | some v => [(4 * v : Int)] | none => []
  match start ++ rhos with
  | [] => 0
  | v :: l => l.foldl min v

/-- R159: the voltage band evaluated once. -/
def bandStep (edges : List Nat) (vb : Int) (band : Nat) : Nat :=
  let cand := edges.countP fun (e : Nat) => decide (4 * (e : Int) ≤ vb)
  if cand < band then cand
  else if band < 3 ∧ 4 * ((edges.getD band 0 : Nat) : Int) + 8 ≤ vb then band + 1
  else band

/-- R159: a cluster's band evaluated. -/
def bandEval (t c : Nat) (d : Dev) : Dev :=
  d.on (isLS c) fun d => d.onC t c fun k =>
    { k with esc := { k.esc with fband := bandStep ((d.tl t).edges c) k.vb k.esc.fband } }

/-! ### Limits (R160) -/

/-- R160: the cluster is dark, isolated or off; a cluster that comes from off counts as off until it has settled (R185). -/
def Cluster.noClock (k : Cluster) : Bool :=
  k.isolated || k.dark || !k.present || !k.loop.outOn ||
  (match k.seq.chg with | .powering | .bootstrap | .rising | .settling => k.seq.track || k.seq.fromOff | _ => false)

/-- What a cluster contributes to its cores' limits: band, fcap, fthm. -/
def Dev.limKey (d : Dev) (k : Cluster) : Nat × Nat × Bool :=
  (k.esc.fband, min (d.bud.fcap k.bud.heff) (d.bud.fcap k.thm.pt), k.noClock)

/-- R158, R291: the code of band `b` of core `k` by which its limit is formed: a new entry counts from the next outer boundary. -/
def fmaxCode (m : List Host.Cell) (x : Tile) (t k b : Nat) : Nat :=
  match x.fmaxOld.find? (·.1 == k) with
  | some p => p.2.getD b 0
  | none => if x.fmaxBad.contains k then 0 else (Mem.read m (fmaxBase t + 4 * k + b)).toNat

/-- R160: the limit of core `k` of tile `t`. -/
def limNow (m : List Host.Cell) (d : Dev) (t k : Nat) : Nat :=
  let x := d.tl t
  match x.core2 k with
  | none => 0
  | some (l, s) =>
    let a := d.limKey (x.clusters.getD l {})
    let b := d.limKey (x.clusters.getD s {})
    if a.2.2 || b.2.2 then 0
    else min (fmaxCode m x t k (min a.1 b.1)) (min a.2.1 b.2.1)

/-- R291: entry bytes from `o` of a tile's Fmax store are written; each entry touched stands anew, its limit from the next outer boundary. -/
def fmaxPut (t o : Nat) (l : List Byte) (m : List Host.Cell) (d : Dev) : List Host.Cell × Dev :=
  let x := d.tl t
  let ks := (List.range ((o + l.length + 3) / 4)).drop (o / 4)
  let olds := (ks.filter fun k => !x.fmaxOld.any (·.1 == k)).map fun k => (k, [0, 1, 2, 3].map (fmaxCode m x t k))
  (Mem.writeL m (fmaxBase t + o) l,
   d.onT t fun x => { x with fmaxOld := x.fmaxOld ++ olds, fmaxBad := x.fmaxBad.filter fun k => !ks.contains k })

/-! ### The queue of limits (R161, R183, R211) -/

def assocSet (l : List (Nat × Nat)) (k v : Nat) : List (Nat × Nat) :=
  if l.any (·.1 == k) then l.map (fun p => if p.1 == k then (k, v) else p) else l ++ [(k, v)]
def assocGet (l : List (Nat × Nat)) (k : Nat) : Option Nat := (l.find? (·.1 == k)).map (·.2)

/-- The core's limit is queued. -/
def Pallet.queued (p : Pallet) (k : Nat) : Bool := (assocGet p.value k).isSome

/-- R161, R211: a new limit of core `k` is queued: below what was sent last (or held before) it is a lowered limit, and a newer limit
takes the queued one's place. -/
def Pallet.putLimit (p : Pallet) (k old new : Nat) : Pallet :=
  let base := (assocGet p.sent k).getD old
  let p := { p with value := assocSet p.value k new }
  if new < base then
    { p with lowered := if p.lowered.contains k then p.lowered else p.lowered ++ [k]
             rest := p.rest.filter fun y => y != .limit k }
  else
    { p with lowered := p.lowered.filter (· != k)
             rest := if p.rest.contains (.limit k) then p.rest else p.rest ++ [.limit k] }

/-- What the limits of a tile are made from. -/
def Dev.limKeys (d : Dev) (t : Nat) : List (Nat × Nat × Bool) := (d.tl t).clusters.map d.limKey

/-- R161: the limits of tile `t` that differ from those before are queued. -/
def syncTile (m0 : List Host.Cell) (old : Dev) (m : List Host.Cell) (t : Nat) (d : Dev) : Dev :=
  let x := d.tl t
  if !x.present || (m0 == m && old.limKeys t == d.limKeys t && (old.tl t).cmap == x.cmap && (old.tl t).fmaxBad == x.fmaxBad &&
      (old.tl t).fmaxOld == x.fmaxOld) then d
  else
    d.onPal t fun p => x.cores.foldl (fun p k =>
      let a := limNow m0 old t k
      let b := limNow m d t k
      if a = b then p else p.putLimit k a b) p

/-- R161 for every tile. -/
def syncAll (m0 : List Host.Cell) (old : Dev) (m : List Host.Cell) (d : Dev) : Dev :=
  d.tilesOn.foldl (fun d t => syncTile m0 old m t d) d

/-! ### Holds of frequency-up grants (R153, R156, R212) -/

/-- R212: a ladder covering the cluster is over, with LADEN set. -/
def Dev.ladOver (d : Dev) (t c : Nat) : Bool :=
  d.bud.laden && (d.bud.ladder.overT || (d.tl t).ladder.overT || (d.cl t c).bud.ladder.overT)

/-- The cluster holds frequency-up grants of its cores. -/
def Dev.holdsUp (d : Dev) (t c : Nat) : Bool :=
  let k := d.cl t c
  k.loop.droop || k.loop.holdoff || k.quiet || d.ladOver t c

/-- R185: a cluster that wakes with its output on has not yet sent its STATE frame naming A, behind which its raised limits go. -/
def ClSeq.wakingOn (q : ClSeq) : Bool :=
  !q.fromOff && !q.track && (match q.chg with | .rising | .settling | .framed => true | _ => false)

/-- A raised limit of core `k` is held. -/
def Dev.coreHeld (d : Dev) (t k : Nat) : Bool :=
  match (d.tl t).core2 k with
  | some (l, s) => [l, s].any fun b => d.holdsUp t b || (d.cl t b).seq.wakingOn
  | none => false

/-- The L and S clusters to which the cores of cluster `c` map. -/
def Tile.mapped2 (x : Tile) (c : Nat) : List Nat :=
  if c < 10 then c :: x.sOfL c else if c < 14 then c :: x.lOfS c else []

/-- R156: a grant to all cores of cluster `c` is held by any L or S cluster to which one of those cores maps. -/
def Dev.clusterHeld (d : Dev) (t c : Nat) : Bool := ((d.tl t).mapped2 c).any (d.holdsUp t)

/-! ### Lowered limits in a quiet window (R153, R157) -/

/-- A quiet window is in force on a cluster to which core `k` maps, and to which the cores of cluster `c` map. -/
def Dev.coreQuiet (d : Dev) (t k : Nat) : Bool :=
  match (d.tl t).core2 k with
  | some (l, s) => (d.cl t l).quiet || (d.cl t s).quiet
  | none => false
def Dev.clusterQuiet (d : Dev) (t c : Nat) : Bool := ((d.tl t).mapped2 c).any fun b => (d.cl t b).quiet

/-- R157, Table 5-4: the limit that classes 1 to 4 impose on core `k`: off, isolated or dark, thermal throttle, PMIN. -/
def Dev.hardLim (d : Dev) (t k : Nat) : Nat :=
  let x := d.tl t
  let key := fun (c : Nat) => let y := x.clusters.getD c {}; if y.noClock then 0 else min (d.bud.fcap y.thm.pt) (d.bud.fcap y.bud.pmin)
  match x.core2 k with
  | some (l, s) => if x.fmaxBad.contains k then 0 else min (key l) (key s)
  | none => 0

/-- The value at which the queued limit of core `k` would go now: inside a window, no lower than classes 1 to 4 ask for. -/
def Dev.sendable (d : Dev) (t k : Nat) : Nat :=
  let v := (assocGet (d.tl t).pal.value k).getD 0
  if d.coreQuiet t k then max v (d.hardLim t k) else v

/-- R161, Table 5-4: a lowered limit of core `k` may go now: in a window, where classes 1 to 4 lower the latest limit sent. -/
def Dev.lowNow (d : Dev) (t k : Nat) : Bool :=
  !d.coreQuiet t k || decide (d.hardLim t k < (assocGet (d.tl t).pal.sent k).getD 255)

end Sys2Proof.Machine
end

