-- ==== Sys2Proof/Machine/Seq.lean ====
section
/-!
DEFINITION. Sys2Proof/Machine/Seq.lean: the moving reference, power states, transitions, isolation and the lowest state as shared
operations (R25, R166 to R169, R177 to R194, R246, R247).
-/
namespace Sys2Proof.Machine

/-! ### Fields -/

def SeqDev.settle (q : SeqDev) : Nat := fld q.cfg 31 28
def SeqDev.maxon (q : SeqDev) : Nat := fld q.cfg 26 24
def SeqDev.fackto (q : SeqDev) : Nat := fld q.cfg 21 16
def SeqDev.wslew (q : SeqDev) : Nat := fld q.cfg 14 8
def SeqDev.sslew (q : SeqDev) : Nat := fld q.cfg 5 0
def SeqDev.hot (q : SeqDev) : Nat := fld q.adm 15 8
def SeqDev.defer (q : SeqDev) : Nat := fld q.adm 7 0
def ClSeq.vmin (q : ClSeq) : Nat := fld q.cllimE 9 0
def ClSeq.vmax (q : ClSeq) : Nat := fld q.cllimE 25 16
def ClSeq.cslew (q : ClSeq) : Nat := fld q.clcfgE 5 0
def ClSeq.maxst (q : ClSeq) : Nat := fld q.clcfgE 10 8
def ClSeq.upstep (q : ClSeq) : Nat := fld q.clgrE 15 8
def ClSeq.upmode (q : ClSeq) : Nat := fld q.clgrE 1 0
def clampN (lo hi x : Nat) : Nat := max lo (min hi x)
/-- R168: a code brought inside the span in force, and inside one accepted that takes effect at the next sample (R22). -/
def ClSeq.inSpan (q : ClSeq) (code : Nat) : Nat := clampN (fld q.cllim 9 0) (fld q.cllim 25 16) (clampN q.vmin q.vmax code)
/-- R27, R168: a set-point transition as the span bounds it when its target is taken. -/
def ClSeq.spanned (q : ClSeq) (tr : Trans) : Trans :=
  match tr.kind with
  | .setpoint => { tr with code := q.inSpan tr.code, bound := tr.bound || q.inSpan tr.code != tr.code }
  | _ => tr

/-- A wake is under way (R185). -/
def ClSeq.waking (q : ClSeq) : Bool :=
  match q.chg with | .waiting | .powering | .bootstrap | .rising | .settling | .framed => true | _ => false
/-- R185: a state change is in progress. -/
def ClSeq.changing (q : ClSeq) : Bool := q.chg != .none
/-- The state present or being entered. -/
def ClSeq.heading (q : ClSeq) : PState := match q.chg with | .asked s => s | _ => q.st

/-! ### Pallet queues -/

/-- R173: the next TNUM of a transition that Kyovex starts. -/
def ownTnum (t : Nat) (d : Dev) : Nat := 128 + (d.tl t).pal.own
def bumpTnum (t : Nat) (d : Dev) : Dev := d.onPal t fun p => { p with own := (p.own + 1) % 128 }
def pushRest (t : Nat) (y : Pay) (d : Dev) : Dev := d.onPal t fun p => { p with rest := p.rest ++ [y] }
/-- A STATE frame of an own TNUM. -/
def pushState (t c : Nat) (s : PState) (forced : Bool) (d : Dev) : Dev :=
  bumpTnum t (d.onPal t fun p =>
    if forced then { p with forced := p.forced ++ [.state (128 + p.own) c s] } else { p with rest := p.rest ++ [.state (128 + p.own) c s] })
/-- Unsent STATE frames of a cluster and their acknowledgements are overtaken. -/
def dropState (t c : Nat) (d : Dev) : Dev :=
  d.onPal t fun p => { p with rest := p.rest.filter fun y => match y with | .state _ b _ => b != c | _ => true
                              awaits := p.awaits.filter fun a => !(a.c == c && a.st.isSome) }

/-! ### The reference (R166, R167) -/

/-- R151: the guard that the end value of a cluster takes; it waits while the cluster follows the start profile, to its target (R192). -/
def Cluster.guardEnd (k : Cluster) : Nat := if k.esc.guardOn && !k.seq.track then k.esc.guard else 0

/-- The end value on the target `tgt` (none: off), with the guard standing. -/
def Cluster.endOn (k : Cluster) (tgt : Option Nat) : Nat := match tgt with | some v => absOf (v + k.guardEnd) | none => 0

/-- A new end value for the target `tgt` (none: off), with the guard standing; R159: a target that changes has its band evaluated. DESIGN CHOICE (log
130): the guard's part of the new end value is moved at the movement's own slew. -/
def setEnd (t c : Nat) (tgt : Option Nat) (slew : Nat) (d : Dev) : Dev :=
  let old := (d.cl t c).seq.target
  (d.onC t c fun k =>
    { k with seq := { k.seq with target := tgt, base := tgt, slew := slew, movedAt := d.clk.now, settled := 0,
                                 endv := k.endOn tgt, knee := k.endOn tgt } }).on (old != tgt) (bandEval t c)

/-- R151, R167: where the movement under way keeps its slew once the guard has made `e` of the end value: as far as it goes on, to where it was going; a
reference that stands, or turns round, moves for the guard alone. -/
def ClSeq.kneeTo (q : ClSeq) (e : Nat) : Nat :=
  if q.ref < q.endv ∧ q.ref < e then min q.knee e else if q.endv < q.ref ∧ e < q.ref then q.knee else q.ref

/-- R151: the guard alone moves the end value, above the code on which it stands. -/
def moveGuard (t c : Nat) (d : Dev) : Dev :=
  d.onC t c fun k =>
    let e := k.endOn k.seq.base
    if k.seq.base.isSome && e != k.seq.endv then { k with seq := { k.seq with endv := e, movedAt := d.clk.now, settled := 0, knee := k.seq.kneeTo e } } else k

/-- R167, Table 6-1: the slew of one step: below the domain's lowest code, and to off, SSLEW; the movement's own as far as it goes; beyond that the guard
rises or descends, at SEQ_CLCFG.SLEW. -/
def ClSeq.stepSize (q : ClSeq) (dm : Domain) (sslew : Nat) : Nat :=
  let s := if q.ref < q.endv ∧ q.ref < absOf (codeLo dm) then sslew
           else if q.endv < q.ref ∧ q.ref ≤ absOf (codeLo dm) then sslew
           else if (q.ref < q.endv ∧ q.ref < q.knee) ∨ (q.endv < q.ref ∧ q.knee < q.ref) then q.slew else q.cslew
  (if q.qtr then 3 else 12) * s

/-- One step toward the end value. -/
def ClSeq.stepped (q : ClSeq) (n : Nat) : Nat :=
  if q.ref < q.endv then min q.endv (q.ref + n) else max q.endv (q.ref - n)

/-! ### Sheds cancelled (R67) -/

/-- A pending shed of any regulator of the cluster is cancelled. -/
def cancelSheds (t c : Nat) (d : Dev) : Dev :=
  (idxs (fun x : Cell => x.shed != .steady) 0 (d.cl t c).cells).foldl (fun d r =>
    raiseCell 8 t c (some r) none (d.onR t c r fun x => { x with shed := .steady, shedRun := 0 })) d

/-! ### Output on and off -/

/-- R54: the preset duty from a cell's own sample registers. DEDUCED (log 14): an input reading of 0 gives the upper clamp. -/
def Cell.preset (x : Cell) : Nat :=
  if x.vin = 0 then 767 else (clampI 0 767 (divHE (768 * (300000 + 1250 * (x.vcode : Int))) (10000 * x.vin))).toNat

/-- R54: the available phases restart with trim 0 and the preset duty; R73: the history is preset at the next period boundary. -/
def Cell.restart (x : Cell) : Cell :=
  { x.allPh (fun p => { p with active := p.avail, trim := 0, limRun := 0, atLimit := false }) with
    duty := x.preset, fpre := some x.preset, shed := .steady, shedRun := 0 }

/-- R44: every pulse ends and every phase stops; the comparators are released (R51). -/
def Cell.stopPh (x : Cell) : Cell :=
  { x.allPh (fun p => { p with active := false, pulse := 0, limRun := 0, atLimit := false }) with
    overT := false, under := false, trunc := false, shed := .steady, shedRun := 0 }

/-- R168, R246: the output has reached off. -/
def outOff (t c : Nat) (d : Dev) : Dev :=
  d.onC t c fun k =>
    { k with
      loop := { k.loop with outOn := false, lawOff := true, pgood := false, pgRun := 0, entry := true }
      cells := k.cells.map fun x => { x.stopPh with wnext := none }
      bud := { k.bud with pe := 0 }
      seq := { k.seq with ref := 0, endv := 0, target := none, base := none, move := none, track := false, settled := 0,
                          chg := match k.seq.chg with | .descending _ => .none | x => x } }

/-- R168, R192: the cluster's ramp from off begins. -/
def beginRamp (t c : Nat) (d : Dev) : Dev :=
  let q := (d.cl t c).seq
  let d := d.onC t c fun k =>
    { k with
      loop := { k.loop with outOn := true, lawOff := false, pgood := false, pgRun := 0, entry := true }
      cells := k.cells.map fun x => if x.missing then x else x.restart
      seq := { k.seq with ref := 0, ref0 := absOf k.seq.atarget, chg := .rising } }
  setEnd t c (some q.atarget) (if q.track then d.seq.sslew else d.seq.wslew) d

/-- What the arrival of a reference at its end value brings. R193: an entry to D ends with the output off alone, be its end value still that of a stop that
waits for the M clusters. -/
def arrived (t c : Nat) (d : Dev) : Dev :=
  let q := (d.cl t c).seq
  let d := d.on (!(d.cl t c).esc.guardOn) fun d => d.onEsc t c fun z => { z with guardMove := false }
  match q.chg with
  | .rising => d.on (q.move.isNone) fun d => d.onSeq t c fun q => { q with chg := .settling, settled := 0 }
  | .descending _ => d.on (q.move.isNone) fun d =>
      if q.endv = 0 then outOff t c d else d.on (q.st != .D) fun d => d.onSeq t c fun q => { q with chg := .none }
  | _ => d

/-- R151, R154 step 5: the guard moves the end value; one that the reference does not carry has nothing to descend from. -/
def guardMoves (t c : Nat) (d : Dev) : Dev :=
  let d := moveGuard t c d
  let k := d.cl t c
  d.on (!k.esc.guardOn && (!k.seq.slewing || k.seq.base.isNone)) fun d => d.onEsc t c fun z => { z with guardMove := false }

/-! ### Entering a deeper state (R185, R25) -/

/-- R180: the A-state target once the movement due at the next sample has been taken. -/
def ClSeq.movedTo (q : ClSeq) : Nat :=
  match q.cur, q.move with
  | some tr, some (some v, _) => if tr.step = 3 ∧ v = tr.code then q.inSpan v else q.atarget
  | _, _ => q.atarget

/-- R185 step 2: the descent begins: at once where forced, at the next sample after a FACK (R22). -/
def descend (t c : Nat) (into : PState) (forced : Bool) (d : Dev) : Dev :=
  let k := d.cl t c
  let d := d.onSeq t c fun q =>
    { q with st := into, chg := .descending into, fromOff := false, qtr := false, deferred := false, track := false, atarget := q.movedTo }
  let go := fun (tgt : Option Nat) (slew : Nat) (d : Dev) =>
    if forced then setEnd t c tgt slew (d.onSeq t c fun q => { q with move := none })
    else d.onSeq t c fun q => { q with move := some (tgt, slew) }
  if !k.loop.outOn then d.onSeq t c fun q => { q with chg := .none, move := none }
  else match into with
    | .A | .B1 => d.onSeq t c fun q => { q with chg := .none }
    | .B2 => go (some (if forced then min (retention (domOf c)) k.seq.atarget else retention (domOf c))) k.seq.cslew d
    | .B3 => if domOf c = .S then go (some (if forced then min (retention .S) k.seq.atarget else retention .S)) k.seq.cslew d
             else go none d.seq.sslew d
    | .D => go none d.seq.sslew d

/-- R184: K and M clusters use B1 in place of B2 and B3. -/
def fitState (c : Nat) (s : PState) : PState :=
  if isLS c then s else match s with | .B2 | .B3 => .B1 | x => x

/-- R148: a cluster that changes state leaves the scores of its tile's edges. -/
def leaveScores (t c : Nat) (d : Dev) : Dev :=
  d.onTEsc t fun e => { e with edges := e.edges.map fun g => { g with applied := g.applied.filter fun a => a.1 != c } }

/-- R142: an edge is held while a cluster is still to inject or a score is still to come. DESIGN CHOICE (log 99): an edge that has injected keeps its
place among the 32 until it is scored. -/
def Edge.held (g : Edge) : Bool := !g.mask.isEmpty || g.ever

/-- R142, R148: edges no longer held leave; those whose instants the forecast of a held edge still counts, or whose tick is still to come, are kept aside. -/
def Esc.tidy (e : Esc) (ns : Nat) : Esc :=
  let keep := e.edges.filter Edge.held
  { e with edges := keep
           past := (e.past ++ e.edges.filter fun y => !y.held).filter fun y =>
             decide (ns < y.ns + 1000) || keep.any fun g => g.applied.any fun a => decide (a.2.2.1 < y.ns + 384) }

/-! ### Trust (R149) -/

/-- R149: a quiet window is in force on a cluster of the tile. -/
def Tile.quietAny (x : Tile) : Bool := x.clusters.any (·.quiet)

/-- R149, R165: the trust factor moves; reaching and leaving 0 are recorded. -/
def setTrust (t : Nat) (v : Int) (d : Dev) : Dev :=
  let e := (d.tl t).esc
  let n := (clampI 0 16 v).toNat
  let d := d.onTEsc t fun e => { e with trust := n }
  if n = 0 ∧ 0 < e.trust then raise 4 9 (.tile t) (nw e.lastTag) d
  else if 0 < n ∧ e.trust = 0 then takeRec { code := 0x0420, sub := 4, tile := t, d0 := nw e.lastTag, d1 := nw n } d
  else d

/-- R149, R154 step 1: the net of the deferred updates, at the end of the tile's last window. -/
def trustRelease (t : Nat) (d : Dev) : Dev :=
  let x := d.tl t
  let v := x.esc.defer
  if x.quietAny || v = 0 then d
  else
    let d := d.onTEsc t fun e => { e with defer := 0 }
    d.on (x.fus.run && !tst x.esc.cfgE 2) (setTrust t ((d.tl t).esc.trust + v))

/-! ### Deeper states -/

/-- R185 step 1: a deeper state is asked for. -/
def enter (t c : Nat) (into : PState) (d : Dev) : Dev :=
  let into := fitState c into
  let q := (d.cl t c).seq
  d.on (q.heading.depth < into.depth && !q.waking) fun d =>
    let n := ownTnum t d
    pushState t c into false (cancelSheds t c (d.onSeq t c fun q => { q with chg := .asked into, chgTnum := n }))

/-- R25, R246: a forced entry: never shallower, a wake from deeper is abandoned, and no FACK is awaited (R182). -/
def enterForced (t c : Nat) (into : PState) (d : Dev) : Dev :=
  let into := fitState c into
  let k := d.cl t c
  let q := k.seq
  if q.waking && into.depth < q.st.depth then
    -- back to the state it was waking from
    let d := dropState t c (d.onSeq t c fun q => { q with chg := .descending q.st, fromOff := false, qtr := false, deferred := false, track := false })
    if k.loop.outOn && (q.fromOff || q.track) then setEnd t c none d.seq.sslew d
    else if k.loop.outOn then descend t c q.st true d
    else d.onSeq t c fun q => { q with chg := .none }
  else if !q.waking && into.depth ≤ q.st.depth then
    -- R25: it stays where it is, and an entry still waiting for its FACK is given up; R239: one that a stop has put in D, its ramp still to come, ramps now
    match q.chg with
    | .asked _ => pushState t c q.st true (dropState t c (d.onSeq t c fun q => { q with chg := .none }))
    | _ => d.on (into == .D && k.loop.outOn && q.base.isSome) (setEnd t c none d.seq.sslew)
  else
    leaveScores t c (descend t c into true (pushState t c into true (cancelSheds t c (dropState t c d))))

/-! ### Waking (R185, R186, R188) -/

/-- R239, Table 8-2: held off by a thermal shutdown of the cluster itself or of one it depends on. -/
def Dev.thmHeld (d : Dev) (t c : Nat) : Bool :=
  let x := d.tl t
  (d.cl t c).thm.hold ||
  (isLS c && [14, 15].any fun b => (d.cl t b).thm.hold) ||
  (c < 10 && [10, 11, 12, 13].any fun s => (d.cl t s).thm.hold && (x.sOfL c).contains s)

/-- R150: a window pends on the cluster. -/
def Cluster.pendWin (k : Cluster) : Bool := k.esc.wins.any fun w => !w.inForce

/-- R188, R189, R209: a wake cause may wake the cluster now. -/
def Dev.mayWake (d : Dev) (t c : Nat) (forceOk : Bool) : Bool :=
  let k := d.cl t c
  let win := k.quiet || k.pendWin
  d.live t c && !d.thmHeld t c && !d.held && d.seq.phase == 3 && (!k.bud.b1 || (win && k.bud.pmin != d.bud.bigH)) &&
    (forceOk || win || !k.seq.force)

/-- R185, R188: a wake of authority class `cls` begins. DESIGN CHOICE (log 133): a wake that reverses a ramp to off, its output still on, rises at once,
with no admission and no power-on. -/
def rouse (cls t c : Nat) (d : Dev) : Dev :=
  let k := d.cl t c
  let q := k.seq
  if q.st = .A then
    match q.chg with
    | .asked _ => pushState t c .A false (dropState t c (d.onSeq t c fun q => { q with chg := .none }))
    | _ => d
  else
    let d := cancelSheds t c (dropState t c d)
    if q.st = .B1 && k.loop.outOn then
      pushState t c .A false (d.onSeq t c fun q => { q with chg := .framed })
    else if k.loop.outOn then
      (d.onSeq t c fun q => { q with chg := .rising, fromOff := false, move := some (some q.atarget, d.seq.wslew) }).onLoop t c fun l =>
        -- R168: below code 0 no law closes the loop
        { l with entry := l.entry || decide (q.ref < 600000) }
    else
      d.onSeq t c fun q =>
        { q with chg := .waiting, fromOff := true, qtr := false, deferred := false, admitted := false, wakeAt := d.clk.now, wakeCls := cls }

/-- R185, R188: a wake cause of authority class `cls` arrives. -/
def wakeAs (cls t c : Nat) (forceOk : Bool) (d : Dev) : Dev :=
  d.on (!(d.cl t c).seq.waking && d.mayWake t c forceOk) (rouse cls t c)

/-- R188: a wake cause of a known event, a budget position or the clock manager. DESIGN CHOICE (log 64): for R191 it counts as of class 10. -/
def wake (t c : Nat) (forceOk : Bool) (d : Dev) : Dev := wakeAs 10 t c forceOk d

/-- R189: the forced state of the cluster is taken up where it may be; a wake to it is of the class of the write. -/
def takeForcedAs (cls t c : Nat) (d : Dev) : Dev :=
  let q := (d.cl t c).seq
  let want := PState.num q.fstate
  if !q.force || d.seq.phase != 3 || q.waking || (d.cl t c).quiet || d.held || d.thmHeld t c || !d.live t c then d
  else if q.heading.depth < want.depth then enter t c want d
  else if want.depth < q.heading.depth then wakeAs cls t c true d
  else d
def takeForced (t c : Nat) (d : Dev) : Dev := takeForcedAs 7 t c d

/-! ### Transitions (R177 to R182) -/

/-- R177, R290: a transition joins the waiting ones; one of class 7 to 9 takes the place of an earlier one of its class. -/
def submit (t c : Nat) (tr : Trans) (d : Dev) : Dev :=
  let n := d.seq.next
  { d.onSeq t c fun q =>
      { q with queue := (if tr.cls < 10 then q.queue.filter fun x => x.cls != tr.cls else q.queue) ++ [{ tr with no := n }] }
    with seq := { d.seq with next := n + 1 } }

/-- R174: a frequency rise. -/
def Trans.rise (tr : Trans) (atarget : Nat) : Bool :=
  match tr.kind with
  | .freqUp => true
  | .freqDown => false
  | .setpoint => tr.rid.isSome && tr.fcode != 0 && atarget ≤ tr.code

/-- R177: the waiting transition of highest class, and of first acceptance within it, among those that may start. -/
def pickTrans (p : Trans → Bool) : List Trans → Option Trans
  | [] => none
  | x :: l =>
    match pickTrans p l with
    | none => if p x then some x else none
    | some y => if p x && (x.cls < y.cls || (x.cls == y.cls && x.no < y.no)) then some x else some y

/-- DONE of the transition in progress is queued, behind its grants. -/
def queueDone (t c : Nat) (result : Nat) (d : Dev) : Dev :=
  let q := (d.cl t c).seq
  match q.cur with
  | none => d
  | some tr => pushRest t (.done tr.tnum result q.atarget c) (d.onSeq t c fun q => { q with cur := some { tr with step := 5 } })

/-- R179 steps 4 and 5, R181: the FUP, then DONE. -/
def grantUp (t c : Nat) (d : Dev) : Dev :=
  match (d.cl t c).seq.cur with
  | none => d
  | some tr =>
    queueDone t c (b2n tr.bound) (if tr.fcode = 0 then d else pushRest t (.fup tr.tnum c tr.fcode) d)

/-- R166: no movement in a state whose target is not the A-state target. -/
def Cluster.movesTarget (k : Cluster) : Bool := k.loop.outOn && (k.seq.st == .A || k.seq.st == .B1)

/-- R178, R181: transition `x` of the waiting ones is taken up. One that moves no voltage is carried out at once; one that moves it stands at step 0 until
the cluster's next sample (R22). -/
def takeOne (t c : Nat) (x : Trans) (d : Dev) : Dev :=
  let k := d.cl t c
  let q := k.seq
  let tnum := match x.rid with | some r => r | none => ownTnum t d
  let d := if x.rid.isSome then d else bumpTnum t d
  let code := match x.kind with | .setpoint => q.inSpan x.code | _ => q.atarget
  let moved := x.kind == TKind.setpoint && code != x.code
  let lim := q.flast + q.upstep
  let cut := x.fcode != 0 && q.upstep != 0 && q.flast != 0 && lim < x.fcode
  let tr : Trans := { x with code := code, fcode := if cut then lim else x.fcode, bound := moved || cut, tnum := tnum,
                             slew := if x.slew = 0 then q.cslew else x.slew, step := 5 }
  let d := d.onSeq t c fun q => { q with queue := q.queue.filter (fun y => y.no != x.no), cur := some tr, aside := q.cur }
  if !k.movesTarget then queueDone t c (b2n tr.bound) (d.onSeq t c fun q => { q with atarget := code })
  else if code != q.atarget then d.onSeq t c fun q => { q with cur := some { tr with step := 0 } }
  else match x.kind with
    | .freqDown => pushRest t (.fsync tnum c tr.fcode) (d.onSeq t c fun q => { q with cur := some { tr with step := 1 } })
    | _ => grantUp t c d

/-- R157: the FUP of the transition in progress, or a raised limit of the cluster's cores that its DONE follows, is held, and nothing else of it is left. -/
def Dev.upHeld (d : Dev) (t c : Nat) (tr : Trans) : Bool :=
  let x := d.tl t
  let mine := fun (y : Pay) => match y with | .done n _ _ b => n == tr.tnum && b == c | _ => false
  tr.step == 5 && tr.kind != .freqDown && (d.cl t c).seq.aside.isNone && x.pal.rest.any mine && (x.pal.rest.takeWhile fun y => !mine y).any fun y => match y with
    | .fup n b _ => n == tr.tnum && b == c
    | .limit k => (match x.core2 k with | some (l, s) => l == c || s == c | none => false) && d.coreHeld t k
    | _ => false

/-- R177: the waiting transition that may be taken up now; R157: beside one whose frequency-up grant is held, a frequency-down request alone. DESIGN CHOICE
(log 117): a request that UPMODE 0b01 holds does not keep a later one of its class waiting. -/
def Dev.nextTrans (d : Dev) (t c : Nat) : Option Trans :=
  let k := d.cl t c
  let q := k.seq
  let may := fun (x : Trans) => !(q.upmode == 1 && x.rise q.atarget) && !(x.cls == 10 && q.st != .A)
  if k.quiet || k.isolated || q.changing then none
  else match q.cur with
    | none => pickTrans may q.queue
    | some tr => if d.upHeld t c tr then pickTrans (fun x => may x && x.kind == .freqDown) q.queue else none

/-- R177: the next waiting transition of a cluster is taken up. -/
def takeTrans (t c : Nat) (d : Dev) : Dev := match d.nextTrans t c with | some x => takeOne t c x d | none => d

/-- R179, R180 step 1: at a sample the movement of the transition taken up begins. `m0` and `old` are what limits were made from before. -/
def beginTrans (m0 : List Host.Cell) (old : Dev) (m : List Host.Cell) (t c : Nat) (d : Dev) : Dev :=
  let k := d.cl t c
  let q := k.seq
  match q.cur with
  | none => d
  | some tr0 =>
    let tr := q.spanned tr0
    if tr.step != 0 || k.quiet || q.changing then d
    else if !k.movesTarget then queueDone t c (b2n tr.bound) (d.onSeq t c fun q => { q with atarget := tr.code })
    else if q.atarget < tr.code then
      setEnd t c (some tr.code) tr.slew (d.onSeq t c fun q => { q with atarget := tr.code, cur := some { tr with step := 3 } })
    else if tr.code < q.atarget then
      let d := bandEval t c (d.onSeq t c fun q => { q with target := some tr.code, cur := some { tr with step := 1, down := true } })
      pushRest t (.fsync tr.tnum c (if tr.cls = 10 then tr.fcode else 0)) (syncTile m0 old m t d)
    else grantUp t c (d.onSeq t c fun q => { q with cur := some tr })

/-- R177 to R181: at a sample the next waiting transition of a cluster starts. -/
def startTrans (m0 : List Host.Cell) (old : Dev) (m : List Host.Cell) (t c : Nat) (d : Dev) : Dev :=
  beginTrans m0 old m t c (takeTrans t c d)

/-- R179, R180: the transition in progress has settled. -/
def transSettled (m0 : List Host.Cell) (old : Dev) (m : List Host.Cell) (t c : Nat) (d : Dev) : Dev :=
  match (d.cl t c).seq.cur with
  | some tr =>
    if tr.step = 4 then
      if tr.down then queueDone t c (b2n tr.bound) d else
      let d := bandEval t c d
      grantUp t c (syncTile m0 old m t d)
    else d
  | none => d

/-- R177: a transition that has started ends with RESULT 0b11; the frames of it still unsent go. -/
def endStarted (t c : Nat) (d : Dev) (tr : Trans) : Dev :=
  let d := d.onPal t fun p =>
    { p with rest := p.rest.filter fun y => match y with
               | .fup n b _ => !(n == tr.tnum && b == c)
               | .fsync n b _ => !(n == tr.tnum && b == c)
               | .done n _ _ b => !(n == tr.tnum && b == c)
               | _ => true
             awaits := p.awaits.filter fun a => !(a.tnum == tr.tnum && a.c == c) }
  (pushRest t (.done tr.tnum 3 (d.cl t c).seq.atarget c) d).addTodo (.fault 5 2 (.cluster t c) (nw tr.tnum))

/-- R177: the transition in progress is preempted, and its target stays where the reference stands. -/
def preemptCur (t c : Nat) (d : Dev) : Dev :=
  let k := d.cl t c
  let q := k.seq
  match q.cur with
  | none => d
  | some tr =>
    let code := q.inSpan ((q.code - k.guardNow).toNat)
    let d := d.on (tr.kind == TKind.setpoint && q.target.isSome) fun d =>
      bandEval t c (d.onSeq t c fun q =>
        { q with atarget := code, target := some code, base := some code, endv := q.ref, movedAt := d.clk.now, move := none })
    (q.aside.toList ++ [tr]).foldl (endStarted t c) (d.onSeq t c fun q => { q with cur := none, aside := none })

/-- R177: a waiting transition of cluster `p.1` ends with RESULT 0b11. -/
def endWaiting (t : Nat) (d : Dev) (p : Nat × Trans) : Dev :=
  let c := p.1
  let n := match p.2.rid with | some r => r | none => ownTnum t d
  let d := (if p.2.rid.isSome then d else bumpTnum t d).onSeq t c fun q => { q with queue := q.queue.filter fun x => x.no != p.2.no }
  (pushRest t (.done n 3 (d.cl t c).seq.atarget c) d).addTodo (.fault 5 2 (.cluster t c) (nw n))

/-- R177: the end of the transition in progress by preemption, and of the waiting ones `ends` names. -/
def preempt (t c : Nat) (ends : Trans → Bool) (d : Dev) : Dev :=
  (((d.cl t c).seq.queue.filter ends).map fun x => (c, x)).foldl (endWaiting t) (preemptCur t c d)

def palletOnly (x : Trans) : Bool := x.rid.isSome

/-- Waiting transitions with their clusters, in order of acceptance. -/
def byNo (p : Nat × Trans) : List (Nat × Trans) → List (Nat × Trans)
  | [] => [p]
  | x :: l => if p.2.no < x.2.no then p :: x :: l else x :: byNo p l

/-- R177, R193, R224, R247: every transition of clusters `cs` of a tile ends, in progress and waiting; the waiting ones in order of acceptance. -/
def preemptAll (t : Nat) (cs : List Nat) (d : Dev) : Dev :=
  let ws := cs.flatMap fun c => (d.cl t c).seq.queue.map fun x => (c, x)
  (ws.foldr byNo []).foldl (endWaiting t) (cs.foldl (fun d c => preemptCur t c d) d)

/-- R182: no FACK came. DEDUCED (log 107): an entry begun in a deeper state ends in a wake, whose frame names A, whatever holds the cluster where it is. -/
def fackLate (t : Nat) (a : Await) (d : Dev) : Dev :=
  let c := a.c
  let d := raise 5 1 (.cluster t c) (nw a.tnum) (d.onPal t fun p => { p with awaits := p.awaits.filter fun x => x != a })
  match a.st with
  | some s =>
    let q := (d.cl t c).seq
    d.on (q.chg == .asked s && q.chgTnum == a.tnum) (rouse 10 t c)
  | none =>
    match (d.cl t c).seq.cur with
    | some tr =>
      d.on (tr.tnum == a.tnum && tr.step == 2) fun d =>
        queueDone t c 2 (bandEval t c (d.onSeq t c fun q =>
          { q with target := match q.target with | some _ => some q.atarget | none => none }))
    | none => d

/-- A FACK arrives for a frame that awaits it (R180, R181, R185). -/
def fackTaken (t : Nat) (a : Await) (d : Dev) : Dev :=
  let c := a.c
  let d := d.onPal t fun p => { p with awaits := p.awaits.filter fun x => x != a }
  match a.st with
  | some s =>
    let q := (d.cl t c).seq
    d.on (q.chg == .asked s && q.chgTnum == a.tnum) fun d => leaveScores t c (descend t c s false d)
  | none =>
    match (d.cl t c).seq.cur with
    | some tr =>
      if tr.tnum == a.tnum && tr.step == 2 then
        match tr.kind with
        | .setpoint =>
          -- a cluster that has meanwhile begun to descend, or is off, is not moved (R166)
          if (d.cl t c).movesTarget && (match (d.cl t c).seq.chg with | .descending _ => false | _ => true) then
            d.onSeq t c fun q => { q with cur := some { tr with step := 3 }, move := some (some tr.code, tr.slew) }
          else
            let tr := (d.cl t c).seq.spanned tr
            queueDone t c (b2n tr.bound) (d.onSeq t c fun q => { q with atarget := tr.code, cur := some tr })
        | _ => queueDone t c (b2n tr.bound) d
      else d
    | none => d

/-! ### Lowest state, isolation, safe state -/

/-- R25: the lowest state of a cluster. -/
def lowest (c : Nat) : PState := if isLS c then .B2 else .B1

/-- R25, R224, R247: every cluster to its lowest state, with every transition ended. -/
def lowestAll (d : Dev) : Dev :=
  d.eachT fun t d =>
    let cs := (d.tl t).clsOn.filter fun c => !(d.cl t c).isolated
    cs.foldl (fun d c => enterForced t c (lowest c) d) (preemptAll t cs d)

/-- Table 9-2: the clusters that go with one that is isolated, in order. -/
def Dev.isoList (d : Dev) (t c : Nat) : List Nat :=
  let x := d.tl t
  let on := x.clsOn
  match domOf c with
  | .L | .M => [c]
  | .S => x.lOfS c ++ [c]
  | .K => if (d.cl t c).dark then on.filter (fun b => b < 10) ++ on.filter (fun b => 10 ≤ b && b < 14) ++ c :: on.filter (fun b => 14 ≤ b && b != c)
          else on.filter (fun b => b < 10) ++ on.filter (fun b => 10 ≤ b && b < 14) ++ [c]

/-- R246, Table 9-2: an isolated K cluster that wakes or rises, and can regulate, goes on to its target in B1; what starts it no more is the start
profile, nor a wake to A. -/
def holdInB1 (t c : Nat) (d : Dev) : Dev :=
  let d := dropState t c (d.onSeq t c fun q => { q with track := false, chg := if q.chg = .framed then .none else q.chg })
  d.on (d.cl t c).loop.outOn fun d => pushState t c .B1 true (d.onSeq t c fun q => { q with st := .B1 })

/-- R246, Table 9-2: what the isolation of a cluster does to its state: a K cluster to B1 while the tile's router has its feed, any other to D, of which
an L or M cluster is told whatever its state. -/
def isolateState (t c : Nat) (newly : Bool) (d : Dev) : Dev :=
  let q := (d.cl t c).seq
  if domOf c == .K && !(d.tl t).noFeed then
    if q.waking then d.on newly (holdInB1 t c) else enterForced t c .B1 d
  else enterForced t c .D (d.on (newly && domOf c != .S && q.st == .D && !q.waking) (pushState t c .D true))

/-- R246: one cluster isolated. Its ladder goes with it. -/
def isolateOne (t c : Nat) (d : Dev) : Dev :=
  let k := d.cl t c
  if !k.present then d
  else
    let d := if k.isolated then d else
      let d := preempt t c palletOnly d
      let d := d.onC t c fun k => { k with isolated := true, esc := { k.esc with wins := [], guardOn := false, nextTok := none },
                                           seq := { k.seq with queue := [], held := [] }, bud := { k.bud with ladder := {} } }
      let d := d.onTEsc t fun e =>
        Esc.tidy { e with edges := e.edges.map fun g => { g with mask := g.mask.filter (· != c), all := g.all.filter (· != c)
                                                                 applied := g.applied.filter fun a => a.1 != c } } d.clk.now
      let d := trustRelease t d
      d.onFlt fun f => { f with gen := (f.gen + 1) % 65536, isoTile := t, isoCluster := c }
    isolateState t c (!k.isolated) (guardMoves t c d)

/-- R246, Table 9-2: a cluster is isolated with those that depend on it. -/
def isolate (t c : Nat) (d : Dev) : Dev :=
  let d := if domOf c == .K && (d.cl t c).dark then d.onT t fun x => { x with noFeed := true } else d
  (d.isoList t c).foldl (fun d b => isolateOne t b d) d

/-- R247: safe state is entered. -/
def enterSafe (sub src : Nat) (d : Dev) : Dev :=
  if d.flt.safe then d
  else lowestAll (d.onFlt fun f => { f with safe := true, safeSub := sub, safeSrc := src })

/-- R255: a cluster with five lost regulators goes dark. -/
def darkCheck (t c : Nat) (d : Dev) : Dev :=
  let k := d.cl t c
  d.on (5 ≤ k.nLost && !k.dark) fun d =>
    (raiseCell 16 t c none none (d.onC t c fun k => { k with dark := true })).addTodo (.isolate t c)

/-! ### START and STOP (R192 to R194) -/

/-- The clusters a start or stop moves. -/
def Dev.movable (d : Dev) : List (Nat × Nat) := d.allC.filter fun p => !(d.cl p.1 p.2).isolated

/-- R192: the lead L cluster of a tile. -/
def Tile.lead (x : Tile) : Option Nat :=
  (List.range 10).find? fun c => let k := x.clusters.getD c {}; k.present && !k.isolated && !k.dark

def Dev.eachMov (d : Dev) (f : Nat → Nat → Dev → Dev) : Dev := d.movable.foldl (fun e p => f p.1 p.2 e) d

/-- R192: the rails are started. -/
def startRails (d : Dev) : Dev :=
  let d := { d with seq := { d.seq with phase := 1, railsGood := false, limitsOut := false } }
  d.eachMov fun t c d => d.on (!d.thmHeld t c) fun d =>
    cancelSheds t c (d.onSeq t c fun q => { q with chg := .bootstrap, track := true, fromOff := true, qtr := false, wakeAt := d.clk.now })

/-- R192: the clusters that the start still brings up. -/
def Dev.starting (d : Dev) : List (Nat × Nat) := d.movable.filter fun p => (d.cl p.1 p.2).seq.track

/-- R192 step 4: M clusters that have bootstrapped ramp. -/
def beginM (d : Dev) : Dev :=
  (d.starting.filter fun p => domOf p.2 == .M && (d.cl p.1 p.2).seq.chg == .waiting).foldl (fun d p => beginRamp p.1 p.2 d) d

/-- R192 step 5: the limit of every core of every tile is queued. -/
def sendAll (m0 : List Host.Cell) (old : Dev) (m : List Host.Cell) (d : Dev) : Dev :=
  d.tilesOn.foldl (fun d t => d.onPal t fun p => (d.tl t).cores.foldl (fun p k => p.putLimit k (limNow m0 old t k) (limNow m d t k)) p) d

/-- R192 steps 4 and 5: link good, and every cluster settled. -/
def startProgress (m0 : List Host.Cell) (old : Dev) (m : List Host.Cell) (d : Dev) : Dev :=
  let done := fun (p : Nat × Nat) => let q := (d.cl p.1 p.2).seq; q.chg == .settling && 8 ≤ q.settled
  let ks := d.starting.filter fun p => domOf p.2 == .K
  let d := if d.seq.phase = 1 && ks.all (fun p => done p && (d.cl p.1 p.2).loop.pgood) then
      beginM { d with seq := { d.seq with phase := 2 } } else d
  if d.seq.phase = 2 && !d.seq.limitsOut && !d.starting.isEmpty && d.starting.all done then
    let ps := d.starting
    let d := ps.foldl (fun d p => bandEval p.1 p.2 (d.onSeq p.1 p.2 fun q => { q with chg := .framed })) d
    let d := sendAll m0 old m { d with seq := { d.seq with limitsOut := true } }
    ps.foldl (fun d p => pushState p.1 p.2 .A false d) d
  else d

/-- R192 step 5: the last STATE frame naming A has gone, or the last cluster that waited for one is no longer started; R188: forced states recorded in
another phase are taken up. -/
def startDone (d : Dev) : Dev :=
  d.on (d.seq.phase == 2 && d.seq.limitsOut && d.starting.isEmpty) fun d =>
    Dev.eachC (f := takeForced)
    { d with seq := { d.seq with phase := 3, railsGood := true }
             -- Table 14-7: BOOTMS, at the first RAILSGOOD after cold reset
             boot := { d.boot with bootms := if d.boot.railsSeen then d.boot.bootms else d.clk.ms, railsSeen := true } }

/-- R192: no cluster is left to bring up, since those that were have been isolated or shut down: the start is over, or has come to nothing. DESIGN CHOICE
(log 132): one that comes to nothing leaves PHASE 0. -/
def startLeft (d : Dev) : Dev :=
  if (d.seq.phase = 1 || d.seq.phase = 2) && d.starting.isEmpty then
    if d.seq.limitsOut then startDone d else { d with seq := { d.seq with phase := 0 } }
  else d

/-- R193 step 3: L, S and K descend together once every M cluster is at 0 V. -/
def stopLSK (d : Dev) : Dev :=
  if d.seq.phase = 4 && d.movable.all (fun p => domOf p.2 != .M || !(d.cl p.1 p.2).loop.outOn) then
    let d := { d with seq := { d.seq with phase := 5 } }
    d.eachMov fun t c d => d.on (domOf c != .M && (d.cl t c).loop.outOn) fun d =>
      setEnd t c none d.seq.sslew (d.onSeq t c fun q => { q with track := true, ref0 := q.ref, chg := .descending .D })
  else d

/-- R193 step 4: every output is off. -/
def stopDone (d : Dev) : Dev :=
  d.on (d.seq.phase == 5 && d.movable.all (fun p => !(d.cl p.1 p.2).loop.outOn)) fun d =>
    { d with seq := { d.seq with phase := 0 } }

/-- R193: the rails are stopped. -/
def stopRails (d : Dev) : Dev :=
  let d := { d with seq := { d.seq with phase := 4, railsGood := false } }
  let d := d.eachT fun t d => preemptAll t ((d.tl t).clsOn.filter fun c => !(d.cl t c).isolated) d
  let d := d.eachMov fun t c d =>
    let d := leaveScores t c (pushState t c .D true (dropState t c (cancelSheds t c d)))
    let d := d.onSeq t c fun q => { q with st := .D, chg := if (d.cl t c).loop.outOn then .descending .D else .none, move := none,
                                           fromOff := false, qtr := false, track := false }
    d.on (domOf c == .M && (d.cl t c).loop.outOn) (setEnd t c none d.seq.sslew)
  stopDone (stopLSK d)

/-! ### The work list -/

/-- One item of the work list. -/
def runTodo (x : Todo) (d : Dev) : Dev :=
  match x with
  | .fault sub src sc d0 => raise sub src sc d0 d
  | .isolate t c => isolate t c d
  | .safe sub src => enterSafe sub src d

/-- The work list emptied, item by item. -/
def runTodos : Nat → Dev → Dev
  | 0, d => d.onFlt fun f => { f with todo := [] }
  | n + 1, d =>
    match d.flt.todo with
    | [] => d
    | x :: l => runTodos n (runTodo x (d.onFlt fun f => { f with todo := l }))

/-- R280: event QWIN where a quiet window came into force or ended on a cluster of the tile, event TRACE where the tile's buffer reached DONE. -/
def edgeEvents (old d : Dev) : Dev :=
  d.tilesOn.foldl (fun e t =>
    let a := old.tl t
    let b := d.tl t
    let e := e.on (a.clusters.map Cluster.quiet != b.clusters.map Cluster.quiet) (ev (.rafter t) 11)
    e.on (a.trace.st != 3 && b.trace.st == 3) fun e => ev .ridge 12 (ev (.rafter t) 12 e)) d

/-- The work list and the records offered (R346), in turn, until neither is left. -/
def closing : Nat → Dev → Dev
  | 0, d => (runTodos 100000 d).onLog fun l => { l with offers := none }
  | n + 1, d =>
    let d := runTodos 100000 d
    if d.log.offers.isNone then d else closing n (takeOffers d)

/-- What closes every command: the work list and the records, the events that it made, then the limits that have changed (R161). -/
def settle (m0 : List Host.Cell) (old : Dev) (m : List Host.Cell) (d : Dev) : Dev :=
  syncAll m0 old m (edgeEvents old (closing 8 d))

/-- The outcome of a command that leaves memory `m` and block `d`. -/
def finM (s : State) (m : List Host.Cell) (d : Dev) : Host.Outcome State Fault Refusal :=
  .next { dev := settle s.mem s.dev m d, mem := m, pending := s.pending }

/-- The outcome of a command that leaves memory as it is. -/
def fin (s : State) (d : Dev) : Host.Outcome State Fault Refusal := finM s s.mem d

end Sys2Proof.Machine
end

