-- ==== Sys2Proof/Machine/Pallet.lean ====
section
/-!
DEFINITION. Sys2Proof/Machine/Pallet.lean: the Pallet port (R170 to R176, R182, R183) and the commands of power-ons (R185, R190, R191).
-/
namespace Sys2Proof.Machine

/-! ### Requests (R171, R174) -/

/-- R171: the frame is malformed. -/
def malformed (w : Word) : Bool :=
  let ty := fld w 31 29
  let c := fld w 22 18
  if ty = 0 then w != 0
  else if ty = 1 then 14 ≤ c && c < 18 && fld w 7 0 != 0
  else if ty = 2 then fld w 17 9 != 0 || fld w 7 0 == 0
  else if ty = 3 then fld w 20 0 != 0
  else if ty = 4 then fld w 28 23 != 0 || fld w 17 10 != 0 || 10 ≤ c
  else false

/-- The request of an OPREQ or FREQ frame. -/
def frameTrans (w : Word) : Trans :=
  if fld w 31 29 = 1 then
    { cls := 10, kind := .setpoint, code := fld w 17 8, fcode := fld w 7 0, rid := some (fld w 28 23) }
  else { cls := 10, kind := if tst w 8 then .freqUp else .freqDown, fcode := fld w 7 0, rid := some (fld w 28 23) }

/-- R174: requests waiting of a cluster, and of a tile. -/
def ClSeq.reqs (q : ClSeq) : Nat := q.queue.countP (·.rid.isSome)
def Tile.reqs (x : Tile) : Nat := (x.clusters.map (·.seq.reqs)).foldl (· + ·) 0

/-- R174, Table 6-4: the receipt of a request frame. -/
def receipt (t : Nat) (w : Word) (d : Dev) : Nat :=
  let ty := fld w 31 29
  let c := fld w 22 18
  let k := d.cl t c
  let tr := frameTrans w
  let op := ty == 1 || ty == 2
  if w = 0 then 0xF
  else if 5 ≤ ty then 9
  else if malformed w then 1
  else if (op || ty == 4) && !d.live t c then 3
  else if ty = 1 ∧ ¬ (codeLo (domOf c) ≤ tr.code ∧ tr.code ≤ codeHi (domOf c)) then 1
  else if ty = 3 ∧ ¬ (d.tl t).pal.awaits.any (fun a => a.tnum == fld w 28 21) then 2
  else if op ∧ (k.seq.st = .D ∨ (tr.rise k.seq.atarget ∧ k.seq.upmode = 2)) then 2
  else if op ∧ d.held ∧ (tr.rise k.seq.atarget ∨ (tr.kind = .setpoint ∧ k.seq.atarget < tr.code)) then 7
  else if op ∧ (4 ≤ k.seq.reqs ∨ 16 ≤ (d.tl t).reqs) then 8
  else 0

/-- R176, R196: a monitor reading lowers its minimum. -/
def cpmTake (t : Nat) (w : Word) (d : Dev) : Dev :=
  d.onT t fun x => { x with cpm := x.cpm.modify (fld w 22 18) fun l => l.modify (fld w 9 8) fun v => min v (sgn 8 (fld w 7 0)) }

/-- A frame on the request line: its receipt for the return slot, and its effect where the receipt is OK. -/
def palRequest (t : Nat) (w : Word) (d : Dev) : Dev :=
  if !d.hasT t then d
  else
    let r := receipt t w d
    let d := d.onPal t fun p => { p with rcpt := r % 16 }
    if r = 0xF then d
    else if r = 0 then
      let c := fld w 22 18
      match fld w 31 29 with
      | 3 =>
        match (d.tl t).pal.awaits.find? (fun a => a.tnum == fld w 28 21) with
        | some a => fackTaken t a d
        | none => d
      | 4 => cpmTake t w d
      | _ => wake t c false (submit t c (frameTrans w) d)
    else
      raise 5 0 (.tile t) 0 { d with seq := { d.seq with rej := incSat 0xFFFF d.seq.rej } }

/-! ### Return slots (R172, R183) -/

/-- The core's limit is queued and may go now. -/
def Dev.maySend (d : Dev) (t k : Nat) : Bool :=
  let p := (d.tl t).pal
  p.queued k && (if p.lowered.contains k then d.lowNow t k else !d.coreHeld t k)

/-- A queued limit has gone out, as `v`; where a window holds the rest of it back, it stays queued. -/
def Pallet.gone (p : Pallet) (k v : Nat) : Pallet :=
  if assocGet p.value k = some v then
    { p with value := p.value.filter fun y => y.1 != k
             lowered := p.lowered.filter (· != k)
             rest := p.rest.filter fun y => y != .limit k
             sent := assocSet p.sent k v }
  else { p with sent := assocSet p.sent k v }

/-- R183: one place of a LIMNEXT: its code, and the port after it. -/
def place (m : List Host.Cell) (t k : Nat) (d : Dev) : Nat × Dev :=
  let p := (d.tl t).pal
  if 10752 ≤ k then (0, d)
  else if d.maySend t k then
    let v := d.sendable t k
    (v, d.onPal t fun p => p.gone k v)
  else ((assocGet p.sent k).getD (limNow m d t k), d)

/-- R183: a limit run starts, or a lone LIMIT goes, at core `k`. -/
def startRun (t k : Nat) (d : Dev) : Word × Dev :=
  let p := (d.tl t).pal
  let v := d.sendable t k
  let low := p.lowered.contains k
  let more := [k + 1, k + 2, k + 3].any fun j => d.maySend t j
  (word [(if more then 2 else 1, 28), (k, 14), (v, 4)],
   d.onPal t fun p => { p.gone k v with ptr := if more then some (k + 1) else none, ptrLow := low })

/-- The cores of cluster `c` have raised limits ahead in the queue. -/
def limitAhead (x : Tile) (c : Nat) (ahead : List Pay) : Bool :=
  ahead.any fun y => match y with
    | .limit k => (match x.core2 k with | some (l, s) => l == c || s == c | none => false)
    | _ => false

/-- R192 step 5: a core's limit still waits to be sent. -/
def Dev.limitsLeft (d : Dev) : Bool := d.tilesOn.any fun t => !(d.tl t).pal.value.isEmpty

/-- A payload may go, with `ahead` still in front of it. A frequency-down request's DONE waits for no raised limit (R157, R181). -/
def Dev.eligible (d : Dev) (t : Nat) (ahead : List Pay) (y : Pay) : Bool :=
  match y with
  | .limit k => !d.coreHeld t k
  | .fsync _ c f => !d.clusterQuiet t c || (f == 0 && !((d.tl t).coresOf c).any fun k => (d.tl t).pal.lowered.contains k)
  | .fup _ c _ => !d.clusterHeld t c && !limitAhead (d.tl t) c ahead
  | .done n r _ c => r == 3 || ((!limitAhead (d.tl t) c ahead || (d.cl t c).seq.cur.any fun tr => tr.tnum == n && tr.kind == .freqDown) &&
      !ahead.any fun z => match z with | .fup n' c' _ => n' == n && c' == c | .fsync n' c' _ => n' == n && c' == c | _ => false)
  | .state _ c st => !(st == .A && (d.cl t c).seq.fromOff && limitAhead (d.tl t) c ahead) && !(st == .A && (d.cl t c).seq.track && d.limitsLeft)

/-- The first payload that may go. -/
def firstPay (d : Dev) (t : Nat) (ahead : List Pay) : List Pay → Option Pay
  | [] => none
  | y :: l => if d.eligible t ahead y then some y else firstPay d t (ahead ++ [y]) l

def stateWord (tnum c : Nat) (st : PState) (forced : Bool) : Word :=
  word [(7, 28), (tnum, 20), (c, 15), (st.depth, 12), (b2n forced, 4)]

/-- R185: a STATE frame naming A has gone: the cluster is in A. -/
def nowA (t c : Nat) (d : Dev) : Dev :=
  d.on ((d.cl t c).seq.chg == .framed) fun d =>
    let tracked := (d.cl t c).seq.track
    let d := leaveScores t c (d.onSeq t c fun q =>
      { q with st := .A, chg := .none, fromOff := false, qtr := false, deferred := false, admitted := false, track := false, chosen := false })
    -- R151: a guard that waited for the start profile rises now
    startDone (takeForced t c (d.on tracked (moveGuard t c)))

/-- A payload other than a limit is sent: its frame and its effect. -/
def sendPay (t : Nat) (y : Pay) (d : Dev) : Word × Dev :=
  let d := d.onPal t fun p => { p with rest := p.rest.filter fun z => z != y }
  match y with
  | .limit _ => (0, d)
  | .fsync n c f =>
    (word [(4, 28), (n, 20), (c, 15), (f, 4)],
     (d.onPal t fun p => { p with awaits := p.awaits ++ [{ tnum := n, c := c, st := none, sent := d.clk.now }] }).onSeq t c fun q =>
       { q with flast := if f = 0 then q.flast else f
                cur := match q.cur with | some tr => some (if tr.tnum = n then { tr with step := 2 } else tr) | none => none })
  | .fup n c f => (word [(5, 28), (n, 20), (c, 15), (f, 4)], d.onSeq t c fun q => { q with flast := if f = 0 then q.flast else f })
  | .done n r v c =>
    (word [(6, 28), (n, 20), (r, 18), (v, 8)],
     { d.onSeq t c fun q =>
         -- R157: what was carried out beside a held grant is over, and the transition with that grant is the one in progress
         let aside := q.aside.filter fun tr => tr.tnum != n
         match q.cur.filter fun tr => !(tr.tnum == n && tr.step == 5) with
         | some tr => { q with cur := some tr, aside := aside }
         | none => { q with cur := aside, aside := none }
       with seq := { d.seq with trans := incSat 0xFFFF d.seq.trans } })
  | .state n c st =>
    (stateWord n c st false,
     if st = .A then nowA t c d
     else d.onPal t fun p => { p with awaits := p.awaits ++ [{ tnum := n, c := c, st := some st, sent := d.clk.now }] })

/-- The least element of a list of cores. R183: so the next run is chosen among the cores that are queued. DESIGN CHOICE (log 119): the least of all, whatever
its place in the order of the limits that wait. -/
def leastOf : List Nat → Option Nat
  | [] => none
  | k :: l => some (l.foldl min k)

/-- R183: the payload of a return slot. -/
def payload (m : List Host.Cell) (t : Nat) (d : Dev) : Word × Dev :=
  let p := (d.tl t).pal
  let next := fun (d : Dev) =>
    let d := d.onPal t fun p => { p with ptr := none }
    match leastOf ((d.tl t).pal.lowered.filter (d.lowNow t)) with
    | some k => startRun t k d
    | none =>
      match firstPay d t [] (d.tl t).pal.rest with
      | some (.limit _) =>
        match leastOf ((d.tl t).pal.value.filterMap fun y => if d.maySend t y.1 then some y.1 else none) with
        | some k => startRun t k d
        | none => (0, d)
      | some y => sendPay t y d
      | none => (0, d)
  match p.forced with
  | .state n c st :: l => (stateWord n c st true, d.onPal t fun p => { p with forced := l, ptr := none })
  | _ :: l => (0, d.onPal t fun p => { p with forced := l })
  | [] =>
    match p.ptr with
    | some k =>
      if [k, k + 1, k + 2].any fun j => d.maySend t j then
        let a := place m t k d
        let b := place m t (k + 1) a.2
        let c := place m t (k + 2) b.2
        (word [(3, 28), (a.1, 20), (b.1, 12), (c.1, 4)], c.2.onPal t fun p => { p with ptr := some (k + 3) })
      else next d
    | none => next d

/-- R170, R172, R183: one return slot of a tile. -/
def returnSlot (m : List Host.Cell) (t : Nat) (d : Dev) : Dev :=
  d.on (d.hasT t) fun d =>
    let r := payload m t d
    r.2.onPal t fun p => { p with out := r.1 ||| nw p.rcpt, rcpt := 0xF }

/-! ### Power-ons (R190, R191) -/

/-- R190: the neighbours of a cluster. -/
def Dev.neighbours (d : Dev) (t c : Nat) : List (Nat × Nat) :=
  match (d.cl t c).thm.adj with
  | some l => l.filter fun p => d.hasC p.1 p.2
  | none => ((d.tl t).clsOn.filter (· != c)).map fun b => (t, b)

/-- R190: a neighbour is hot. DESIGN CHOICE (log 134): one with no surviving capacity is not. -/
def Dev.hotNear (d : Dev) (t c : Nat) : Bool :=
  (d.neighbours t c).any fun p =>
    let k := d.cl p.1 p.2
    decide ((d.seq.hot * k.survive : Nat) ≤ 100 * k.fus.icl) && 0 < k.survive

/-- R191: clusters of the tile that ramp from off. -/
def Tile.ramping (x : Tile) : Nat :=
  x.clusters.countP fun k => k.seq.fromOff && !k.seq.track && (match k.seq.chg with | .powering | .bootstrap | .rising => true | _ => false)

/-- R186: the S clusters of an L cluster are power-good. -/
def Dev.sReady (d : Dev) (t c : Nat) : Bool :=
  domOf c != .L || ((d.tl t).sOfL c).all fun s => let k := d.cl t s; (k.loop.outOn && k.loop.pgood) || !d.live t s

/-- R186: an L cluster that wakes from B3 or D wakes its S clusters from D first. -/
def wakeS (t c : Nat) (d : Dev) : Dev :=
  d.on (domOf c == .L) fun d =>
    ((d.tl t).sOfL c).foldl (fun d s => d.on ((d.cl t s).seq.st == .D) (wake t s false)) d

/-- R190: the power-on begins, at quarter slope where DEFER has passed. -/
def powerOn (t c : Nat) (qtr : Bool) (d : Dev) : Dev :=
  let d := (d.onSeq t c fun q => { q with chg := if q.st = .D then .powering else .bootstrap, qtr := qtr }).onT t fun x => { x with admPtr := (c + 1) % 18 }
  d.on qtr (raise 5 4 (.cluster t c) 0)

/-- R191, R29: power-on `b` comes before `c`: by wake decision, then by class, then from the rotating pointer on. -/
def Tile.wakesFirst (x : Tile) (b c : Nat) : Bool :=
  let p := (x.clusters.getD b {}).seq
  let q := (x.clusters.getD c {}).seq
  let turn := fun (n : Nat) => (n + 18 - x.admPtr) % 18
  decide (p.wakeAt < q.wakeAt) ||
    (p.wakeAt == q.wakeAt && (decide (p.wakeCls < q.wakeCls) || (p.wakeCls == q.wakeCls && decide (turn b ≤ turn c))))

/-- R190, R191: the waiting power-ons of a tile, in their order. -/
def Tile.waiting (x : Tile) : List Nat :=
  let ws := idxs (fun k : Cluster => k.seq.chg == .waiting && !k.seq.track) 0 x.clusters
  ws.foldl (fun acc c => acc.takeWhile (fun b => x.wakesFirst b c) ++ c :: acc.dropWhile fun b => x.wakesFirst b c) []

/-- R190: one admission check of one waiting cluster. One that a check has let begin, and whose S clusters are still awaited (R186), stays let in: R190
bars it no further, and its slope stays full (DEDUCED, log 106). -/
def admitOne (t c : Nat) (d : Dev) : Dev :=
  let d := wakeS t c d
  let q := (d.cl t c).seq
  let hot := d.hotNear t c
  let d := d.on (hot && !q.deferred && !q.qtr && !q.admitted) fun d =>
    raise 5 3 (.cluster t c) 0 (d.onSeq t c fun q => { q with deferred := true })
  let d := d.on (!hot && !d.sReady t c) fun d => d.onSeq t c fun q => { q with admitted := true }
  d.on ((q.qtr || q.admitted || !hot) && d.sReady t c && (d.tl t).ramping < d.seq.maxon) (powerOn t c q.qtr)

/-- R190: the admission checks of an outer boundary. -/
def admission (t : Nat) (d : Dev) : Dev := ((d.tl t).waiting).foldl (fun d c => admitOne t c d) d

/-! ### Meanings -/

/-- OPREQ (R171, R174, R177). -/
def execOpreq (t : Nat) (w : Word) (s : State) : Host.Outcome State Fault Refusal := fin s (palRequest t w s.dev)

/-- FREQ (R171, R174, R181). -/
def execFreq (t : Nat) (w : Word) (s : State) : Host.Outcome State Fault Refusal := fin s (palRequest t w s.dev)

/-- FACK (R171, R174, R180, R185). -/
def execFack (t : Nat) (w : Word) (s : State) : Host.Outcome State Fault Refusal := fin s (palRequest t w s.dev)

/-- CPM (R171, R176). -/
def execCpm (t : Nat) (w : Word) (s : State) : Host.Outcome State Fault Refusal := fin s (palRequest t w s.dev)

/-- A malformed or reserved request frame (R171, R174): receipted, and nothing else. -/
def execMalformedRequestFrame (t : Nat) (w : Word) (s : State) : Host.Outcome State Fault Refusal := fin s (palRequest t w s.dev)

/-- RETURN_SLOT (R183). -/
def execReturnSlot (t : Nat) (s : State) : Host.Outcome State Fault Refusal := fin s (returnSlot s.mem t s.dev)

/-- FACK_TIMEOUT (R182). -/
def execFackTimeout (t tnum ns : Nat) (s : State) : Host.Outcome State Fault Refusal :=
  let d := s.dev.at ns
  fin s (match (d.tl t).pal.awaits.find? fun a => a.tnum == tnum && a.sent + 1000 * d.seq.fackto ≤ ns with
    | some a => fackLate t a d
    | none => d)

/-- ADMISSION_DEFER_EXPIRY (R190). -/
def execAdmissionDeferExpiry (t c ns : Nat) (s : State) : Host.Outcome State Fault Refusal :=
  let d := s.dev.at ns
  let q := (d.cl t c).seq
  fin s (d.on (q.chg == .waiting && !q.track && !q.qtr && !(q.admitted && !d.sReady t c) && q.wakeAt + 1000 * d.seq.defer ≤ ns) fun d =>
    admitOne t c (d.onSeq t c fun q => { q with qtr := true }))

/-- BOOTSTRAP_COMPLETE (R192 step 1, Table 6-8): the ramp from 0 V begins; an M cluster of a start waits for link good. -/
def execBootstrapComplete (t c : Nat) (s : State) : Host.Outcome State Fault Refusal :=
  let d := s.dev
  let q := (d.cl t c).seq
  fin s (d.on (q.chg == .bootstrap) fun d =>
    if q.track && domOf c == .M && d.seq.phase == 1 then d.onSeq t c fun q => { q with chg := .waiting } else beginRamp t c d)

/-- CELL_POWER_UP_COMPLETE (R186, Table 6-8): the cells of a cluster that wakes from D are powered and calibrated. -/
def execCellPowerUpComplete (t c : Nat) (s : State) : Host.Outcome State Fault Refusal :=
  fin s (s.dev.on ((s.dev.cl t c).seq.chg == .powering) fun d => d.onSeq t c fun q => { q with chg := .bootstrap })

end Sys2Proof.Machine
end

