-- ==== Sys2Proof/Machine/Escapement.lean ====
section
/-!
DEFINITION. Sys2Proof/Machine/Escapement.lean: tokens, forecast edges, scoring and trust, quiet windows (chapter 5).
-/
namespace Sys2Proof.Machine

def Esc.ffen (e : Esc) : Bool := tst e.cfgE 0
def Esc.scoren (e : Esc) : Bool := tst e.cfgE 1
def Esc.tfix (e : Esc) : Bool := tst e.cfgE 2
def Esc.tinit (e : Esc) : Nat := fld e.cfgE 20 16
def Esc.tfixv (e : Esc) : Nat := fld e.cfgE 25 21
def Esc.gap (e : Esc) : Nat := fld e.qwcfgE 13 8
def Esc.guardCodes (e : Esc) : Nat := fld e.qwcfgE 5 0

/-! ### Next known event (R162, R188) -/

/-- R162: the next known event of a cluster, ns. DESIGN CHOICE (log 135): e − now runs from the instant itself, also between ticks. -/
def Dev.nextEvent (d : Dev) (t c : Nat) : Option Nat :=
  let k := d.cl t c
  let tok := match k.esc.nextTok with | some n => if d.clk.tick ≤ n then [1000 * n] else [] | none => []
  let e := (d.tl t).esc
  -- an edge that has injected stays known until the tick of its instant
  let edges := ((e.edges ++ e.past).filter fun g => !g.isEnd && g.dq.any (0 < ·) &&
    (g.mask.contains c || (g.all.contains c && decide (d.clk.now ≤ (g.ns + 999) / 1000 * 1000)))).map (·.ns)
  let wins := (k.esc.wins.filter fun w => !w.inForce).map fun w => 1000 * w.w
  match tok ++ edges ++ wins with
  | [] => none
  | x :: l => some (l.foldl min x)

/-- R188: wake allowance of a state, ns. -/
def SeqDev.wk (q : SeqDev) (st : PState) : Nat :=
  100 * match st with | .A => 0 | .B1 => fld q.wk01 15 0 | .B2 => fld q.wk01 31 16 | .B3 => fld q.wk23 15 0 | .D => fld q.wk23 31 16

/-- R188: the next known event has come nearer than the wake allowance. -/
def eventMoved (t c : Nat) (d : Dev) : Dev :=
  let q := (d.cl t c).seq
  match d.nextEvent t c with
  | some e => d.on (q.heading != .A && e < d.clk.now + d.seq.wk q.heading) (wake t c false)
  | none => d

/-! ### Hint port (R139, R140) -/

/-- Table 5-1: words of a token. -/
def tokenLen (w : Word) : Nat :=
  match fld w 31 28 with | 1 => 3 | 3 => 2 | 4 => 2 | _ => 1

/-- A token dropped and counted. -/
def Esc.drop (e : Esc) : Esc := { e with dropped := incSat 0xFFFF e.dropped }

/-- R140: a word on the hint port. -/
def hintWord (t : Nat) (w : Word) (ns : Nat) (d : Dev) : Dev :=
  let e := (d.tl t).esc
  if !d.hasT t then d
  else if 0 < e.discard then d.onTEsc t fun e => { e with discard := e.discard - 1 }
  else
    let n := e.fifo.length
    let first := if e.partialN = 0 then w else (e.fifo.getD (n - e.partialN) ⟨w, ns, 0⟩).w
    let len := tokenLen first
    if 64 ≤ n then
      raise 4 2 (.tile t) first (d.onTEsc t fun e =>
        { e.drop with
          fifo := e.fifo.take (n - e.partialN) ++ (e.fifo.drop (n - e.partialN)).map fun x => { x with dead := e.partialN }
          discard := len - e.partialN - 1, partialN := 0 })
    else d.onTEsc t fun e =>
      { e with fifo := e.fifo ++ [⟨w, ns, 0⟩], partialN := if e.partialN + 1 = len then 0 else e.partialN + 1 }

/-! ### Tokens -/

/-- Clusters that a mask's bits name, from bit `lo`, that are live. -/
def Dev.masked (d : Dev) (t : Nat) (w : Word) (lo n : Nat) : List Nat :=
  (List.range n).filter fun c => tst w (lo + c) && d.live t c

/-- Table 5-2: the token's fields are within their values. DESIGN CHOICE (log 129): SLACK takes every value of its 16 bits, 0x8000 too. -/
def tokenOk (l : List Word) : Bool :=
  match l with
  | [w] =>
    if fld w 31 28 = 2 then
      fld w 27 14 != 0 && fld w 13 11 == 0 && 1 ≤ fld w 10 8 && fld w 10 8 ≤ 4 && fld w 7 6 == 0 && 1 ≤ fld w 5 0 && fld w 5 0 ≤ 50
    else fld w 27 14 != 0 && fld w 7 1 == 0
  | [w, v] =>
    if fld w 31 28 = 3 then fld w 21 16 == 0 && fld v 31 24 == 0
    else fld w 27 10 != 0 && fld w 9 0 == 0 && fld v 31 24 == 0 && fld v 23 0 != 0
  | [w, _, u] => fld w 27 14 != 0 && fld w 7 0 ≤ 250 && fld u 31 16 == 0
  | _ => false

/-- R142: an accepted hint makes its edges. -/
def hintEdges (t : Nat) (w v u : Word) (anchor ns : Nat) (d : Dev) : Dev :=
  let mask := d.masked t w 14 14
  let dur := fld u 15 0
  let e := (d.tl t).esc
  let need := if dur = 0 then 1 else 2
  if 32 < e.edges.length + need then
    raise 4 3 (.tile t) w (d.onTEsc t Esc.drop)
  else
    let dq := [sgn 8 (fld v 7 0), sgn 8 (fld v 15 8), sgn 8 (fld v 23 16), sgn 8 (fld v 31 24)]
    let at' := anchor + 16 * fld w 7 0
    let a : Edge := { id := e.nextId, hint := e.nextId, tag := fld w 13 8, isEnd := false, ns := at', sched := ns, dq := dq, mask := mask, all := mask }
    let b : Edge := { a with id := e.nextId + 1, isEnd := true, ns := at' + 16 * dur, dq := dq.map (- ·) }
    let d := d.onTEsc t fun e =>
      { e with edges := e.edges ++ (if dur = 0 then [a] else [a, b]), nextId := e.nextId + 2
               tokens := incSat 0xFFFF e.tokens, ev := setBit e.ev 0 }
    let up := dq.any (0 < ·)
    mask.foldl (fun d c => trcEvent t c 7 (d.on up fun d => eventMoved t c (cancelSheds t c d))) d

/-- R152: a cluster's window from a marker: extended, moved or opened. DESIGN CHOICE (log 114): a marker that reaches two windows extends the one found
first, up to the later window's start, with no gap kept and no QWTRUNC. DESIGN CHOICE (log 115): the guard is the one in force when the first of the
windows standing was made pending. -/
def markCluster (t c w0 e0 : Nat) (d : Dev) : Dev :=
  let k := d.cl t c
  let x := (d.tl t).esc
  match k.esc.wins.find? fun v => w0 ≤ v.e with
  | some v =>
    let want := max v.e e0
    let cut := min want (v.w + 50)
    let later := (k.esc.wins.filter fun u => v.w < u.w).map (·.w)
    let e1 := later.foldl min cut
    let d := d.onEsc t c fun z => { z with wins := z.wins.map (fun u => if u = v then { u with e := max v.e e1 } else u)
                                           lastEnd := some (max (z.lastEnd.getD 0) (max v.e e1)) }
    d.on (v.w + 50 < want) (raise 4 6 (.tile t) 0)
  | none =>
    let gapEnd := match k.esc.lastEnd with | some e => e + x.gap | none => 0
    let w1 := max w0 gapEnd
    let d := d.on (w0 < gapEnd) (raise 4 7 (.tile t) 0)
    if e0 ≤ w1 then d
    else
      let fresh := k.esc.wins.isEmpty
      let d := d.onEsc t c fun z =>
        { z with wins := z.wins ++ [{ w := w1, e := e0 }], lastEnd := some e0
                 guardOn := true, guardMove := true, guard := if fresh then x.guardCodes else z.guard }
      wake t c false (d.on fresh (moveGuard t c))

/-- R150: an accepted marker. -/
def marker (t : Nat) (w : Word) (anchor : Nat) (d : Dev) : Dev :=
  let w0 := anchor / 1000 + fld w 10 8
  (d.masked t w 14 14).foldl (fun d c => markCluster t c w0 (w0 + fld w 5 0) d)
    (d.onTEsc t fun e => { e with tokens := incSat 0xFFFF e.tokens })

/-- R162: the anchor tick, the first tick boundary at or after an anchor. -/
def anchorTick (anchor : Nat) : Nat := (anchor + 999) / 1000

/-- R163: an accepted slack report reaches the budget unit, with the tick of its anchor. -/
def slackIn (t : Nat) (w v : Word) (anchor : Nat) (d : Dev) : Dev :=
  let d := d.onTEsc t fun e => { e with tokens := incSat 0xFFFF e.tokens }
  let r : Slack := { age := 0, group := fld w 27 22, slack := sgn 16 (fld w 15 0), sync := fld v 23 0, anchor := anchorTick anchor }
  ev .ridge 10 { d with bud := { d.bud with slack := d.bud.slack.set t r } }

/-- R162: an accepted next-event token. -/
def nextIn (t : Nat) (w v : Word) (anchor : Nat) (d : Dev) : Dev :=
  let n := fld v 23 0
  let tick := anchorTick anchor + n
  (d.masked t w 10 18).foldl (fun d c =>
      eventMoved t c (d.onEsc t c fun z => { z with nextTok := if n = 0xFFFFFF then none else some tick }))
    (d.onTEsc t fun e => { e with tokens := incSat 0xFFFF e.tokens })

/-- R142: an accepted cancel. -/
def cancelIn (t : Nat) (w : Word) (d : Dev) : Dev :=
  let mask := d.masked t w 14 14
  let hit := fun (g : Edge) => tst w 0 || g.tag == fld w 13 8
  d.onTEsc t fun e =>
    let gone := fun (h : Nat) => mask.filter fun c => e.edges.any fun g => g.hint == h && !g.isEnd && hit g && g.mask.contains c
    Esc.tidy { e with tokens := incSat 0xFFFF e.tokens
                      edges := e.edges.map fun g => { g with mask := g.mask.filter fun c => !(gone g.hint).contains c
                                                             all := g.all.filter fun c => !(gone g.hint).contains c } } d.clk.now

/-- R140, R141: a token at the head of the FIFO is scheduled at `ns`, where its TYPE is `want`; a dropped one leaves. DESIGN CHOICE (log 128): the words
that stand of an overflowed token leave by the anchor of the first of them. -/
def schedule (t want ns : Nat) (d : Dev) : Dev :=
  let d := d.at ns
  let e := (d.tl t).esc
  let ready := fun (last : Nat) =>
    let anchor := (last + 15) / 16 * 16
    decide (anchor + 16 ≤ ns) && (match e.lastSched with | some p => decide (p + 8 ≤ ns) | none => true)
  let leave := fun (n : Nat) (d : Dev) => d.onTEsc t fun e => { e with fifo := e.fifo.drop n, lastSched := some ns }
  match e.fifo with
  | [] => d
  | h :: _ =>
    let ty := fld h.w 31 28
    if 0 < h.dead then d.on (ready h.ns) (leave h.dead)
    else if ty = 0 ∨ 6 ≤ ty then
      d.on (ready h.ns) fun d => raise 4 1 (.tile t) h.w ((leave 1 d).onTEsc t Esc.drop)
    else
      let n := tokenLen h.w
      let ws := (e.fifo.take n).map (·.w)
      let last := ((e.fifo.take n).getLast?.getD h).ns
      let anchor := (last + 15) / 16 * 16
      if ty != want || e.fifo.length < n || !ready last then d
      else
        let d := leave n d
        if !tokenOk ws then raise 4 1 (.tile t) h.w (d.onTEsc t Esc.drop)
        else
          let any := match ty with | 3 => true | 4 => !(d.masked t h.w 10 18).isEmpty | _ => !(d.masked t h.w 14 14).isEmpty
          if !any then d.onTEsc t Esc.drop
          else match ws with
            | [w, v, u] => hintEdges t w v u anchor ns d
            | [w, v] => if ty = 3 then slackIn t w v anchor d else nextIn t w v anchor d
            | [w] => if ty = 2 then marker t w anchor d else cancelIn t w d
            | _ => d

/-! ### Injection (R143 to R146) -/

/-- R145, R146: words of edges injected at a slot start, and the sum of the start edges' steps, R65's trigger. -/
structure Inj where
  words : List Int := [0, 0, 0, 0]
  steps : Option (List Int) := none

def addQ (a b : List Int) : List Int := List.zipWith (· + ·) a b

/-- R144: the edge injects in cluster `c` at slot start `S`. -/
def Edge.dueAt (g : Edge) (c S : Nat) : Bool := g.mask.contains c && decide (g.sched ≤ S) && decide (g.ns < S + 88)

/-- R147: mean quadrant currents of the 8 latest slot starts. -/
def preMeans (h : List QSample) : List Int :=
  [0, 1, 2, 3].map fun q => divHE (sumI ((h.take 8).map fun x => at0 x.q q)) 8

/-- R143 to R146: one edge injects in one cluster. A start edge that is applied is R65's trigger. DESIGN CHOICE (log 100): where R143 and R145 differ,
under RUN = 0 with the cluster in a state other than A, the end edge of an applied start edge is applied and scored; an edge applied nowhere is not
counted in ESC_SCORE.UNSCORED. -/
def injectOne (t c S : Nat) (g : Edge) (acc : Inj × Dev) : Inj × Dev :=
  let d := acc.2
  let x := d.tl t
  let k := d.cl t c
  let run := x.fus.run
  let inA := k.seq.st == .A
  let s : List Int :=
    if g.isEnd then ((g.steps.find? fun p => p.1 == c).map (·.2)).getD [0, 0, 0, 0]
    else if x.esc.ffen && run then g.dq.map fun v => divHE (v * x.esc.trust * 25) 32 else [0, 0, 0, 0]
  let has := g.steps.any fun p => p.1 == c
  let ok := if run then (if g.isEnd then has && !k.loop.fb else !k.loop.fb && inA)
            else (if g.isEnd then has else inA)
  let late := decide (g.ns < S + 40)
  let d := d.on (late && !g.late) fun d =>
    raise 4 4 (.tile t) 0 (d.onTEsc t fun e => { e with latecnt := incSat 63 e.latecnt })
  let g' : Edge :=
    { g with mask := g.mask.filter (· != c), late := g.late || late, ever := g.ever || ok
             applied := if ok then g.applied ++ [(c, s, S, preMeans k.esc.qhist)] else g.applied }
  let d := d.onTEsc t fun e =>
    Esc.tidy { e with edges := e.edges.map fun y =>
        if y.id = g.id then g'
        else if !g.isEnd && ok && y.hint = g.hint && y.isEnd then { y with steps := y.steps ++ [(c, s)] } else y } d.clk.now
  if !ok then (acc.1, d)
  else
    let w := if g.isEnd then s.map (- ·) else s
    ({ words := addQ acc.1.words w, steps := if g.isEnd then acc.1.steps else some (addQ (acc.1.steps.getD [0, 0, 0, 0]) w) }, d)

/-- Every edge due at a slot start of a cluster injects, as it stands once those before it have. -/
def inject (t c S : Nat) (d : Dev) : Inj × Dev :=
  (((d.tl t).esc.edges.filter fun g => g.dueAt c S).map (·.id)).foldl (fun acc id =>
    match (acc.2.tl t).esc.edges.find? fun g => g.id == id with
    | some g => injectOne t c S g acc
    | none => acc) ({}, d)

/-- R146: a start edge blocks shedding in the cluster. -/
def Tile.blocks (x : Tile) (c : Nat) : Bool :=
  x.esc.edges.any fun g => !g.isEnd && g.mask.contains c && g.dq.any (0 < ·)

/-! ### Scoring and trust (R147 to R149) -/

/-- R147: post-step means of a cluster. -/
def postMeans (h : List QSample) (T : Nat) : List Int :=
  let l := h.filter fun x => T + 192 ≤ x.ns && x.ns < T + 576
  [0, 1, 2, 3].map fun q => divHE (sumI (l.map fun x => at0 x.q q)) 8

/-- R148: one scored edge. -/
def score (t id ns : Nat) (d : Dev) : Dev :=
  let d := d.at ns
  let e := (d.tl t).esc
  match e.edges.find? fun g => g.id == id with
  | none => d
  | some g =>
    if ns < g.ns + 576 || !g.mask.isEmpty then d
    else
      let free := fun (e : Esc) => Esc.tidy { e with edges := e.edges.filter (fun y => y.id != id), past := e.past ++ [g] } ns
      if g.folded then d.onTEsc t free
      else if g.applied.isEmpty then d.onTEsc t fun e => { free e with unscored := incSat 255 e.unscored }
      else
        let near := fun (a : Nat × List Int × Nat × List Int) (y : Edge) =>
          y.id != id && y.all.contains a.1 &&
            decide (a.2.2.1 < y.ns + 384) && decide (y.ns ≤ g.ns + 192)
        let parts := g.applied.map fun a =>
          let F := ((e.edges ++ e.past).filter (near a)).foldl (fun f y => addQ f y.dq) g.dq
          let post := postMeans (d.cl t a.1).esc.qhist g.ns
          [0, 1, 2, 3].map fun q => (at0 post q - at0 a.2.2.2 q, 100 * at0 F q)
        let l := parts.flatten
        let err : Nat := (l.map fun p => (p.1 - p.2).natAbs).foldl (· + ·) 0
        let mag : Nat := max ((l.map fun p => p.2.natAbs).foldl (· + ·) 0) (400 * g.applied.length)
        let droop := g.applied.any fun a => (d.cl t a.1).loop.droops.any fun x => g.ns ≤ x + 48 && x < g.ns + 576
        let base := if 4 * err ≤ mag then 0 else if 2 * err ≤ mag then 1 else 2
        let grade := if droop then min 2 (base + 1) else base
        d.onTEsc t fun e =>
          let e := free e
          { e with
            edges := e.edges.map fun y => if g.applied.any (fun a => near a y) then { y with folded := true } else y
            good := if grade = 0 then incSat 255 e.good else e.good
            fair := if grade = 1 then incSat 255 e.fair else e.fair
            bad := if grade = 2 then incSat 255 e.bad else e.bad
            grades := if e.scoren then e.grades ++ [if grade = 0 then 1 else if grade = 1 then 0 else -2] else e.grades
            lastTag := g.tag }

/-- R149: the updates of a period boundary. DESIGN CHOICE (log 113): TFIX set inside a quiet window takes the factor to TFIXV at the next period boundary,
still in the window. -/
def trustUpdate (t : Nat) (d : Dev) : Dev :=
  let x := d.tl t
  let e := x.esc
  let d := d.onTEsc t fun e => { e with grades := [] }
  if !x.fus.run then setTrust t 0 (d.onTEsc t fun e => { e with defer := 0 })
  else if e.tfix then setTrust t e.tfixv d
  else if x.quietAny then d.onTEsc t fun y => { y with defer := e.grades.foldl (fun a g => clampI (-16) 16 (a + g)) y.defer }
  else e.grades.foldl (fun d g => setTrust t ((d.tl t).esc.trust + g) d) d

/-! ### Windows (R150 to R155) -/

/-- R150, R151, R155: a window comes into force. -/
def windowStart (t c : Nat) (d : Dev) : Dev :=
  let k := d.cl t c
  match k.esc.wins.find? fun w => !w.inForce && w.w ≤ d.clk.tick with
  | none => d
  | some w =>
    let d := d.onEsc t c fun z => { z with wins := z.wins.map fun u => if u = w then { u with inForce := true } else u }
    let d := cancelSheds t c d
    let d := d.on (k.seq.target.isSome && k.guardNow < k.esc.guard) (raise 4 5 (.tile t) 0)
    let d := d.on (k.seq.st != .A) (raise 4 8 (.tile t) 0)
    trcEvent t c 8 d

/-- R151, R154 step 5: the guard begins its descent unless another window stands. -/
def guardDown (t c : Nat) (d : Dev) : Dev :=
  let k := d.cl t c
  d.on (k.esc.wins.isEmpty && k.esc.guardOn) fun d =>
    guardMoves t c (d.onEsc t c fun z => { z with guardOn := false })

/-! ### Meanings -/

/-- HINT_WORD (R139, R140). -/
def execHintWord (t : Nat) (w : Word) (ns : Nat) (s : State) : Host.Outcome State Fault Refusal :=
  fin s (hintWord t w ns (s.dev.at ns))

/-- HINT: the hint at the head of the FIFO is scheduled (R141, R142). -/
def execHint (t ns : Nat) (s : State) : Host.Outcome State Fault Refusal := fin s (schedule t 1 ns s.dev)

/-- QUIET_WINDOW_MARKER (R150 to R152). -/
def execQuietWindowMarker (t ns : Nat) (s : State) : Host.Outcome State Fault Refusal := fin s (schedule t 2 ns s.dev)

/-- SLACK_REPORT (R163). -/
def execSlackReport (t ns : Nat) (s : State) : Host.Outcome State Fault Refusal := fin s (schedule t 3 ns s.dev)

/-- NEXT_EVENT_TIME (R162). -/
def execNextEventTime (t ns : Nat) (s : State) : Host.Outcome State Fault Refusal := fin s (schedule t 4 ns s.dev)

/-- CANCEL (R142). -/
def execCancel (t ns : Nat) (s : State) : Host.Outcome State Fault Refusal := fin s (schedule t 5 ns s.dev)

/-- FORECAST_SCORE (R147, R148). -/
def execForecastScore (t id ns : Nat) (s : State) : Host.Outcome State Fault Refusal := fin s (score t id ns s.dev)

/-- QUIET_WINDOW_START (R150, R155). -/
def execQuietWindowStart (t c : Nat) (s : State) : Host.Outcome State Fault Refusal := fin s (windowStart t c s.dev)

end Sys2Proof.Machine
end

