-- ==== Sys2Proof/Machine/Cells.lean ====
section
/-!
DEFINITION. Sys2Proof/Machine/Cells.lean: the regulator cells, the fall-back compensator and what happens at switching-period and
period boundaries (chapter 2).
-/
namespace Sys2Proof.Machine

/-! ### Fields in force (Tables 2-12 to 2-14) -/

def ClLoop.hysCodes (l : ClLoop) : Nat := 2 * (fld l.cmpcfgE 17 16 + 1)
def ClLoop.othCodes (l : ClLoop) : Nat := 2 * fld l.cmpcfgE 12 8
def ClLoop.uthCodes (l : ClLoop) : Nat := 2 * fld l.cmpcfgE 4 0
def ClLoop.retryMax (l : ClLoop) : Nat := fld l.occfgE 10 8
def ClLoop.nlim (l : ClLoop) : Nat := fld l.occfgE 7 0

/-- R51: a cell's comparators act. -/
def Cluster.cmpOn (k : Cluster) (x : Cell) : Bool := k.loop.outOn && k.loop.pgood && x.mode == .run && x.blank == 0

/-! ### Sample registers (R45, R46) -/

/-- R46: averages that ended at `b` are in the registers from `b` + 1 ns. -/
def Cell.latchAt (x : Cell) (ns : Nat) : Cell :=
  match x.nxt with
  | some (b, v, is, vin) =>
    if b + 1 ≤ ns then
      { x with nxt := none, vcode := v, vin := vin
               phases := mapI (fun i p => { p with ma := at0 is i }) 0 x.phases }
    else x
  | none => x

/-- R45: a reading clamped to the registers' ranges. -/
def readingRegs (y : CellReading) (b : Nat) : Nat × Nat × List Int × Nat :=
  (b, (clampI 0 1023 y.v).toNat, y.ima.map (satS 12), (clampI 0 255 y.vin).toNat)

/-! ### Losing phases and regulators (R57, R59 to R62) -/

/-- R65: every remaining regulator goes to all its phases at the next sample. -/
def addAllNext (t c : Nat) (d : Dev) : Dev := d.onLoop t c fun l => { l with addAll := true }

/-- All four disconnects open: the regulator is lost. -/
def Cell.lose (x : Cell) (m : CellMode) : Cell :=
  { x.stopPh.allPh (fun p => { p with avail := false }) with mode := m }

/-- A regulator is lost: its neighbours add phases, and the cluster may go dark. -/
def loseCell (t c r : Nat) (m : CellMode) (d : Dev) : Dev :=
  darkCheck t c (addAllNext t c (d.onR t c r fun x => x.lose m))

/-- R59, R62: one phase's disconnect opens; a cell left with two phases or fewer is lost. -/
def openPhase (t c r p : Nat) (d : Dev) : Dev :=
  let d := d.onR t c r fun x => x.onPh p fun y => { y with avail := false, active := false, pulse := 0, limRun := 0, atLimit := false }
  let d := raiseCell 5 t c (some r) (some p) d
  let x := (d.cl t c).cell r
  d.on (x.nAvail ≤ 2 && !x.lost) (loseCell t c r .failed)

/-! ### Switching boundary -/

/-- R53, R54, R51, R49: what a new switching period does in a cell. DESIGN CHOICE (log 95): the switching period in which a cell restarts is
the first of the 8 in which its comparators are held released. -/
def Cell.newPeriod (k : Cluster) (x : Cell) : Cell :=
  let x := { x with blank := x.blank - 1 }
  { x.allPh (fun p => { p with limRun := if p.atLimit then p.limRun else 0, atLimit := false }) with
    trunc := x.overT && k.cmpOn x
    ovSum := x.ovSum + x.cur, ovCnt := x.ovCnt + 1 }

/-- R168: the open-loop duty below code 0. DEDUCED (log 14): an input reading of 0 gives the upper clamp. -/
def Cell.openDuty (x : Cell) (ref : Nat) : Nat :=
  if x.vin = 0 then 767 else (clampI 0 767 (divHE (768 * ref) (20000 * x.vin))).toNat

/-- A cell's part of a switching boundary at instant `b`. -/
def cellSwitch (b : Nat) (rd : List CellReading) (t c : Nat) (k : Cluster) (r : Nat) (x : Cell) : Cell :=
  let x := (x.latchAt b).wordBy b
  let x := match rd.find? fun y => y.tile == t && y.cluster == c && y.reg == r with
    | some y =>
      -- the comparators and the averages of the period that ends here
      { x with nxt := some (readingRegs y b), overT := y.overT && k.cmpOn x, under := y.under && k.cmpOn x && !x.undOut }
    | none => x
  let cur := match x.nxt with
    | some (_, _, is, _) => sumI ((x.phases.zip is).map fun (q : Phase × Int) => if q.1.avail then q.2 else 0)
    | none => x.cur
  let y := x.newPeriod k
  let y := { y with ovSum := x.ovSum + cur }
  if k.loop.outOn && k.seq.ref < 600000 && x.mode == .run then { y with duty := x.openDuty k.seq.ref, wnext := none } else y

/-- R168: the reference lies below the domain's lowest code: the cluster ramps from or to off and is not power-good. -/
def Cluster.belowLo (k : Cluster) (c : Nat) : Bool := k.seq.ref < absOf (codeLo (domOf c))

/-- A cluster's cells at a switching boundary: OVCNT counts truncated periods (Table 2-16); R168: no power-good below the lowest code. -/
def cellsSwitch (b : Nat) (rd : List CellReading) (t c : Nat) (k : Cluster) : Cluster :=
  let k : Cluster := { k with loop := { k.loop with pgood := k.loop.pgood && !k.belowLo c } }
  let cells := mapI (cellSwitch b rd t c k) 0 k.cells
  { k with cells := cells
           loop := { k.loop with ovcnt := if cells.any (·.trunc) then incSat 0xFFFF k.loop.ovcnt else k.loop.ovcnt } }

/-- R166: the slewed reference after one step of a cluster that slews by itself. -/
def Dev.ownStep (d : Dev) (k : Cluster) (c : Nat) : Nat := k.seq.stepped (k.seq.stepSize (domOf c) d.seq.sslew)

/-- R166, R192, R193: the slewed reference of a cluster after a boundary; `lead` is that of its tile's lead L cluster. -/
def Dev.newRef (d : Dev) (leadRef : Option (Nat × Nat)) (k : Cluster) (c : Nat) : Nat :=
  let q := k.seq
  if q.ref = q.endv ∨ d.clk.now ≤ q.movedAt then q.ref
  else
    let own := d.ownStep k c
    if !q.track then own
    else match domOf c, leadRef with
      | .S, some (lr, _) => if q.endv = 0 then max own lr else min q.endv (max own lr)
      | .K, some (lr, l0) => (divHE ((lr : Int) * (q.ref0 : Int)) l0).toNat
      | _, _ => own

/-- The new reference of the tile's lead L cluster, with the one that a K cluster's ratio takes: its target at START (R192), where it stood at STOP (R193). -/
def Dev.leadRef (d : Dev) (x : Tile) : Option (Nat × Nat) :=
  match x.lead with
  | some l => let k := x.clusters.getD l {}
              if k.seq.track then some (d.newRef none k l, k.seq.ref0) else none
  | none => none

/-- R166 to R168, R192, R193: one cluster's reference at a switching boundary. One that already stands at the end value of a movement has arrived. -/
def refStep (x : Tile) (lead : Option (Nat × Nat)) (t c : Nat) (d : Dev) : Dev :=
  let k := x.clusters.getD c {}
  let q := k.seq
  if !k.loop.outOn then d
  else if q.ref = q.endv then arrived t c d
  else
    let d := d.on (q.movedAt < d.clk.now) (cancelSheds t c)
    let n := d.newRef lead k c
    let d := d.onSeq t c fun q => { q with ref := n }
    d.on (n == q.endv) (arrived t c)

/-- A tile's references at a switching boundary. -/
def tileRefs (t : Nat) (d : Dev) : Dev :=
  let x := d.tl t
  let lead := d.leadRef x
  x.clsOn.foldl (fun d c => refStep x lead t c d) d

/-- SWITCHING_BOUNDARY as a whole. -/
def switching (rd : List CellReading) (d : Dev) : Dev :=
  let d := { d with clk := { d.clk with sw := d.clk.sw + 1, now := max d.clk.now (6 * (d.clk.sw + 1)) } }
  let b := 6 * d.clk.sw
  -- R376: KEY_ACK's clock period is over (log 120)
  let d := { d with boot := { d.boot with keyAck := false } }.eachT tileRefs
  let d := d.mapC fun t c k => if k.present then cellsSwitch b rd t c k else k
  startLeft (stopDone (stopLSK d))

/-! ### Pulses and limits (R40 to R44, R49, R53) -/

/-- R40, R43: the on-time of a phase's pulse. DEDUCED (log 15): a duty word of 0 gives no pulse whatever the trim. -/
def onTime (duty : Nat) (trim : Int) : Nat :=
  if duty = 0 then 0 else (clampI 0 767 ((min 767 duty : Nat) + trim)).toNat

/-- R41: the pulse start of phase `p` of regulator `r` in the switching period in progress, in duty steps of 1/128 ns from cold reset. -/
def Dev.pulseAt (d : Dev) (r p : Nat) : Nat := 768 * d.clk.sw + 192 * p + 24 * r

/-- R42: the duty word that a pulse beginning `x128` duty steps after cold reset takes: the one written before it. -/
def Cell.dutyFor (x : Cell) (x128 : Nat) : Nat :=
  match x.wnext with
  | some (w, v) => if 128 * w < x128 then v else x.duty
  | none => x.duty

/-- PULSE_START (R40 to R42, R67): a phase that has been shed omits it. -/
def execPulseStart (t c r p : Nat) (s : State) : Host.Outcome State Fault Refusal :=
  let x := (s.dev.cl t c).cell r
  fin s (s.dev.on (x.mode == .run && !x.trunc) fun d =>
    d.onR t c r fun x => x.onPh p fun y => { y with pulse := if y.active then onTime (x.dutyFor (d.pulseAt r p)) y.trim else 0 })

/-- R44, R53: a phase reaches its cycle limit: its pulse ends, be it the last one of a phase that has been shed, and the phase is at limit for the period.
DEDUCED (log 16): CLIMIT is one fault for a run of limited periods. -/
def cycleLimit (t c r p : Nat) (d : Dev) : Dev :=
  let y := ((d.cl t c).cell r).phases.getD p {}
  if !y.active && y.pulse == 0 then d
  else
    let d := d.onR t c r fun x => x.onPh p fun y =>
      { y with pulse := 0, atLimit := true, limRun := if y.atLimit then y.limRun else y.limRun + 1 }
    d.on (y.limRun == 0) (raiseCell 2 t c (some r) (some p))

/-- CYCLE_LIMIT (R44, R53). -/
def execCycleLimit (t c r p : Nat) (s : State) : Host.Outcome State Fault Refusal := fin s (cycleLimit t c r p s.dev)

/-- R49: overshoot truncation acts. -/
def truncate (t c r : Nat) (d : Dev) : Dev :=
  let k := d.cl t c
  let x := k.cell r
  d.on (k.cmpOn x) fun d =>
    let d := d.onR t c r fun x => { x.allPh (fun p => { p with pulse := 0 }) with overT := true, trunc := true }
    let d := d.on (!k.cells.any (·.trunc)) fun d => d.onLoop t c fun l => { l with ovcnt := incSat 0xFFFF l.ovcnt }
    d.on (!x.overT) (raiseCell 1 t c (some r) none)

/-- OVERSHOOT_TRUNCATION (R44, R49). -/
def execOvershootTruncation (t c r : Nat) (s : State) : Host.Outcome State Fault Refusal := fin s (truncate t c r s.dev)

/-! ### Hiccup, lockout, short -/

/-- R54, R55, R57: the cell hiccups, or latches off after its last retry. A cell that latches off enters no off-time: its neighbours' sheds are cancelled
by the add trigger at the next sample (R67). DESIGN CHOICE (log 126): the disconnects that open with a cell latched off or lost set no PHDISC. -/
def hiccup (t c r p : Nat) (d : Dev) : Dev :=
  let k := d.cl t c
  let x := k.cell r
  if x.mode != .run || (x.phases.getD p {}).limRun < k.loop.nlim then d
  else
    if k.loop.retryMax ≤ x.retries then
      trcEvent t c 6 (darkCheck t c (raiseCell 4 t c (some r) (some p)
        (addAllNext t c (d.onR t c r fun x => { x.lose .latched with hicAt := d.clk.now }))))
    else
      trcEvent t c 6 (raiseCell 3 t c (some r) (some p)
        (addAllNext t c ((cancelSheds t c d).onR t c r fun x => { x.stopPh with mode := .hiccup, hicAt := d.clk.now })))

/-- HICCUP (R54 to R57). -/
def execHiccup (t c r p : Nat) (s : State) : Host.Outcome State Fault Refusal := fin s (hiccup t c r p s.dev)

/-- R54, R58: a stopped cell restarts at `ns`, where its cluster's output is on, from its sample registers as they then stand (R46); R90: its
compensator history restarts. -/
def Cell.back (x : Cell) (outOn : Bool) (ns : Nat) : Cell :=
  let x := (x.latchAt ns).wordBy ns
  let x := { x with mode := .run, blank := 8, cu := List.replicate 3 (4 * (x.preset : Int)), ce := [0, 0, 0] }
  if outOn then x.restart else x

/-- HICCUP_RETRY (R54, R55): 200 µs after the hiccup. A cell whose input is in lockout by then restarts when that ends (R58). -/
def execHiccupRetry (t c r ns : Nat) (s : State) : Host.Outcome State Fault Refusal :=
  let d := s.dev.at ns
  let k := d.cl t c
  let x := k.cell r
  fin s (d.on (x.mode == .hiccup && x.hicAt + 200000 ≤ ns) fun d =>
    d.onR t c r fun x =>
      if x.low then { x with mode := .uvlo, low := false, retries := x.retries + 1 } else { x.back k.loop.outOn ns with retries := x.retries + 1 })

/-- RETRY_COUNT_RESET (R55): 10 ms with no hiccup. DESIGN CHOICE (log 111): time in lockout counts toward the 10 ms, and the count is cleared in a cell that runs. -/
def execRetryCountReset (t c r ns : Nat) (s : State) : Host.Outcome State Fault Refusal :=
  let d := s.dev.at ns
  let x := (d.cl t c).cell r
  fin s (d.on (x.mode == .run && x.hicAt + 10000000 ≤ ns) fun d => d.onR t c r fun x => { x with retries := 0 })

/-- R58: the input of a cell falls below 1.45 V. A cell in hiccup off-time is stopped already and stays so until both have ended. -/
def lockout (t c r : Nat) (d : Dev) : Dev :=
  let x := (d.cl t c).cell r
  if !d.hasC t c then d
  else match x.mode with
    | .run => raiseCell 7 t c (some r) none (addAllNext t c ((cancelSheds t c d).onR t c r fun x => { x.stopPh with mode := .uvlo }))
    | .hiccup => d.on (!x.low) fun d => raiseCell 7 t c (some r) none (d.onR t c r fun x => { x with low := true })
    | _ => d

/-- UVLO (R58). -/
def execUvlo (t c r : Nat) (s : State) : Host.Outcome State Fault Refusal := fin s (lockout t c r s.dev)

/-- UVLO_RESTART (R58): the input has stayed above 1.52 V for 16 periods. -/
def execUvloRestart (t c r : Nat) (s : State) : Host.Outcome State Fault Refusal :=
  let k := s.dev.cl t c
  fin s (s.dev.onR t c r fun x => if x.mode == .uvlo then x.back k.loop.outOn s.dev.clk.now else { x with low := false })

/-- R59, Table 2-6: a shorted phase, whose disconnect switch may be stuck closed. -/
def shortPhase (t c r p : Nat) (stuck : Bool) (d : Dev) : Dev :=
  let x := (d.cl t c).cell r
  d.on ((x.phases.getD p {}).avail && !x.lost && p < x.phases.length && d.hasC t c) fun d =>
    let d := raiseCell 6 t c (some r) (some p) d
    trcEvent t c 6
      (if stuck then
        darkCheck t c (raiseCell 4 t c (some r) (some p) (addAllNext t c
          ((raiseCell 5 t c (some r) (some p) d).onR t c r fun x => x.lose .latched)))
      else openPhase t c r p d)

/-- SHORT (R59, R62, R63). -/
def execShort (t c r p : Nat) (stuckClosed : Bool) (s : State) : Host.Outcome State Fault Refusal :=
  fin s (shortPhase t c r p stuckClosed s.dev)

/-! ### Droop flag (R50, R52, R156) -/

/-- R50, R52: an undershoot comparator trips. -/
def droopAssert (t c r ns : Nat) (d : Dev) : Dev :=
  let k := d.cl t c
  let x := k.cell r
  d.on (k.cmpOn x && !x.undOut) fun d =>
    let d := d.onR t c r fun x => { x with under := true }
    d.on (!k.loop.droop) fun d =>
      let d := d.onLoop t c fun l =>
        { l with droop := true, droopAt := ns, holdoff := false, drpcnt := incSat 0xFFFF l.drpcnt, addAll := true
                 droops := (ns :: l.droops).take 64 }
      trcEvent t c 1 (cancelSheds t c (raiseCell 0 t c (some r) none d))

/-- DROOP_ASSERT (R50, R52, R67). -/
def execDroopAssert (t c r ns : Nat) (s : State) : Host.Outcome State Fault Refusal := fin s (droopAssert t c r ns (s.dev.at ns))

/-- DROOP_DEASSERT (R50): every comparator has released, not less than 6 ns after the assertion. -/
def execDroopDeassert (t c ns : Nat) (s : State) : Host.Outcome State Fault Refusal :=
  let d := s.dev.at ns
  let l := (d.cl t c).loop
  fin s (d.on (l.droop && l.droopAt + 6 ≤ ns) fun d => d.onC t c fun k =>
    { k with cells := k.cells.map fun x => { x with under := false }
             loop := { k.loop with droop := false, droopEnd := ns, holdoff := true } })

/-- DROOP_HOLDOFF_END (R156): 200 ns after the flag has cleared. -/
def execDroopHoldoffEnd (t c ns : Nat) (s : State) : Host.Outcome State Fault Refusal :=
  let d := s.dev.at ns
  let l := (d.cl t c).loop
  fin s (d.on (l.holdoff && !l.droop && l.droopEnd + 200 ≤ ns) fun d => d.onLoop t c fun l => { l with holdoff := false })

/-! ### Fall-back compensator (R71 to R74) -/

/-- R108, R377: the Remontoire of the tile is halted. -/
def Rem.halted (r : Rem) : Bool := tst r.ctrlE 31 || r.stopped

/-- R71: the cluster belongs to its fall-back compensators. -/
def Tile.wantsFb (x : Tile) (k : Cluster) : Bool := !x.fus.run || x.rem.bist == 1 || k.loop.handed || x.rem.halted

/-- Table 13-2: cause of FBENTER. -/
def Tile.fbCause (x : Tile) : Nat := if !x.fus.run then 0 else if x.rem.bist = 1 then 1 else 6

/-- R72: the error of a cell. -/
def Cell.fbErr (x : Cell) (code : Int) : Int := code - x.vcode - divHE x.cur 1000

/-- R72: the compensator's next output and word. -/
def fbOut (co u e : List Int) (e0 : Int) : Int × Nat :=
  let acc := at0 co 0 * at0 u 0 + at0 co 1 * at0 u 1 + at0 co 2 * at0 u 2
    + (at0 co 3 * e0 + at0 co 4 * at0 e 0 + at0 co 5 * at0 e 1 + at0 co 6 * at0 e 2) * 256
  let u0 := clampI 0 196352 (divHE acc 32768)
  (u0, (divHE u0 256).toNat)

/-- R72, R73: a cell's compensator at a period boundary: in control it forms its word, otherwise it tracks. -/
def Cell.fbStep (x : Cell) (co : List Int) (code : Int) (inCtl : Bool) : Cell :=
  let x := match x.fpre with
    | some p => { x with fu := List.replicate 3 (256 * (p : Int)), fe := [0, 0, 0], fpre := none }
    | none => x
  let e0 := x.fbErr code
  if inCtl then
    let o := fbOut co x.fu x.fe e0
    { x with fu := (o.1 :: x.fu).take 3, fe := (e0 :: x.fe).take 3, fword := some o.2 }
  else { x with fu := (256 * (x.duty : Int) :: x.fu).take 3, fe := (e0 :: x.fe).take 3, fword := none }

/-- R43: the trim of each active phase moves toward the regulator's mean. -/
def Cell.trims (x : Cell) : Cell :=
  let act := x.phases.filter (·.active)
  let n : Int := act.length
  let sum := sumI (act.map (·.ma))
  x.allPh fun p =>
    if !p.active then p
    else if sum + 50 * n < n * p.ma then { p with trim := max (-8) (p.trim - 1) }
    else if n * p.ma < sum - 50 * n then { p with trim := min 8 (p.trim + 1) }
    else p

/-- R51, R168: the periods toward power-good, reached at the domain's lowest code or above. DEDUCED (log 17): every cell in service lies
within the threshold on either side. -/
def Cluster.pgStep (k : Cluster) (c : Nat) : Cluster :=
  if !k.loop.outOn || k.loop.pgood then k
  else
    let near := k.cells.all fun x => x.missing || decide (((x.vcode : Int) - k.seq.code).natAbs ≤ k.loop.uthCodes)
    let n := if near then k.loop.pgRun + 1 else 0
    { k with loop := { k.loop with pgRun := n, pgood := decide (16 ≤ n) && !k.belowLo c } }

/-- A cluster at period boundary `p`: sample registers, trims, compensators, power-good, skip lines (R210). -/
def periodCluster (b : BudDev) (p c : Nat) (k0 : Cluster) : Cluster :=
  let k : Cluster := { k0 with cells := k0.cells.map fun x => (x.latchAt p).wordBy p }
  let k := k.pgStep c
  let open' := k.seq.ref < 600000
  { k with
    cells := k.cells.map fun x =>
      if k.loop.outOn && x.mode == .run then (x.trims).fbStep k.loop.fbCoef k.seq.code (k.loop.fb && !open') else x
    bud := { k.bud with skip := b.frac k.bud.heff } }

/-- R71, R103: the cluster passes to its fall-back compensators, with FBENTER of subsystem 2: only they write its words from here on. A word of the
Remontoire whose write instant has come by the period boundary is in force (R91); one that is still to be written is not written. -/
def toFallback (t c cause : Nat) (d : Dev) : Dev :=
  takeRec { code := 0x0220, sub := 2, tile := t, cluster := c, d0 := nw cause } (d.onC t c fun k =>
    { k with loop := { k.loop with fb := true, entry := true, entryLeft := 0, lastW := [] }
             cells := k.cells.map fun x => { x.wordBy (48 * d.clk.per) with wnext := none } })

/-- R103: a hand-over that is due. -/
def handover (t c : Nat) (d : Dev) : Dev :=
  let l := (d.cl t c).loop
  match l.handDue with
  | none => d
  | some (cause, ns) =>
    if 48 * d.clk.per ≤ ns then d else
    let d := d.onLoop t c fun l => { l with handDue := none, handed := true, retDue := false, hold := false }
    if l.fb then d else toFallback t c cause d

/-- R71, R108: what a period boundary hands to the fall-back. -/
def periodLaw (t c : Nat) (d : Dev) : Dev :=
  let d := handover t c d
  let x := d.tl t
  let k := d.cl t c
  d.on (x.wantsFb k && !k.loop.fb) (toFallback t c x.fbCause)

/-- PERIOD_BOUNDARY as a whole. -/
def period (d : Dev) : Dev :=
  let d := { d with clk := { d.clk with per := d.clk.per + 1, now := max d.clk.now (48 * (d.clk.per + 1)) } }
  let d := d.mapT fun _ x =>
    { x with rem := { x.rem with ctrlE := x.rem.ctrl }
             esc := { x.esc with cfgE := x.esc.cfg, qwcfgE := x.esc.qwcfg }
             fus := { x.fus with runDue := false } }
  let d := d.eachC periodLaw
  let d := d.mapC fun _ c k => if k.present then periodCluster d.bud (48 * d.clk.per) c k else k
  d.eachT trustUpdate

/-- FALLBACK_DUTY_WRITE (R72): the word formed at the latest period boundary is written 13 ns after it. -/
def execFallbackDutyWrite (t c r : Nat) (s : State) : Host.Outcome State Fault Refusal :=
  let l := (s.dev.cl t c).loop
  fin s (s.dev.onR t c r fun x =>
    match x.fword with
    | some w => { x with fword := none, duty := if l.fb then w else x.duty }
    | none => x)

/-- HANDOVER (R103): the hand-over of one cluster takes effect at its period boundary. -/
def execHandover (t c : Nat) (s : State) : Host.Outcome State Fault Refusal := fin s (handover t c s.dev)

end Sys2Proof.Machine
end

