-- ==== Sys2Proof/Machine/Law.lean ====
section
/-!
DEFINITION. Sys2Proof/Machine/Law.lean: the arithmetic of the Remontoire: coefficient sets, one sample of the state-space law and of the
compensator law under a mapping, lanes and the vote (R78 to R103).
-/
namespace Sys2Proof.Machine

/-! ### Coefficient sets (R87, R88) -/

/-- The 24,480-bit coefficient field of a state-space slot, as one number. -/
def coefField (m : List Host.Cell) (t slot : Nat) : Nat := leNat (Mem.readL m (storeBase t + 0xC00 * slot + 12) 3060)

/-- Coefficient `k` of a field, signed 18 bits. -/
def coefAt (F k : Nat) : Int := sgn 18 (F / 2 ^ (18 * k))

/-- Coefficients a1 to b3 of a compensator slot. -/
def compSet (m : List Host.Cell) (t slot : Nat) : List Int :=
  (List.range 7).map fun j => sgn 18 (Mem.readW m (storeBase t + 0xF000 + 0x20 * (slot - 20) + 4 + 4 * j)).toNat

/-- Sum over `n` columns of coefficients from `k` on times words. -/
def dotF (F k n : Nat) (v : List Int) : Int := sumI ((List.range n).map fun j => coefAt F (k + j) * at0 v j)

/-! ### Words and lane errors (R93) -/

/-- A lane's error on the partials `js`, and on the word combined by the lane of partial `j`. -/
def errSum (es : List LaneDelta) (mp : Mapping) (js : List Nat) : Int :=
  sumI (es.map fun e => if e.map = mp ∧ ¬ e.comb ∧ js.contains e.j then e.delta else 0)
def errComb (es : List LaneDelta) (mp : Mapping) (j : Nat) : Int :=
  sumI (es.map fun e => if e.map = mp ∧ e.comb ∧ e.j = j then e.delta else 0)

/-- One word to be written back: its exact accumulator, its partials (the first is the combining lane's), the divisor, and whether it
is a duty word. -/
structure Acc where
  acc : Int
  js : List Nat
  div : Nat := 32768
  lo : Int := -32768
  hi : Int := 32767

/-- R93: the word under one mapping. -/
def Acc.word (a : Acc) (es : List LaneDelta) (mp : Mapping) : Int :=
  clampI a.lo a.hi (divHE (a.acc + errSum es mp a.js) a.div + errComb es mp (a.js.headD 0))

/-- R97: the word or one of its partials differs between two mappings. -/
def Acc.differ (a : Acc) (es : List LaneDelta) (p q : Mapping) : Bool :=
  (a.js.any fun j => errSum es p [j] != errSum es q [j]) || a.word es p != a.word es q

/-- Table 3-20: the word saturates. -/
def Acc.sat (a : Acc) (es : List LaneDelta) : Bool :=
  let v := divHE (a.acc + errSum es .M0 a.js) a.div + errComb es .M0 (a.js.headD 0)
  v < a.lo || a.hi < v

/-- R98: the value on which at least two of three mappings agree; none without one. -/
def majority (a b c : Int) : Option Int := if a = b ∨ a = c then some a else if b = c then some b else none

/-- The inputs of one sample that the Remontoire keeps (R97). -/
structure SampleIn where
  c : Nat
  xp : List Int
  y : List Int
  f : List Int
  beta : List Int
  miss : List Bool
  rep : List Bool
  /-- R86: bounds of the duty words. -/
  lim : List (Int × Int)

def missAt (x : SampleIn) (i : Nat) : Bool := x.miss.getD (i % 8) true

/-! ### The four stages (R82, R120) -/

/-- Stage 1: innovations. -/
def stage1 (F : Nat) (x : SampleIn) : List Acc :=
  (List.range 16).map fun i =>
    { acc := at0 x.y i * 32768 - (if missAt x i then 0 else dotF F (20 * i) 20 x.xp), js := [2 * i, 2 * i + 1] }

/-- R130: an innovation under SENSEREP is 0. -/
def maskNu (x : SampleIn) (nu : List Int) : List Int :=
  mapI (fun i v => if 8 ≤ i && x.rep.getD (i - 8) false then 0 else v) 0 nu

/-- Stage 2: corrected state. -/
def stage2 (F : Nat) (x : SampleIn) (nu : List Int) : List Acc :=
  (List.range 20).map fun i =>
    { acc := at0 x.xp i * 32768 + (if 8 ≤ i ∧ i < 16 ∧ missAt x i then 0 else dotF F (320 + 16 * i) 16 nu), js := [32 + 2 * i, 33 + 2 * i] }

/-- Stage 3: duty words. -/
def stage3 (F : Nat) (x : SampleIn) (xc : List Int) : List Acc :=
  (List.range 8).map fun i =>
    if missAt x i then { acc := 0, js := [72 + 2 * i, 73 + 2 * i], div := 131072, lo := 0, hi := 0 }
    else
      { acc := at0 x.beta i * 32768 + dotF F (640 + 20 * i) 20 xc, js := [72 + 2 * i, 73 + 2 * i], div := 131072
        lo := (x.lim.getD i (0, 767)).1, hi := (x.lim.getD i (0, 767)).2 }

/-- The input vector w (R82). -/
def wWords (x : SampleIn) (dw : List Int) : List Int :=
  mapI (fun i v => if missAt x i then 0 else satS 16 (4 * v - at0 x.beta i)) 0 dw ++ x.f

/-- Stage 4: predicted state. -/
def stage4 (F : Nat) (x : SampleIn) (xc w : List Int) : List Acc :=
  ((List.range 16).map fun i =>
    { acc := if 8 ≤ i ∧ missAt x i then 0 else dotF F (800 + 20 * i) 20 xc + dotF F (1120 + 12 * i) 12 w
      js := [88 + 2 * i, 89 + 2 * i, 120 + 2 * i, 121 + 2 * i] : Acc }) ++
  ((List.range 4).map fun q =>
    { acc := at0 xc (16 + q) * 32768 + dotF F (1120 + 12 * (16 + q)) 12 w, js := [152 + 2 * q, 153 + 2 * q] : Acc })

/-- What one computed sample leaves: its words and, from each stage, the accumulators (for comparison). -/
structure SampleOut where
  nu : List Int
  xc : List Int
  d : List Int
  w : List Int
  xp : List Int
  accs : List (List Acc)

/-- R82: the sample, each stage's words chosen by `pick` from its accumulators. -/
def runSample (F : Nat) (x : SampleIn) (pick : Acc → Int) : SampleOut :=
  let a1 := stage1 F x
  let nu := maskNu x (a1.map pick)
  let a2 := stage2 F x nu
  let xc := a2.map pick
  let a3 := stage3 F x xc
  let dw := a3.map pick
  let w := wWords x dw
  let a4 := stage4 F x xc w
  ⟨nu, xc, dw, w, a4.map pick, [a1, a2, a3, a4]⟩

/-- R89: the compensator's accumulators from errors `e0`. -/
def compAccs (co : List Int) (cells : List Cell) (e0 : List Int) (miss : List Bool) : List Acc :=
  mapI (fun i (a : Acc) =>
    let x : Cell := cells.getD i {}
    if miss.getD i true then { a with js := [i], lo := 0, hi := 0 }
    else
      { acc := at0 co 0 * at0 x.cu 0 + at0 co 1 * at0 x.cu 1 + at0 co 2 * at0 x.cu 2 + at0 co 3 * at0 e0 i
          + at0 co 4 * at0 x.ce 0 + at0 co 5 * at0 x.ce 1 + at0 co 6 * at0 x.ce 2
        js := [i], lo := 0, hi := 3068 }) 0 (List.replicate 8 { acc := 0, js := [] })

/-- R97: the first compare point (0 to 3) at which M0 and M1 differ. -/
def firstDiff (es : List LaneDelta) (accs : List (List Acc)) : Option Nat :=
  (idxs (fun l : List Acc => l.any fun a => a.differ es .M0 .M1) 0 accs).head?

/-! ### Lanes (R93, R94, Table 3-9) -/

/-- R93: the global index of partial `j` of cluster `c`. -/
def globalIdx (c j : Nat) : Nat := if c < 14 then 160 * c + j else 2240 + 8 * (c - 14) + j

/-- Table 3-9: the lane of a global index, encoded as LOOP_LOCATE.LANE. -/
def laneOf (mp : Mapping) (g : Nat) : Nat :=
  match mp with | .M0 => g % 480 | .M1 => 512 + (g + 241) % 480 | .M2 => 480 + g % 32

/-- R94, R101: the lane that now carries a lane's partials. -/
def Rem.carrier (r : Rem) (lane : Nat) : Nat := r.remaps.foldl (fun l p => if p.1 = l then p.2 else l) lane

def mapNo (mp : Mapping) : Nat := match mp with | .M0 => 0 | .M1 => 1 | .M2 => 2

/-- R101, R106: the lowest free spare lane. -/
def Rem.freeSpares (r : Rem) : List Nat :=
  ((List.range 32).map (992 + ·)).filter fun l => !(r.badSpares.contains l) && !(r.remaps.any fun p => p.2 = l)

/-- Partials a cluster has. -/
def nPartials (c : Nat) : Nat := if c < 14 then 160 else 8

/-- R102: the clusters with a partial on a lane under any mapping in use. -/
def Dev.onLane (d : Dev) (t lane : Nat) : List Nat :=
  let x := d.tl t
  let maps := if tst x.rem.ctrlE 0 then [Mapping.M0, .M1, .M2] else [Mapping.M0]
  x.clsOn.filter fun c => (List.range (nPartials c)).any fun j => maps.any fun mp => x.rem.carrier (laneOf mp (globalIdx c j)) = lane

/-- R102, R103: a cluster is to be handed over for `cause` at the first period boundary after `ns`. -/
def handDue (t c cause ns : Nat) (d : Dev) : Dev :=
  d.onLoop t c fun l => if l.handed then l else { l with handDue := some (l.handDue.getD (cause, ns)) }

/-- R101, R102: a lane is to be remapped; the answer holds the spare taken, 0 none. -/
def remapLane (t lane ns : Nat) (d : Dev) : Nat × Dev :=
  let r := (d.tl t).rem
  if !tst r.ctrlE 1 then (0, d)
  else match r.freeSpares with
    | sp :: _ => (sp, d.onRem t fun r => { r with remaps := r.remaps ++ [(lane, sp)] })
    | [] =>
      let d := (d.onLane t lane).foldl (fun d c => handDue t c 4 ns d) d
      (0, raiseAt 2 5 (.tile t) (d.tl t).rem.locate 0 none none 0 d)

/-- LOOP_LOCATE of a lane. -/
def locate (t c j : Nat) (mp : Mapping) (lane : Nat) (d : Dev) : Dev :=
  d.onRem t fun r => { r with locate := word [(mapNo mp, 30), (c, 20), (j, 12), (lane, 0)] }

/-! ### The vote (R98, Table 3-11) -/

/-- R98: the differing items of one accumulator in a repeat with errors `es`, after first results with errors `fs`. DESIGN CHOICE (log 96): in the
stages after the compare point at which the sample first mismatched, the manual does not say from which words the first results M0 and M1
went on; the model forms them on the repeat's accumulators with the first run's lane errors. -/
def Acc.items (a : Acc) (es fs : List LaneDelta) : List VItem :=
  let parts := a.js.map fun j =>
    ({ j := j, isWord := false, lane := true, a0 := errSum es .M0 [j], a1 := errSum es .M1 [j], a2 := errSum es .M2 [j],
       b0 := errSum fs .M0 [j], b1 := errSum fs .M1 [j] } : VItem)
  let dp := parts.filter fun v => !(v.a0 = v.a1 ∧ v.a1 = v.a2)
  let w : VItem :=
    { j := a.js.headD 0, isWord := true, lane := dp.isEmpty, a0 := a.word es .M0, a1 := a.word es .M1, a2 := a.word es .M2
      b0 := a.word fs .M0, b1 := a.word fs .M1 }
  dp ++ (if w.a0 = w.a1 ∧ w.a1 = w.a2 then [] else [w])

def VItem.halfB (v : VItem) : Bool := v.a0 == v.a2 && v.a1 == v.b1 && v.a1 != v.a0
def VItem.halfA (v : VItem) : Bool := v.a1 == v.a2 && v.a0 == v.b0 && v.a0 != v.a1
def VItem.threeWay (v : VItem) : Bool := v.isWord && v.a0 != v.a1 && v.a0 != v.a2 && v.a1 != v.a2
/-- The odd mapping of an item. -/
def VItem.odd (v : VItem) : Option Mapping :=
  if v.a0 = v.a1 then some .M2 else if v.a0 = v.a2 then some .M1 else if v.a1 = v.a2 then some .M0 else none

inductive Verdict where
  | transient | halfB | halfA | interm | threeway
  deriving DecidableEq, Repr

/-- Table 3-11. -/
def verdict (l : List VItem) : Verdict :=
  if l.isEmpty then .transient
  else if l.any (·.threeWay) then .threeway
  else if l.all (·.halfB) then .halfB
  else if l.all (·.halfA) then .halfA
  else .interm

/-- A lane that a verdict names: the partial by which, the mapping, the lane. -/
structure LaneHit where
  j : Nat
  mp : Mapping
  lane : Nat

/-- R98, R100: the lanes of a verdict's items, each once, `mp` naming an item's mapping at fault. -/
def hits (r : Rem) (c : Nat) (mp : VItem → Option Mapping) (l : List VItem) : List LaneHit :=
  ((l.filter (·.lane)).filterMap fun v => (mp v).map fun m => (⟨v.j, m, r.carrier (laneOf m (globalIdx c v.j))⟩ : LaneHit)).foldl
    (fun acc h => if acc.any (fun q => q.lane = h.lane) then acc else acc ++ [h]) []

/-- R111, Table 13-3: what the record of a remap carries: LOOP_LOCATE and the spare lane. -/
abbrev LaneRec := Word × Nat

/-- R101: a hit lane is located and remapped. -/
def remapHit (t c ns : Nat) (acc : List LaneRec × Dev) (h : LaneHit) : List LaneRec × Dev :=
  let r := remapLane t h.lane ns (locate t c h.j h.mp h.lane acc.2)
  (acc.1 ++ [((r.2.tl t).rem.locate, r.1)], r.2)

/-- R111, R345: the event of a verdict, with the record of its first lane, and a record of the same event for each further one. DEDUCED (log 97). -/
def laneEvents (t src : Nat) (rs : List LaneRec) (d : Dev) : Dev :=
  let first := rs.headD ((d.tl t).rem.locate, 0)
  let lvl := d.flt.levelOf 2 src (.tile t)
  let d := raiseAt 2 src (.tile t) first.1 (nw first.2) none none 0 d
  rs.tail.foldl (fun d r => takeRec { code := 0x200 + src, sub := 2, level := lvl, fault := true, tile := t,
                                      d0 := r.1, d1 := nw r.2 } d) d

/-- R98, R101: each lane of the items under mapping `mp` is located and remapped; the event of the verdict is REPEAT. -/
def repeatable (t c ns : Nat) (mp : Mapping) (l : List VItem) (d : Dev) : Dev :=
  let r := (hits (d.tl t).rem c (fun _ => some mp) l).foldl (remapHit t c ns) ([], d)
  laneEvents t 1 r.1 r.2

/-- R100: a lane is charged with the verdict at `now`; the third charge within 1 s remaps it. DESIGN CHOICE (log 112): the three charges are used up by it, be the
lane replaced or not. -/
def charge (t c ns now : Nat) (acc : List LaneRec × Dev) (h : LaneHit) : List LaneRec × Dev :=
  let d := locate t c h.j h.mp h.lane (acc.2.onRem t fun r =>
    { r with charges := (r.charges.filter fun p => now < p.2 + 1000000000) ++ [(h.lane, now)] })
  if 3 ≤ ((d.tl t).rem.charges.filter fun p => p.1 = h.lane).length then
    remapHit t c ns (acc.1, d.onRem t fun r => { r with charges := r.charges.filter fun p => p.1 != h.lane }) h
  else (acc.1, d)

/-- R98, R100: an intermittent verdict charges the odd mapping's lanes; its event is INTERM. -/
def intermittent (t c ns now : Nat) (l : List VItem) (d : Dev) : Dev :=
  let r := (hits (d.tl t).rem c VItem.odd l).foldl (charge t c ns now) ([], d)
  laneEvents t 2 r.1 r.2

end Sys2Proof.Machine
end

