-- ==== Sys2Proof/Machine/Trace.lean ====
section
/-!
DEFINITION. Sys2Proof/Machine/Trace.lean: the trace buffer: node values, records and triggers (R132 to R135).
-/
namespace Sys2Proof.Machine

/-! ### Fields -/

def Trace.wide (x : Trace) : Bool := tst x.cfg 5
/-- R132: records the buffer holds. -/
def Trace.depth (x : Trace) : Nat := if x.wide then 512 else 1024
def Trace.postN (x : Trace) : Nat := fld x.cfg 17 8
/-- R133: node code `k` of the selection. -/
def Trace.node (x : Trace) (k : Nat) : Nat := fld (x.nodes.getD (k / 4) 0) (8 * (k % 4) + 7) (8 * (k % 4))

/-- LOOP_CLST.LAW (Table 3-19); R268: an isolated or dark cluster with its output off reads 0b11, whether its output was ever on or not. -/
def Cluster.law (k : Cluster) (c : Nat) : Nat :=
  if k.loop.lawOff || ((k.isolated || k.dark) && !k.loop.outOn) then 3 else if k.loop.fb then 2 else if isLS c then 0 else 1

/-- R119, R132: the region of a record: 32 to 35 while a reduced set is in force, the full region in use otherwise, so too while no set
is in force (slot 0x3F). -/
def Cluster.regionNow (k : Cluster) (c : Nat) : Nat :=
  if !isLS c || k.fus.cap = 0 || k.fus.slot = 0x3F then k.fus.use
  else (if k.fus.cap = 1 then 32 else 34) + (if 16 ≤ k.fus.use then 1 else 0)

/-- Table 4-6: the codes that name a node. -/
def nodeOk (v : Nat) : Bool :=
  v == 0 || (0x10 ≤ v && v ≤ 0x23) || (0x30 ≤ v && v ≤ 0x43) || (0x50 ≤ v && v ≤ 0x8F) || (0x90 ≤ v && v ≤ 0xAF)

/-- R133: the value of a node. DEDUCED (log 18): a quantity in mA on class I is rounded to nearest, ties to even. DEDUCED (log 94): the
measurement words y, which the supervisor takes from every cluster (R128), and the bias words β are no nodes of the state-space law alone,
so a K or M cluster shows them. DESIGN CHOICE (log 116): of a sample that computes nothing (fall-back, output off, one that
waits for its repeat) the words are those of the latest sample that computed them. -/
def nodeVal (x : Tile) (c v : Nat) : Int :=
  let k := x.clusters.getD c {}
  let l := k.loop
  let f := k.fus
  let ls := fun (a : Int) => if isLS c then a else 0
  let i := v % 16
  if 0x10 ≤ v ∧ v ≤ 0x23 then ls (at0 l.xc (v - 0x10))
  else if 0x30 ≤ v ∧ v ≤ 0x43 then ls (at0 l.xp (v - 0x30))
  else if 0x50 ≤ v ∧ v ≤ 0x5F then ls (at0 l.nu i)
  else if 0x60 ≤ v ∧ v ≤ 0x6F then at0 l.y i
  else if 0x70 ≤ v ∧ v ≤ 0x77 then (k.cell i).word
  else if 0x78 ≤ v ∧ v ≤ 0x7B then ls (at0 l.fq (v - 0x78))
  else if 0x7C ≤ v ∧ v ≤ 0x7F then ls (at0 l.pre (v - 0x7C))
  else if 0x80 ≤ v ∧ v ≤ 0x87 then (k.cell i).rho
  else if 0x88 ≤ v ∧ v ≤ 0x8F then (k.cell (i - 8)).beta
  else if 0x90 ≤ v ∧ v ≤ 0x97 then (k.cell i).vin
  else if v = 0x98 then satS 16 (divHE f.icl 4)
  else if v = 0x99 then satS 16 (divHE f.iq 8)
  else if v = 0x9A then (f.bandS + 4 * f.bandI + 16 * f.bandT + 32 * f.cap + 256 * f.sel : Nat)
  else if v = 0x9B then f.ca
  else if v = 0x9C then ((k.cells.map (·.nActive)).foldl (· + ·) 0 : Nat)
  else if v = 0x9D then x.esc.trust
  else if v = 0x9E then f.mg
  else if v = 0x9F then f.tc
  else if 0xA0 ≤ v ∧ v ≤ 0xA7 then (k.cell i).sh
  else if 0xA8 ≤ v ∧ v ≤ 0xAF then (if isLS c then 0 else at0 l.u0 (i - 8))
  else 0

/-- R132: the header of a record. -/
def traceHead (x : Tile) (c : Nat) (hold rep trig : Bool) : Word :=
  let k := x.clusters.getD c {}
  word [(k.loop.seq, 20), (k.regionNow c, 14), (b2n k.loop.droop, 13), (b2n hold, 12), (b2n rep, 11), (b2n k.quiet, 10),
    (b2n (k.loop.fq.any (· != 0)), 9), (b2n (k.loop.pre.any (· != 0)), 8), (b2n trig, 7), (k.law c, 5), (b2n k.fus.degraded, 4),
    (8 - k.nMissing, 0)]

/-- The words of a record. -/
def traceWords (x : Tile) (c : Nat) (hold rep trig : Bool) : List Word :=
  let n := if x.trace.wide then 7 else 3
  traceHead x c hold rep trig :: (List.range n).map fun w =>
    let v := fun k => uns 16 (nodeVal x c (x.trace.node k))
    word [(v (2 * w), 0), (v (2 * w + 1), 16)]

/-- Table 4-7: a node comparison is met. -/
def traceCmp (x : Tile) (c : Nat) : Bool :=
  let thr := sgn 16 (fld x.trace.trig 31 16)
  let v := sgn 16 (uns 16 (nodeVal x c (fld x.trace.trig 11 4)))
  match fld x.trace.trig 3 0 with
  | 0xA => thr < v
  | 0xB => v < thr
  | 0xC => thr < (v.natAbs : Int)
  | _ => false

/-- R132, R135: a record joins the ring, over the oldest where it is full. -/
def Trace.push (x : Trace) (r : List Word) : Trace :=
  let recs := x.recs ++ [r]
  let extra := recs.length - x.depth
  { x with recs := recs.drop extra, tpos := x.tpos - extra, bad := (x.bad.filter (extra ≤ ·)).map (· - extra) }

/-- R135: the buffer is DONE: of the records before the trigger it keeps at most depth − POST − 1. -/
def Trace.done (x : Trace) : Trace :=
  let before := x.tpos
  let keep := min before (x.depth - x.postN - 1)
  let extra := before - keep
  { x with st := 3, fired := none, recs := x.recs.drop extra, tpos := keep, bad := (x.bad.filter (extra ≤ ·)).map (· - extra) }

/-- R132, R135: the buffer takes a record: while the trigger record is to come the records go round the ring, then POST of them follow it. -/
def Trace.take (x : Trace) (r : List Word) (trig : Bool) : Trace :=
  let y := x.push r
  let z : Trace :=
    if trig then { y with fired := none, post := y.postN, tpos := y.recs.length - 1 }
    else if x.st = 2 ∧ x.fired = none then { y with post := y.post - 1 } else y
  if z.st = 2 ∧ z.fired = none ∧ z.post = 0 then z.done else z

/-- R132, R134, R135: one record of the traced cluster's sample: the trigger record is the first whose slot start is at or after the event. -/
def traceRecord (t c : Nat) (hold rep : Bool) (d : Dev) : Dev :=
  let x := d.tl t
  if fld x.trace.cfg 4 0 != c || !(x.trace.st == 1 || x.trace.st == 2) then d
  else
    let S := d.slotStart c
    let d := d.on (x.trace.st == 1 && traceCmp x c) (trcFireAt t S true)
    let trig := match (d.tl t).trace.fired with | some e => decide (e ≤ S) | none => false
    d.onTrc t fun y => y.take (traceWords x c hold rep trig) trig

/-- R134: an event in the tile at `ns`, whatever its cluster. -/
def trcTile (t src ns : Nat) (d : Dev) : Dev := d.on (fld (d.tl t).trace.trig 3 0 == src) (trcFireAt t ns true)

/-- R134: a trigger under any source: manual, by instruction, or sent by another tile. -/
def trcForce (t : Nat) (own : Bool) (d : Dev) : Dev := trcFire t own d

/-- R135: the buffer is armed. -/
def trcArm (t : Nat) (d : Dev) : Dev :=
  d.onTrc t fun y => { y with st := 1, recs := [], bad := [], fired := none, post := 0, tpos := 0 }

end Sys2Proof.Machine
end

