-- ==== Sys2Proof/Machine/Supervise.lean ====
section
/-!
DEFINITION. Sys2Proof/Machine/Supervise.lean: the plausibility supervisor (R128 to R131, R256), the stuck-comparator check (R258), and phase
adding and shedding (R64 to R70).
-/
namespace Sys2Proof.Machine

/-! ### Trim fields (Table 4-3) -/

/-- Word `k` of a cluster's trim block in force. -/
def Tile.trim (x : Tile) (c k : Nat) : Word := (x.fus.trims.getD c []).getD k (nw (trimWord k))
/-- R126: a counter level below 4 acts as 4. -/
def level (n : Nat) : Nat := max 4 n

/-! ### Locating a phase (R129) -/

/-- Sum of a phase's currents over the cluster's last 8 samples. -/
def Phase.sum (p : Phase) : Int := sumI p.hist
/-- The regulator's sum, and how many samples it is over. -/
def Cell.histSum (x : Cell) : Int := sumI (x.phases.map Phase.sum)
def Cell.histLen (x : Cell) : Nat := max 1 ((x.phases.map fun p => p.hist.length).foldl max 0)

/-- The index with the greatest key, the lowest index where keys tie. -/
def argMax (key : Nat → Int) : List Nat → Option Nat
  | [] => none
  | i :: l => match argMax key l with
    | none => some i
    | some j => if key j ≤ key i then some i else some j

/-- R129: the phase named and whether it is open. -/
def locatePhase (x : Cell) : Option (Nat × Bool) :=
  let L : Int := x.histLen
  let act := idxs (fun p : Phase => p.active) 0 x.phases
  let s := fun i => (x.phases.getD i {}).sum
  let total := sumI (act.map s)
  match act with
  | [] => none
  | [p] => some (p, decide (s p < 200 * L))
  | _ =>
    let o : Int := act.length - 1
    let opens := act.filter fun i => decide (4 * o * s i < total - s i) && decide (200 * L * o < total - s i)
    match argMax (fun i => - s i) opens with
    | some p => some (p, true)
    | none => (argMax (fun i => ((o * s i - (total - s i)).natAbs : Int)) act).map fun p => (p, false)

/-- Mean of the other active phases of a regulator, for a record. -/
def othersMean (x : Cell) (p : Nat) : Int :=
  let act := (idxs (fun q : Phase => q.active) 0 x.phases).filter (· != p)
  meanOf (sumI (act.map fun i => (x.phases.getD i {}).sum)) (x.histLen * max 1 act.length)

/-! ### Verdicts -/

/-- R128: a verdict resets every counter of the cluster. -/
def resetCounters (t c : Nat) (d : Dev) : Dev :=
  d.onC t c fun k =>
    { k with fus := { k.fus with ca := 0 }, cells := k.cells.map fun x => { x with xcRun := 0, ciCnt := 0, kmRun := 0 } }

/-- R129, R130, R256: a current or share verdict on regulator `i`: the record's mean is `judged` where given. DESIGN CHOICE (log 127): the disconnect
completes at the verdict, and the 8 samples of SENSEREP count from there. -/
def phaseVerdict (t c i : Nat) (km : Bool) (judged : Option Int) (d : Dev) : Dev :=
  let x := (d.cl t c).cell i
  let mean := meanOf x.histSum x.histLen
  match locatePhase x with
  | none => d
  | some (p, isOpen) =>
    let src := if km then 4 else if isOpen then 1 else 2
    let d := raiseAt 3 src (.cluster t c) (iw mean) (iw (judged.getD (othersMean x p))) (some i) (some p) 0 d
    let d := d.onC t c fun k =>
      { k with fus := { k.fus with degraded := true }, cells := k.cells.modify i fun y => { y with senseRep := 8 } }
    trcEvent t c 5 (trcEvent t c 6 (openPhase t c i p d))

/-- R128: an ADC declared failed. -/
def adcVerdict (t c i : Nat) (med : Int) (d : Dev) : Dev :=
  let x := (d.cl t c).cell i
  let d := raiseAt 3 0 (.cluster t c) (iw (meanOf x.histSum x.histLen)) (iw med) (some i) none 0 d
  trcEvent t c 5 (trcEvent t c 6 (loseCell t c i .failed d))

/-- R131: an envelope verdict. -/
def envVerdict (t c : Nat) (d : Dev) : Dev :=
  let r := (d.tl t).rem
  let d := raiseAt 3 3 (.cluster t c) 0 0 none none 0 d
  let d := if tst r.ctrlE 0 || r.cmpFail then d.onFus t c fun f => { f with degraded := true }
    else (raise 3 5 (.tile t) 0 (d.onRem t fun r => { r with ctrl := setBit r.ctrl 0 })).onFus t c fun f => { f with plev := setBit f.plev 5 }
  trcEvent t c 5 d

/-! ### The checks (Table 4-5) -/

/-- The middle value of a list, the lower for an even count. -/
def lowerMedian (l : List Int) : Int := (sortUp l).getD ((l.length - 1) / 2) 0

/-- R83, R128: the regulators in service at the slot start of the latest sample. -/
def Cluster.served (k : Cluster) : List Nat := idxs (fun z : Cell => !(z.latches.headD ⟨0, 0, 0, z.missing⟩).miss) 0 k.cells

/-- R128: where a counter of a regulator in service has reached its level, the verdict on the first such regulator, after every counter is reset. DESIGN
CHOICE (log 98): of several regulators that reach the level in one check at one sample, only the lowest-numbered one gets a verdict. -/
def firstVerdict (t c : Nat) (serv : List Nat) (reached : Cell → Bool) (act : Nat → Dev → Dev) (d : Dev) : Dev :=
  match serv.find? fun i => reached ((d.cl t c).cell i) with
  | some i => act i (resetCounters t c d)
  | none => d

/-- R128, Table 4-5: the voltage cross-check of measurement words `y`. -/
def crossCheck (t c : Nat) (y : List Int) (serv : List Nat) (d : Dev) : Dev :=
  let x := d.tl t
  let med := fun i => lowerMedian ((serv.filter (· != i)).map fun j => at0 y j)
  let bad := fun i => serv.contains i && 5 ≤ serv.length && decide ((fld (x.trim c 2) 7 0 : Int) < ((at0 y i - med i).natAbs : Int))
  firstVerdict t c serv (fun z => level (fld (x.trim c 3) 23 16) ≤ z.xcRun) (fun i => adcVerdict t c i (med i))
    (d.onC t c fun k => { k with cells := mapI (fun i z => { z with xcRun := if bad i then z.xcRun + 1 else 0 }) 0 k.cells })

/-- Table 4-5: the current residual of innovations `nu`. -/
def residualCheck (t c : Nat) (nu : List Int) (serv : List Nat) (wide : Bool) (d : Dev) : Dev :=
  let x := d.tl t
  let ith : Int := fld (x.trim c 2) 23 16 * (if wide then 2 else 1)
  let much := fun i => decide (ith < ((at0 nu (8 + i)).natAbs : Int))
  firstVerdict t c serv (fun z => level (fld (x.trim c 3) 15 8) ≤ z.ciCnt) (fun i => phaseVerdict t c i false none)
    (d.onC t c fun k =>
      { k with cells := mapI (fun i z => if serv.contains i then { z with ciCnt := if much i then z.ciCnt + 2 else z.ciCnt - 1 } else z) 0 k.cells })

/-- Table 4-5: the envelope. -/
def envelopeCheck (t c : Nat) (nu : List Int) (serv : List Nat) (wide : Bool) (d : Dev) : Dev :=
  let x := d.tl t
  let venv : Int := fld (x.trim c 2) 15 8 * (if wide then 2 else 1)
  let out := serv.any fun i => decide (venv < ((at0 nu i).natAbs : Int))
  let d := d.onFus t c fun f => { f with ca := if out then f.ca + 2 else f.ca - 1 }
  d.on (level (fld (x.trim c 3) 7 0) ≤ (d.cl t c).fus.ca) fun d => envVerdict t c (resetCounters t c d)

/-- Table 4-5: the share check of a K or M cluster. -/
def shareCheck (t c : Nat) (serv : List Nat) (d : Dev) : Dev :=
  let x := d.tl t
  let k := d.cl t c
  let n : Int := serv.length - 1
  let cur := fun i => ((k.cell i).latches.headD ⟨0, 0, 0, true⟩).ima
  let total := sumI (serv.map cur)
  let off := fun i => serv.contains i && 0 < n && decide (4 * (fld (x.trim c 2) 31 24 : Int) * n < ((n * cur i - (total - cur i)).natAbs : Int))
  firstVerdict t c serv (fun z => 32 ≤ z.kmRun) (fun i => phaseVerdict t c i true (some (meanOf (total - cur i) n.toNat)))
    (d.onC t c fun k => { k with cells := mapI (fun i z => { z with kmRun := if off i then z.kmRun + 1 else 0 }) 0 k.cells })

/-- R128: the checks of one sample over measurement words `y` and innovations `nu`, in the order of Table 4-5; `wide` doubles thresholds. -/
def supervise (t c : Nat) (y nu : List Int) (d : Dev) : Dev :=
  let k := d.cl t c
  let wide := k.loop.droop || k.seq.slewing || decide (k.fus.setAge < 16)
  let serv := k.served
  let d := crossCheck t c y serv d
  if isLS c then envelopeCheck t c nu serv wide (residualCheck t c nu serv wide d) else shareCheck t c serv d

/-! ### Stuck comparators (R258) -/

/-- One cell's runs of samples against its voltage code. -/
def Cell.stuckRuns (x : Cell) (l : ClLoop) (r : Int) : Cell :=
  if 0 < x.xcRun then x
  else
    { x with undRun := if x.under && !x.undOut && decide (r - l.uthCodes + 2 * l.hysCodes ≤ x.vcode) then x.undRun + 1 else 0
             ovRun := if x.overT && decide ((x.vcode : Int) ≤ r + l.othCodes - 2 * l.hysCodes) then x.ovRun + 1 else 0 }

/-- R258: the check of one sample. A stopped cell's comparators are held released (R51), which ends its runs. -/
def stuckCheck (t c : Nat) (d : Dev) : Dev :=
  let d := d.onC t c fun k =>
    { k with cells := k.cells.map fun x => if x.missing then { x with undRun := 0, ovRun := 0 } else x.stuckRuns k.loop k.seq.code }
  let us := idxs (fun x : Cell => 16 ≤ x.undRun) 0 (d.cl t c).cells
  let os := idxs (fun x : Cell => 16 ≤ x.ovRun) 0 (d.cl t c).cells
  let d := us.foldl (fun d i => raiseCell 17 t c (some i) none
    (d.onR t c i fun x => { x with undRun := 0, undOut := true, under := false })) d
  os.foldl (fun d i => trcEvent t c 6 (loseCell t c i .failed (raiseCell 17 t c (some i) none
    (d.onR t c i fun x => { x with ovRun := 0 })))) d

/-! ### Adding and shedding phases (R64 to R70) -/

/-- R64, Table 6-7: the minimum count with the output on, by the state in force since the sample (R22). -/
def Cluster.minPh (k : Cluster) : Nat := if k.seq.stE = .A then fld k.loop.shedcfgE 2 1 + 1 else 1

/-- The least n with cur ≤ 720 mA × n. -/
def phasesFor (cur : Int) : Nat := ((cur + 719) / 720).toNat

/-- R69: active phases raised to `n`, in the order p0, p2, p1, p3. -/
def Cell.addTo (x : Cell) (n : Nat) : Cell :=
  [0, 2, 1, 3].foldl (fun x p =>
    let y := x.phases.getD p {}
    if x.nActive < n && y.avail && !y.active then x.onPh p fun y => { y with active := true, trim := 0, limRun := 0, atLimit := false } else x) x

/-- R69: the next phase to shed. -/
def Cell.nextShed (x : Cell) : Option Nat := [3, 1, 2, 0].find? fun p => let y := x.phases.getD p {}; y.avail && y.active

/-- R66: what blocks sheds in the cluster. DESIGN CHOICE (log 125): from the very sample at which its target changes, a cluster blocks and cancels as a
slewing one. -/
def Dev.shedBlocked (d : Dev) (t c : Nat) : Bool :=
  let k := d.cl t c
  k.loop.droop || k.quiet || (d.tl t).blocks c || k.cells.any (·.away) || k.seq.slewing || k.seq.changing

/-- What a sample brings to every regulator of its cluster: a shed blocker (R66); state A taken from B1 or B2; an injection was applied (Table 2-7). -/
structure ShedIn where
  blocked : Bool
  toA : Bool
  inj : Bool

/-- Table 2-8: one regulator at a sample; `s` is the step injected in its quadrant. The Bool says that a shed was cancelled. A shed phase's pulse in
progress keeps its on-time (R44, R67). -/
def Cell.shedStep (x : Cell) (k : Cluster) (b : ShedIn) (s : Int) : Cell × Bool :=
  if x.missing then (x, false)
  else
    let cur := x.cur
    let n := x.nActive
    let a := x.nAvail
    let full := !tst k.loop.shedcfgE 0
    let want := max (max (min k.minPh a) (if k.loop.addAll || full then a else 0))
      (max (phasesFor cur) (if b.inj then phasesFor (cur + 4 * s) else 0))
    let trig := k.loop.addAll || decide (720 * (n : Int) < cur) || b.inj || b.toA
    let test := decide (cur < 450 * ((n : Int) - 1)) && decide (min k.minPh a < n) && !full
    let pend := x.shed != .steady
    if trig || decide (n < min want a) then ({ x.addTo (min want a) with shed := .steady, shedRun := 0 }, pend)
    else match x.shed with
      | .steady =>
        let run := if decide (cur < 450 * ((n : Int) - 1)) then incSat 255 x.shedRun else 0
        let x := { x with shedRun := run }
        if test && fld k.loop.shedcfgE 15 8 ≤ run && !b.blocked then
          match x.nextShed with
          | some p => ({ x with shed := .pending1 p }, false)
          | none => (x, false)
        else (x, false)
      | .pending1 p =>
        if b.blocked || !test then ({ x with shed := .steady, shedRun := 0 }, true) else ({ x with shed := .pending2 p }, false)
      | .pending2 p =>
        if b.blocked || !test then ({ x with shed := .steady, shedRun := 0 }, true)
        else ({ x.onPh p fun y => { y with active := false, limRun := 0, atLimit := false } with shed := .steady, shedRun := 0 }, false)

/-- R64 to R70: the regulators of a cluster at a sample; `steps` are the steps injected, if any; `toA`: state A is taken from B1 or B2. -/
def shedSample (t c : Nat) (steps : Option (List Int)) (toA : Bool) (d : Dev) : Dev :=
  let k := d.cl t c
  if !k.loop.outOn then d.onLoop t c fun l => { l with addAll := false }
  else
    let b : ShedIn := ⟨d.shedBlocked t c, toA, steps.isSome⟩
    let rs := mapI (fun i (p : Cell × Bool) => p.1.shedStep k b (at0 (steps.getD []) (i / 2))) 0 (k.cells.map fun x => (x, false))
    let d := d.onC t c fun k => { k with cells := rs.map (·.1), loop := { k.loop with addAll := false } }
    (idxs (fun p : Cell × Bool => p.2) 0 rs).foldl (fun d r => raiseCell 8 t c (some r) none d) d

end Sys2Proof.Machine
end

