-- ==== Sys2Proof/Machine/Remontoire.lean ====
section
/-!
DEFINITION. Sys2Proof/Machine/Remontoire.lean: one sample of a cluster, the repeat of a mismatched one, and the commands of the Remontoire
(R82 to R110, R121, R122, R177, R179, R259).
-/
namespace Sys2Proof.Machine

/-! ### What a slot start latches -/

/-- R22, R75: the register fields in force from this sample; R122: a cleared FORCE returns the cluster to its selected region. -/
def adoptFields (t c : Nat) (S : Nat) (d : Dev) : Dev :=
  d.onC t c fun k =>
    { k with loop := { k.loop with cmpcfgE := k.loop.cmpcfg, occfgE := k.loop.occfg, shedcfgE := k.loop.shedcfg }
             seq := { k.seq with cllimE := k.seq.cllim, clcfgE := k.seq.clcfg }
             fus := if k.quiet then k.fus else
               { k.fus with clctlE := k.fus.clctl
                            use := if tst k.fus.clctlE 8 && !tst k.fus.clctl 8 then k.fus.sel else k.fus.use }
             cells := k.cells.map fun x => (x.latchAt S).wordBy S }

/-- R188, R189, R296: an accepted change of state or grant policy takes effect; a state change naming A wakes the cluster. -/
def runHeld (t c : Nat) (d : Dev) (h : HeldOp) : Dev :=
  match h with
  | .state force fs cls =>
    let d := takeForcedAs cls t c (d.onSeq t c fun q => { q with force := force, fstate := fs })
    d.on (!force && fs == 0) (wakeAs cls t c true)
  | .grant w => d.onSeq t c fun q => { q with clgrE := w }

/-- R22, R296: every change accepted so far takes effect, in order of acceptance. -/
def runAllHeld (t c : Nat) (d : Dev) : Dev :=
  ((d.cl t c).seq.held).foldl (runHeld t c) (d.onSeq t c fun q => { q with held := [] })

/-- R125: a cell that is powered down latches 0 for every sample quantity (Table 6-7). -/
def Cluster.unpowered (k : Cluster) : Bool :=
  k.seq.st == .D && !k.loop.outOn && (match k.seq.chg with | .bootstrap => false | .waiting => !k.seq.track | _ => true)

/-- R125: the latch of one cell. -/
def Cell.latch (x : Cell) (off : Bool) : Latch :=
  if off then ⟨0, 0, 0, x.missing⟩ else ⟨if x.missing then 0 else x.cur, x.vin, x.vcode, x.missing⟩

/-- R125, R129, R147: the latches of a slot start are kept. -/
def pushLatches (t c S : Nat) (d : Dev) : Dev :=
  d.onC t c fun k =>
    let off := k.unpowered
    let cells := k.cells.map fun x =>
      { x.allPh (fun p => { p with hist := ((if off then 0 else p.ma) :: p.hist).take 8 }) with
        latches := (x.latch off :: x.latches).take 8 }
    let cur := fun i => ((cells.getD i {}).latches.headD ⟨0, 0, 0, true⟩).ima
    { k with cells := cells
             esc := { k.esc with qhist := ({ ns := S, q := [0, 1, 2, 3].map fun q => cur (2 * q) + cur (2 * q + 1) } :: k.esc.qhist).take 24 } }

/-! ### Region and set in force (R119 to R122) -/

/-- R119: the reduced region's number above 32 or 34. -/
def ClFus.high (f : ClFus) : Nat := if 16 ≤ f.use then 1 else 0

/-- The slots that the map in force gives the regions of a cluster's domain. -/
def Tile.mapRow (x : Tile) (c : Nat) : List Nat := (x.fus.map.drop (64 * domCode (domOf c))).take 64

/-- R121, R122: what takes effect at slot start `S`: ρ, β and the full region in use. DESIGN CHOICE (log 45): FORCE prevails over LOCK, and a FORCE that
clears while LOCK is 1 returns the cluster to the region selected at the latest outer boundary, which LOCK then holds. -/
def regionAt (t c S : Nat) (d : Dev) : Dev :=
  let x := d.tl t
  let k := d.cl t c
  let f := k.fus
  let now := match f.due with | some o => decide (o ≤ S) | none => false
  let hold := k.quiet
  let force := tst f.clctlE 8
  let lock := tst f.clctlE 9
  let take : Option (Nat × List Nat) :=
    if hold then none
    else if now then some (f.sel, x.mapRow c)
    else match f.rel with | some (e, r, l) => if e ≤ S then some (r, l) else none | none => none
  d.onC t c fun k =>
    { k with
      cells := if now then k.cells.map fun y => { y with rho := y.rhoN, beta := y.betaN } else k.cells
      fus := { k.fus with
        due := if now then none else k.fus.due
        rel := if take.isSome then none else k.fus.rel
        slots := match take with | some p => p.2 | none => f.slots
        use := if force then fld f.clctlE 5 0 else match take with | some p => if lock then f.use else p.1 | none => f.use } }

/-- R119: the slot in force for a count of missing regulators. -/
def ClFus.slotFor (f : ClFus) (c miss : Nat) : Nat :=
  let r := if !isLS c || miss = 0 then f.use else (if miss = 1 then 32 else 34) + f.high
  let s := f.slots.getD r 0xFF
  if s < 24 then s else 0x3F

/-- R119, R120: capacity band and slot of this sample, with the trace events of their changes. -/
def setAt (t c : Nat) (d : Dev) : Dev :=
  let run := (d.tl t).fus.run && !(d.tl t).fus.runDue
  let k := d.cl t c
  let cap := min 2 k.nMissing
  let slot := if run then k.fus.slotFor c cap else 0x3F
  let d := d.on (slot != k.fus.slot) (trcEvent t c 2)
  let d := d.on (cap != k.fus.cap) (trcEvent t c 3)
  d.onFus t c fun f => { f with cap := cap, slot := slot, setAge := if slot != f.slot then 0 else incSat 16 f.setAge }

/-! ### Settling, moves and transitions at a sample (R22, R177 to R180, R185, R192) -/

/-- R179: every in-service regulator lies within SETTLE codes of the reference. -/
def Cluster.near (k : Cluster) (n : Nat) : Bool :=
  k.cells.all fun x => x.missing || decide (((x.vcode : Int) - k.seq.code).natAbs ≤ n)

/-- R179: the settle count of a sample, and what a settled cluster goes on to. -/
def settleAt (m0 : List Host.Cell) (old : Dev) (m : List Host.Cell) (t c : Nat) (d : Dev) : Dev :=
  let k := d.cl t c
  let ok := k.loop.outOn && !k.seq.slewing && k.near d.seq.settle
  let d := d.onSeq t c fun q =>
    { q with settled := if ok then incSat 8 q.settled else 0
             cur := match q.cur with
               | some tr => some (if tr.step = 3 ∧ !q.slewing ∧ q.move.isNone then { tr with step := 4 } else tr)
               | none => none }
  let q := (d.cl t c).seq
  if q.settled < 8 || q.move.isSome then d
  else if q.chg == .settling then
    if q.track then startProgress m0 old m d
    else if k.isolated then
      -- Table 9-2: an isolated K cluster is held in B1 at its target
      (d.on (q.st != .B1) (pushState t c .B1 true)).onSeq t c fun q => { q with st := .B1, chg := .none, fromOff := false, qtr := false, deferred := false }
    else
      let d := bandEval t c (d.onSeq t c fun q => { q with chg := .framed })
      let d := d.on q.fromOff (syncTile m0 old m t)
      pushState t c .A false d
  else transSettled m0 old m t c d

/-- R22, R180, R185: a target change due at the sample takes effect; that of a transition inside the span that then stands (R168). -/
def moveAt (t c : Nat) (d : Dev) : Dev :=
  let q := (d.cl t c).seq
  match q.move with
  | none => d
  | some (tgt, slew) =>
    let own := q.cur.filter fun tr => tr.step == 3 && tgt == some tr.code
    let d := d.onSeq t c fun q =>
      match own with
      | some tr => { q with move := none, atarget := (q.spanned tr).code, cur := some (q.spanned tr) }
      | none => { q with move := none }
    let d := setEnd t c (match own with | some _ => some (d.cl t c).seq.atarget | none => tgt) slew d
    d.on (!(d.cl t c).seq.slewing) (arrived t c)

/-! ### Law (R82, R86, R89, R90, R97) -/

/-- R82: the measurement words. -/
def Cluster.measure (k : Cluster) : List Int :=
  (k.cells.map fun x => if x.missing then 0 else satS 16 (4 * (x.vcode : Int) - x.rho)) ++
  (k.cells.map fun x => if x.missing then 0 else satS 16 (divHE x.cur 4))

/-- R86: the prior state at an entry. -/
def entryPrior (y : List Int) : List Int :=
  y ++ [0, 1, 2, 3].map fun q => satS 16 (divHE (at0 y (8 + 2 * q) + at0 y (9 + 2 * q)) 2)

/-- R82, R86, R120: the prior state with preload, missing regulators' currents zeroed. -/
def Cluster.prior (k : Cluster) (y pre : List Int) : List Int :=
  mapI (fun i v =>
    let v := if 16 ≤ i then satS 16 (v + at0 pre (i - 16)) else v
    if 8 ≤ i ∧ i < 16 ∧ (k.cell (i - 8)).missing then 0 else v) 0 (if k.loop.entry then entryPrior y else k.loop.xp)

/-- R86: the bounds of a duty word while the entry limit is in force. -/
def Cluster.dutyLim (k : Cluster) (limit : Bool) : List (Int × Int) :=
  k.cells.map fun x => if limit then (max 0 ((x.duty : Int) - 16), min 767 ((x.duty : Int) + 16)) else (0, 767)

/-- The inputs of a state-space sample, from what is kept for a repeat (R97). -/
def VoteJob.input (j : VoteJob) : SampleIn :=
  { c := j.c, xp := j.xp, y := j.y, f := j.f, beta := j.beta, miss := j.miss, rep := j.rep, lim := j.lims }

/-- R90: a compensator history not in control. -/
def Cell.track (x : Cell) : Cell :=
  let e := if x.missing then 0 else satS 16 (x.rho - 4 * (x.vcode : Int))
  let u : Int := if x.missing then 0 else 4 * x.duty
  { x with cu := (u :: x.cu).take 3, ce := (e :: x.ce).take 3 }

/-- R91, R92 step 6: the duty words of the sample begun at slot start `S`, to be written 40 ns after it. -/
def writeWords (t c S : Nat) (ws : List Int) (d : Dev) : Dev :=
  d.onC t c fun k => { k with cells := mapI (fun i x => { x with wnext := some (S + 40, (at0 ws i).toNat) }) 0 k.cells
                              loop := { k.loop with lastW := ws.map Int.toNat } }

/-- R97, R98: the duty words of the cluster's sample before the present one: those that the Remontoire wrote, or those in force where it wrote none. -/
def Cluster.prevWords (k : Cluster) : List Nat := if k.loop.lastW.isEmpty then k.cells.map (·.duty) else k.loop.lastW

/-- R97: a sample that holds: it writes the duty words `ws` of an earlier one. -/
def holdWords (t c S : Nat) (ws : List Nat) (d : Dev) : Dev :=
  writeWords t c S (ws.map Int.ofNat) (d.onLoop t c fun l => { l with hold := true })

/-- R89: the words and history of a compensator sample. -/
def writeComp (t c S : Nat) (us e0 : List Int) (d : Dev) : Dev :=
  let d := d.onC t c fun k =>
    { k with cells := mapI (fun i x => { x with cu := (at0 us i :: x.cu).take 3, ce := (at0 e0 i :: x.ce).take 3 }) 0 k.cells
             loop := { k.loop with u0 := us } }
  writeWords t c S (us.map fun u => divHE u 4) d

/-- R92 steps 3 to 7: the words of a state-space sample. -/
def writeSample (t c S : Nat) (y : List Int) (o : SampleOut) (d : Dev) : Dev :=
  writeWords t c S o.d (d.onLoop t c fun l => { l with xp := o.xp, y := y, nu := o.nu, xc := o.xc, d := o.d, wv := o.w })

/-- Table 3-6: the instant after the slot start of compare point `cp` (0 to 3), at which the words of its stage are written back. -/
def cpAt (cp : Nat) : Nat := match cp with | 0 => 12 | 1 => 29 | 2 => 39 | _ => 47

/-- What a sample brings later takes its place in the order of time, behind what comes at the same instant. -/
def insertAct (a : Nat × SlotAct) : List (Nat × SlotAct) → List (Nat × SlotAct)
  | [] => [a]
  | b :: l => if a.1 < b.1 then a :: b :: l else b :: insertAct a l
def plan (t ns : Nat) (a : SlotAct) (d : Dev) : Dev := d.onRem t fun r => { r with acts := insertAct (ns, a) r.acts }

/-- The accumulators of a state-space sample by the compare point of their stage. -/
def SampleOut.stages (o : SampleOut) : List (Nat × List Acc) := [0, 1, 2, 3].map fun i => (i, o.accs.getD i [])

/-- Table 3-20: the saturation counts of a computed sample begun at `S`, each at the write-back of its stage (compare point `cp`); a missing regulator's word is
no clamp. DESIGN CHOICE (log 47): a sample that mismatches counts when its repeat writes its words, so one whose words stand from compare point 4 on counts
once, at the repeat. -/
def countSat (t c S : Nat) (es : List LaneDelta) (stages : List (Nat × List Acc)) (d : Dev) : Dev :=
  stages.foldl (fun d x =>
    let n := x.2.countP fun a => a.sat es && (x.1 != 2 || a.lo != a.hi)
    d.on (n != 0) (plan t (S + cpAt x.1) (if x.1 = 2 then .counts c n 0 else .counts c 0 n))) d

/-- R99: the job stands in the queue at `ns`; the vote lanes are busy with it. -/
def VoteJob.inQ (j : VoteJob) (ns : Nat) : Bool := decide (j.seen ≤ ns) && (match j.fin with | some e => decide (ns < e) | none => true)
def VoteJob.busy (j : VoteJob) (ns : Nat) : Bool := j.inQ ns && (j.own || j.fin.isSome)

/-- R99: the job's repeat has completed by `ns`. -/
def VoteJob.ended (j : VoteJob) (ns : Nat) : Bool := match j.fin with | some e => decide (e ≤ ns) | none => false

/-- R97, R99: what has come by `ns`: repeats that complete are counted and leave the queue, mismatches are counted from their compare points on. -/
def Rem.advance (r : Rem) (ns : Nat) : Rem :=
  { r with queue := r.queue.filter fun j => !j.ended ns
           votes := min 0xFFFF (r.votes + r.queue.countP (·.ended ns))
           mismatch := min 0xFFFF (r.mismatch + r.mmDue.countP (decide <| · ≤ ns))
           mmDue := r.mmDue.filter (decide <| ns < ·) }

/-- R99: clusters in the vote queue at `ns`, and whether the vote lanes compute. -/
def Rem.nQueue (r : Rem) (ns : Nat) : Nat := r.queue.countP (·.inQ ns)
def Rem.voting (r : Rem) (ns : Nat) : Bool := r.queue.any (·.busy ns)

/-- R97, R99: a mismatch joins the queue at its place by detection; vote lanes that are free then compute M2 for it. The sample that finds three clusters
in the queue at its own detection, `j` or one detected after it, is the one the queue does not take. -/
def Rem.enqueue (r : Rem) (j : VoteJob) : Rem × Option VoteJob :=
  let before := r.queue.filter fun q => q.seen ≤ j.seen
  let after := r.queue.filter fun q => j.seen < q.seen
  if 3 ≤ before.countP (·.inQ j.seen) then (r, some j)
  else
    let j' := { j with own := !before.any (·.busy j.seen) }
    let late := after.map fun q => if j'.own && q.fin.isNone then { q with own := false } else q
    let full := late.find? fun q => 3 ≤ (before ++ [j'] ++ late.filter fun p => p.seen < q.seen).countP (·.inQ q.seen)
    ({ r with queue := before ++ [j'] ++ (match full with | some q => late.filter (·.c != q.c) | none => late) }, full)

/-- R97, R99: a mismatch: the sample is kept for its repeat; a cluster that finds the queue full is handed over, and the fault is one of its detection. -/
def mismatch (t : Nat) (j : VoteJob) (d : Dev) : Dev :=
  let q := (d.tl t).rem.enqueue j
  let d := d.onRem t fun _ => { q.1 with mmDue := q.1.mmDue ++ [j.seen] }
  match q.2 with
  | some z => handDue t z.c 3 (z.start + 40) (plan t z.seen (.full z.c) d)
  | none => d

/-- R97, R132: the words of a sample that mismatches at compare point `cp` (0 to 3), as its record shows them: those of the stages up to that point. -/
def ClLoop.shows (l : ClLoop) (cp : Nat) (y : List Int) (o : SampleOut) : ClLoop :=
  let l := { l with y := y, nu := o.nu }
  let l := if 1 ≤ cp then { l with xc := o.xc } else l
  if cp = 3 then { l with d := o.d, wv := o.w } else l

/-- The law of an L or S cluster; the Bool says that the sample's innovations go to the supervisor (R97). -/
def stateSample (m : List Host.Cell) (t c S : Nat) (errs : List LaneDelta) (pre f : List Int) (d : Dev) : Bool × Dev :=
  let k := d.cl t c
  let r := (d.tl t).rem
  let y := k.measure
  let j : VoteJob := { c := c, xp := k.prior y pre, y := y, f := f, miss := k.cells.map (·.missing), slot := k.fus.slot
                       beta := k.cells.map (·.beta), pre := pre, rep := k.cells.map fun x => 0 < x.senseRep
                       lims := k.dutyLim (0 < k.loop.entryLeft), prev := k.prevWords, errs := errs, start := S, seen := S }
  let o := runSample (coefField m t k.fus.slot) j.input (fun a => a.word errs .M0)
  let dual := tst r.ctrlE 0 && !r.cmpFail
  match if dual then firstDiff errs o.accs else none with
  | none =>
    let d := countSat t c S errs o.stages (writeSample t c S y o d)
    (true, d.onLoop t c fun l => { l with hold := false })
  | some cp =>
    let d := mismatch t { j with seen := S + cpAt cp } d
    let d := d.onLoop t c fun l => l.shows cp y o
    (false, if cp = 3 then writeWords t c S o.d (d.onLoop t c fun l => { l with hold := false }) else holdWords t c S k.prevWords d)

/-- The law of a K or M cluster. -/
def compSample (m : List Host.Cell) (t c S : Nat) (errs : List LaneDelta) (d : Dev) : Bool × Dev :=
  let k := d.cl t c
  let r := (d.tl t).rem
  let miss := k.cells.map (·.missing)
  let e0 := k.cells.map fun x => if x.missing then 0 else satS 16 (x.rho - 4 * (x.vcode : Int))
  let accs := compAccs (compSet m t k.fus.slot) k.cells e0 miss
  let dual := tst r.ctrlE 0 && !r.cmpFail
  match if dual then firstDiff errs [accs] else none with
  | none =>
    let d := writeComp t c S (accs.map fun a => a.word errs .M0) e0 (countSat t c S errs [(2, accs)] d)
    (true, d.onLoop t c fun l => { l with hold := false, y := k.measure })
  | some _ =>
    let j : VoteJob := { c := c, xp := [], y := e0, f := [], miss := miss, slot := k.fus.slot, beta := [], pre := [], rep := [], lims := []
                         prev := k.prevWords, errs := errs, start := S, seen := S + cpAt 2 }
    (false, holdWords t c S k.prevWords (mismatch t j (d.onLoop t c fun l => { l with y := k.measure })))

/-! ### What comes later in a slot (Table 3-6, R98, R104) -/

/-- R104, Table 3-11: what the verdict of a repeat begun at `S` does besides the words, 47 ns after the slot start; hand-overs fall due at its write. -/
def verdictActs (t c S : Nat) (l : List VItem) (d : Dev) : Dev :=
  match verdict l with
  | .transient => raise 2 0 (.cluster t c) 0 d
  | .halfB => repeatable t c (S + 40) .M1 l d
  | .halfA => repeatable t c (S + 40) .M0 l d
  | .interm => intermittent t c (S + 40) (S + 47) l d
  | .threeway => handDue t c 2 (S + 40) (raise 2 3 (.cluster t c) (d.tl t).rem.locate d)

/-- Table 3-6, R104: what a sample has brought. -/
def slotAct (t : Nat) (a : SlotAct) (d : Dev) : Dev :=
  match a with
  | .verdict c S l => verdictActs t c S l d
  | .counts c n k => d.onLoop t c fun l => { l with dclamp := min 0xFFFF (l.dclamp + n), wsat := min 0xFFFF (l.wsat + k) }
  | .full c => raise 2 4 (.cluster t c) (d.tl t).rem.locate d
  | .innov c y nu => supervise t c y nu d

/-- R103: the hand-overs of a verdict fall due at its write, before its other effects: block `e` shows them. -/
def takeHands (t : Nat) (e : Dev) (d : Dev) : Dev :=
  d.onT t fun x => x.mapC fun c k => { k with loop := { k.loop with handDue := (e.cl t c).loop.handDue } }

/-- What the samples of the tiles `ts` bring by `ns`, by tile, in the order of time. -/
def Dev.actsDue (d : Dev) (ns : Nat) (ts : List Nat) : List (Nat × Nat × SlotAct) :=
  ts.foldl (fun l t => ((d.tl t).rem.acts.filter (decide <| ·.1 ≤ ns)).foldl (fun l a =>
    l.filter (decide <| ·.1 ≤ a.1) ++ (a.1, t, a.2) :: l.filter (decide <| a.1 < ·.1)) l) []

/-- R346: the records of one instant are taken before those of a later one. -/
def runActs (l : List (Nat × Nat × SlotAct)) (d : Dev) : Dev :=
  (l.foldl (fun (r : Nat × Dev) a => (a.1, slotAct a.2.1 a.2.2 (if r.1 = a.1 then r.2 else (takeOffers r.2).offering))) (0, d)).2

/-- R92 step 7, R97, R99, R104: what the samples of the tiles `ts` have still to bring and is due by `ns`: the counts, and what each brings at its instant. -/
def catchUp (ns : Nat) (ts : List Nat) (d : Dev) : Dev :=
  let l := d.actsDue ns ts
  let d := ts.foldl (fun d t => d.onRem t fun r => { r.advance ns with acts := r.acts.filter (decide <| ns < ·.1) }) d
  d.on (!l.isEmpty) fun d => takeOffers (runActs l d)

/-! ### One slot of a cluster -/

/-- R103, R110, R116: the cluster passes from the fall-back compensators to the Remontoire at this sample. -/
def takeOver (t c : Nat) (d : Dev) : Dev :=
  let d := d.onLoop t c fun l => if l.retDue then { l with retDue := false, handed := false } else l
  let x := d.tl t
  let k := d.cl t c
  if k.loop.fb && !x.wantsFb k && !x.fus.runDue then
    takeRec { code := 0x0221, sub := 2, tile := t, cluster := c } (d.onLoop t c fun l => { l with fb := false, entry := true })
  else d

/-- R85: what every slot of a cluster does before the law: latches, fields in force, region and set, sheds and adds. The answer holds
the words of R145 for the law: preload and feedforward are the same sum. -/
def sampleFront (m0 : List Host.Cell) (old : Dev) (m : List Host.Cell) (t c : Nat) (d : Dev) : List Int × Dev :=
  let S := d.slotStart c
  let was := (d.cl t c).seq.stE
  let d := adoptFields t c S (catchUp S [t] (d.at S))
  let d := d.on (!(d.cl t c).quiet) (runAllHeld t c)
  let d := settleAt m0 old m t c d
  let d := startTrans m0 old m t c (moveAt t c d)
  let d := setAt t c (regionAt t c S (takeOver t c d))
  let i := inject t c S (d.onSeq t c fun q => { q with stE := q.st })
  let toA := (was == .B1 || was == .B2) && (i.2.cl t c).seq.stE == .A
  (i.1.words, shedSample t c i.1.steps toA (pushLatches t c S i.2))

/-- What every slot ends with: the check for stuck comparators, after the law has used what the slot start latched (R85, R258), the sample's
number, the entry limit, SENSEREP. -/
def sampleEnd (t c : Nat) (entryTo : Bool) (d : Dev) : Dev :=
  (stuckCheck t c d).onC t c fun k =>
    { k with loop := { k.loop with seq := (k.loop.seq + 1) % 4096, entryLeft := k.loop.entryLeft - 1, entry := k.loop.entry && entryTo }
             cells := k.cells.map fun x => { x with senseRep := x.senseRep - 1 } }

/-- R145: words of edges kept for the cluster's next computed sample. -/
def carryWords (t c : Nat) (ws : List Int) (d : Dev) : Dev := d.onLoop t c fun l => { l with carry := addQ l.carry ws }

/-- R97, R99: a repeat of the cluster is still to come. -/
def Rem.waits (r : Rem) (c : Nat) : Bool := r.queue.any fun j => j.c == c && j.fin.isNone

/-- A sample of the cluster that waits for its repeat leaves the queue without one. DESIGN CHOICE (log 46): so it does at the first slot at which the
Remontoire does not write the cluster's words, a case R99 does not name. -/
def voteDrop (t c : Nat) (d : Dev) : Dev := d.onRem t fun r => { r with queue := r.queue.filter fun j => !(j.c == c && j.fin.isNone) }

/-- R90, R145, R168: a slot at which the Remontoire does not write the cluster's words: a compensator history tracks, the edges' words fall away, the cluster
leaves the vote queue. From code 0 upward the first sample is an entry. -/
def passOver (t c : Nat) (d : Dev) : Dev :=
  let d := d.onC t c fun k =>
    { k with cells := if isLS c then k.cells else k.cells.map Cell.track
             loop := { k.loop with carry := [0, 0, 0, 0], pre := [0, 0, 0, 0], fq := [0, 0, 0, 0], hold := false, lastW := []
                                   entry := k.loop.entry || decide (k.seq.ref < 600000) } }
  sampleEnd t c true (traceRecord t c false false (voteDrop t c d))

/-- R82 to R99: one sample of a cluster. Its innovations reach the supervisor at step 7. DESIGN CHOICE (log 118): its record, of the same step, is made before
the supervisor's checks. -/
def clusterSample (m0 : List Host.Cell) (old : Dev) (m : List Host.Cell) (t c : Nat) (errs : List LaneDelta) (d : Dev) : Dev :=
  if !d.hasC t c then d
  else
    let S := d.slotStart c
    let fr := sampleFront m0 old m t c d
    let d := fr.2
    let x := d.tl t
    let k := d.cl t c
    let computes := !k.loop.fb && k.loop.outOn && decide (600000 ≤ k.seq.ref) && k.fus.slot != 0x3F
    -- the fall-back compensators, or the open-loop ramp, write the words
    if !computes then passOver t c d
    else if x.rem.waits c then
      sampleEnd t c true (traceRecord t c true false (holdWords t c S k.prevWords (carryWords t c fr.1 d)))
    else
      let ws := (addQ fr.1 k.loop.carry).map (satS 16)
      let d := d.onLoop t c fun l =>
        { l with carry := [0, 0, 0, 0], pre := ws, fq := ws, entryLeft := if l.entry && isLS c then 8 else l.entryLeft }
      let r := if isLS c then stateSample m t c S errs ws ws d else compSample m t c S errs d
      let d := r.2
      let d := traceRecord t c (d.cl t c).loop.hold false d
      let d := sampleEnd t c false d
      d.on r.1 fun d => plan t (S + 47) (.innov c (d.cl t c).loop.y (d.cl t c).loop.nu) d

/-! ### The repeat (R98) -/

/-- R98: a word's majority; where there is none, M0's. -/
def votePick (es : List LaneDelta) (a : Acc) : Int := (majority (a.word es .M0) (a.word es .M1) (a.word es .M2)).getD (a.word es .M0)

/-- R99: the cluster's waiting sample, where the vote lanes are free for its repeat at `S`: they compute M2 for it already, or for none. -/
def Rem.turn (r : Rem) (c S : Nat) : Option VoteJob :=
  match r.queue.find? fun j => j.c == c && j.fin.isNone with
  | some j => if j.own || !r.queue.any (fun q => q.c != c && q.busy S) then some j else none
  | none => none

/-- R99: the repeat of cluster `c` takes the slot at `S`: the vote lanes are its own until it completes, the predicted state written back (Table 3-6); a
mismatch detected from here on waits. -/
def Rem.begin (r : Rem) (c S : Nat) : Rem :=
  { r with queue := r.queue.map fun q => if q.c == c then { q with fin := some (S + 47) } else if S < q.seen then { q with own := false } else q }

/-- R98, Table 3-11: a three-way disagreement writes the words of the sample before the mismatched one again. -/
def writePrev (t c S : Nat) (j : VoteJob) (d : Dev) : Dev := holdWords t c S j.prev d

/-- R98: M0 and M1 recompute the kept sample and M2 completes it: the items on which they differ, and the block with the words written. -/
def recompute (m : List Host.Cell) (t c S : Nat) (errs : List LaneDelta) (j : VoteJob) (d : Dev) : List VItem × Dev :=
  let go := d.onLoop t c fun l => { l with hold := false }
  if isLS c then
    let o := runSample (coefField m t j.slot) j.input (votePick errs)
    let items := (o.accs.flatten.map fun a => a.items errs j.errs).flatten
    (items, if verdict items = .threeway then writePrev t c S j d
            else countSat t c S [] o.stages (writeSample t c S j.y o go))
  else
    let accs := compAccs (compSet m t j.slot) (d.cl t c).cells j.y j.miss
    let items := (accs.map fun a => a.items errs j.errs).flatten
    (items, if verdict items = .threeway then writePrev t c S j d
            else countSat t c S [] [(2, accs)] (writeComp t c S (accs.map (votePick errs)) j.y go))

/-- R98, R99: the repeat of the cluster's mismatched sample takes this slot; where the vote lanes are not free, the cluster holds. -/
def voteRepeat (m0 : List Host.Cell) (old : Dev) (m : List Host.Cell) (t c : Nat) (errs : List LaneDelta) (d : Dev) : Dev :=
  let S := d.slotStart c
  match (d.tl t).rem.turn c S with
  | none => clusterSample m0 old m t c errs d
  | some j =>
    let fr := sampleFront m0 old m t c d
    let d := carryWords t c fr.1 fr.2
    let k := d.cl t c
    if k.loop.fb || !k.loop.outOn then passOver t c d
    else
      let it := recompute m t c S errs j (d.onRem t fun r => r.begin c S)
      let d := sampleEnd t c true (traceRecord t c (it.2.cl t c).loop.hold true it.2)
      trcTile t 4 (S + 47) (plan t (S + 47) (.verdict c S it.1) (takeHands t (verdictActs t c S it.1 d) d))

/-! ### Stall (R259), register writes (R108 to R110), self-test (R106) -/

/-- R259: two consecutive write instants have passed with no word, of a cluster that answers or, isolated, still regulates (R246). -/
def loopStall (t c : Nat) (d : Dev) : Dev :=
  d.on (d.hasC t c && (!(d.cl t c).isolated || (d.cl t c).loop.outOn) && !(d.cl t c).loop.fb) fun d =>
    handDue t c 5 d.clk.now (raise 2 16 (.cluster t c) 0 d)

/-- R110: what a RETURN answers. -/
def returnStatus (t c : Nat) (d : Dev) : Nat :=
  let k := d.cl t c
  if !d.live t c then 3
  else if k.quiet then 7
  else if !k.loop.handed || (d.tl t).rem.halted then 2
  else 0

/-- R110: an accepted RETURN takes effect at the cluster's next sample. -/
def returnTo (t c : Nat) (d : Dev) : Dev := d.onLoop t c fun l => { l with retDue := true, handDue := none }

/-- Table 3-9: the lowest global index that a lane carries, with its mapping. -/
def laneFirst (lane : Nat) : Mapping × Nat :=
  if lane < 480 then (.M0, lane) else if lane < 512 then (.M2, lane - 480) else (.M1, (lane - 512 + 239) % 480)

/-- R101, R106: a lane that fails the self-test; where it is not replaced, LOOP_LOCATE reports it. DESIGN CHOICE (log 97): by the lowest partial it carries. -/
def bistLane (t : Nat) (lane : Nat) (d : Dev) : Dev :=
  let g := laneFirst lane
  let d := d.on (!tst (d.tl t).rem.ctrlE 1) (locate t (g.2 / 160) (g.2 % 160) g.1 lane)
  (remapLane t lane d.clk.now d).2

/-- R106: the outcome of the array self-test: failing lanes are remapped, failing spares are never used. -/
def bistDone (t : Nat) (failing : List Nat) (d : Dev) : Dev :=
  let isSpare := fun l => 992 ≤ l && l < 1024
  let d := d.onRem t fun r => { r with badSpares := failing.filter isSpare, bist := if failing.isEmpty then 2 else 3 }
  let d := d.on (!failing.isEmpty) (raise 2 7 (.tile t) 0)
  (failing.filter fun l => l < 1024 && !isSpare l).foldl (fun d l => bistLane t l d) d

/-! ### Meanings -/

/-- CLUSTER_SAMPLE (R82 to R92, R119 to R131, R177, R179). -/
def execClusterSample (t c : Nat) (errs : List LaneDelta) (s : State) : Host.Outcome State Fault Refusal :=
  fin s (clusterSample s.mem s.dev s.mem t c errs s.dev)

/-- VOTE_REPEAT (R98 to R102). -/
def execVoteRepeat (t c : Nat) (errs : List LaneDelta) (s : State) : Host.Outcome State Fault Refusal :=
  fin s (voteRepeat s.mem s.dev s.mem t c errs s.dev)

/-- LOOP_STALL (R259). -/
def execLoopStall (t c : Nat) (s : State) : Host.Outcome State Fault Refusal := fin s (loopStall t c s.dev)

/-- ARRAY_SELFTEST_DONE (R106). -/
def execArraySelftestDone (t : Nat) (failing : List Nat) (s : State) : Host.Outcome State Fault Refusal :=
  fin s (s.dev.on (s.dev.hasT t) (bistDone t failing))

end Sys2Proof.Machine
end

