-- ==== Sys2Proof/Machine/Fusee.lean ====
section
/-!
DEFINITION. Sys2Proof/Machine/Fusee.lean: the outer loop, bands, regions and margins (R117 to R127), the compare self-test (R105), measured
power and the energy count (R198, R203, R204), and the Fusee's store and commands (R112 to R116).
-/
namespace Sys2Proof.Machine

/-! ### Working copies (R115, R117, R126) -/

/-- R260, Table 9-5: a block of the store holds a word beyond correction: the working copy of it is kept. -/
def Fus.keeps (x : Fus) (o n : Nat) : Bool := x.badOffs.any fun b => o ≤ b && b < o + n

/-- R260: a store word is written: what it held no longer counts. -/
def Fus.mends (x : Fus) (o : Nat) : Fus := { x with badOffs := x.badOffs.filter (· != o / 4 * 4) }

/-- The map bytes of a store. -/
def mapBytes (m : List Host.Cell) (t : Nat) : List Nat := (Mem.readL m (storeBase t + 0xF080) 256).map (·.toNat)

/-- R121, R260: the map that a working copy takes from the store, but for the domains whose copy is kept. -/
def Fus.mapFrom (x : Fus) (l : List Nat) : List Nat :=
  mapI (fun i b => if x.keeps (0xF080 + 64 * (i / 64)) 64 then x.map.getD i 0xFF else b) 0 l

def readWords (m : List Host.Cell) (a n : Nat) : List Word := (List.range n).map fun k => Mem.readW m (a + 4 * k)

/-- R117: bounds that strictly ascend. -/
def bandAscends (b : List Word) : Bool :=
  let w0 := b.getD 0 0
  let w1 := b.getD 1 0
  fld w0 9 0 < fld w0 19 10 && fld w0 19 10 < fld w0 29 20 && fld w1 7 0 < fld w1 15 8 && fld w1 15 8 < fld w1 23 16

/-- R117: one domain's band block adopted, or reported once; the working copy of one with a word beyond correction is kept (R260). -/
def adoptBand (m : List Host.Cell) (t D : Nat) (d : Dev) : Dev :=
  let b := readWords m (storeBase t + 0xF180 + 16 * D) 4
  if (d.tl t).fus.keeps (0xF180 + 16 * D) 16 then d
  else if bandAscends b then d.onTFus t fun x => { x with bands := x.bands.set D b, badBand := x.badBand.set D [] }
  else if (d.tl t).fus.badBand.getD D [] = b then d
  else raise 3 6 (.tile t) 0 (d.onTFus t fun x => { x with badBand := x.badBand.set D b })

/-- R115, R117, R126: what a tile adopts from its store at an outer boundary. -/
def adoptStore (m : List Host.Cell) (t : Nat) (d : Dev) : Dev :=
  let d := [0, 1, 2, 3].foldl (fun d D => adoptBand m t D d) d
  d.onTFus t fun x =>
    { x with map := x.mapFrom (mapBytes m t)
             trims := (List.range 18).map fun c =>
               if x.keeps (0xF200 + 32 * c) 32 then x.trims.getD c [] else readWords m (storeBase t + 0xF200 + 32 * c) 8 }

/-! ### Bands (R117) -/

/-- R117: a band with hysteresis over three rising bounds. -/
def bandOf (b1 b2 b3 hys q : Int) (first : Bool) (band : Nat) : Nat :=
  let ge := [b1, b2, b3].countP fun b => decide (b ≤ q)
  if first then ge
  else if band < ge then ge
  else min band ([b1, b2, b3].countP fun b => decide (b - hys ≤ q))

/-- R117: the load quantity, 1/2 mA. -/
def loadQ (iq icl : Int) (ldrel : Nat) : Int := if iq ≤ 2 * icl then 2 * icl else max (2 * icl) (iq - 125 * ldrel)

/-- R117, R119: bands and selected region of a cluster. -/
def bandsAt (b : List Word) (c : Nat) (icl rs temp : Int) (f : ClFus) : ClFus :=
  let w0 := b.getD 0 0
  let w1 := b.getD 1 0
  let w2 := b.getD 2 0
  let first := !f.seen
  let iq := loadQ f.iq icl (fld w2 23 16)
  let s := bandOf (4 * fld w0 9 0) (4 * fld w0 19 10) (4 * fld w0 29 20) (4 * fld w2 3 0) rs first f.bandS
  let i := bandOf (500 * fld w1 7 0) (500 * fld w1 15 8) (500 * fld w1 23 16) (500 * fld w1 31 24) iq first f.bandI
  let tb : Int := fld w2 11 4
  let tt := if tb ≤ temp then 1 else if temp < tb - (fld w2 15 12 : Int) then 0 else f.bandT
  { f with seen := true, iq := iq, bandS := s, bandI := i, bandT := tt, sel := if isLS c then 16 * tt + 4 * s + i else tt }

/-! ### Outer loop (R125, R127) -/

/-- R127: the margin target of a domain. -/
def MargDev.target (m : MargDev) (dm : Domain) : Int :=
  match fld m.cfg (2 * domCode dm + 1) (2 * domCode dm) with
  | 1 => divHE (((m.aval : Int) - 2048) * 160) 2048
  | 2 => m.mtp
  | _ => 0

def Cell.imean (x : Cell) : Int := divHE (sumI (x.latches.map (·.ima))) 8
def Cell.vmean (x : Cell) : Int := max 100 (divHE (sumI (x.latches.map fun l => (l.vin : Int))) 8)
/-- Missing at the latest slot start. -/
def Cell.missLast (x : Cell) : Bool := match x.latches with | l :: _ => l.miss | [] => x.missing

/-- R125: the outer loop of one cluster; `tr` is its trim block, `mt` its margin target. -/
def outerCluster (tr : List Word) (mt mslew : Int) (b : List Word) (O c : Nat) (k : Cluster) : Cluster :=
  let w0 := tr.getD 0 0
  let w1 := tr.getD 1 0
  let icl := sumI (k.cells.map Cell.imean)
  let n := k.cells.countP fun x => !x.missLast
  let ll := divHE (fld w0 15 0 * icl) 65536
  let imn := if n = 0 then 0 else divHE icl n
  let db : Int := 10 * fld w1 23 16
  let shmax : Int := fld w1 15 8
  let mg := if k.quiet then k.fus.mg else k.fus.mg + clampI (-mslew) mslew (mt - k.fus.mg)
  let tc := if k.quiet then k.fus.tc else divHE (sgn 8 (fld w0 31 24) * (k.thm.temp - (fld w1 7 0 : Int))) 16
  let rs := k.seq.rs
  let lo : Int := 4 * codeLo (domOf c)
  let hi : Int := 4 * codeHi (domOf c)
  let boff := sgn 8 (fld w0 23 16)
  let cells := k.cells.map fun x =>
    let im := x.imean
    let sh := if x.missLast then 0 else if im < imn - db then min (x.sh + 1) shmax else if imn + db < im then max (x.sh - 1) (-shmax) else x.sh
    let rho := clampI lo hi (rs - ll + sh + mg + tc)
    { x with sh := sh, rhoN := rho, betaN := clampI 0 3068 (divHE (96 * (960 + rho)) x.vmean.toNat + boff) }
  { k with cells := cells
           fus := { bandsAt b c icl rs k.thm.temp k.fus with mg := mg, tc := tc, icl := icl, icls := k.fus.icls ++ [icl], due := some (O + 48),
                                                                 rel := k.fus.rel.filter fun r => decide (r.1 < O) } }

/-! ### Measured power, device power, energy (R198, R203, R204) -/

/-- R198: measured power of a cluster, mW. -/
def measuredPower (k : Cluster) : Int :=
  let term := fun (x : Cell) =>
    let on := x.latches.filter fun l => !l.miss
    if on.isEmpty then 0 else (240 + divHE (sumI (on.map fun l => (l.vcode : Int))) on.length) * x.imean
  max 0 (divHE (sumI (k.cells.map term)) 800)

def BudDev.lossf (b : BudDev) : Nat := fld b.loss 31 16
def BudDev.fixed (b : BudDev) : Nat := fld b.loss 15 0
def BudDev.psrc (b : BudDev) : Bool := tst b.ctrl 0

/-- R203: device power from a sum of cluster powers, mW. -/
def BudDev.devPower (b : BudDev) (sum : Int) : Int := divHE (sum * (65536 + b.lossf : Nat)) 65536 + 1000 * (b.fixed : Int)

/-- R204: the energy count advances by `p` mW over `dt` ns. -/
def BudDev.addEnergy (b : BudDev) (p : Int) (dt : Nat) : BudDev :=
  let r := b.res + p.toNat * dt
  { b with energy := (b.energy + r / 1000000) % 2 ^ 64, res := r % 1000000 }

/-- R105: the compare self-test of one tile; a miss is reported once. -/
def compareTest (t : Nat) (missed : Bool) (d : Dev) : Dev :=
  let r := (d.tl t).rem
  if !tst r.ctrlE 0 || !tst r.ctrl 2 || r.cmpFail then d
  else
    let d := d.onRem t fun r => { r with cmpNext := (r.cmpNext + 1) % 4, cmpFail := missed }
    d.on missed (raise 2 6 (.tile t) 0)

/-- The Fusee's and the budget unit's part of an outer boundary, whose count has advanced. -/
def outerTiles (m : List Host.Cell) (missed : List Nat) (d : Dev) : Dev :=
  let O := 384 * d.clk.outer
  let d := d.eachT fun t d => (compareTest t (missed.contains t) (adoptStore m t d)).onT t fun x =>
    { x with fmaxOld := [], esc := { x.esc with fbndlE := x.esc.fbndl, fbndsE := x.esc.fbnds } }
  let d := d.mapT fun _ x => x.mapC fun c k =>
    if !k.present then k else
    let D := domCode (domOf c)
    let k := outerCluster (x.fus.trims.getD c []) (d.marg.target (domOf c)) (fld d.marg.cfg 15 8) (x.fus.bands.getD D []) O c k
    let p := measuredPower k
    { k with bud := { k.bud with pms := k.bud.pms ++ [p], pmNow := p } }
  let d := d.eachC bandEval
  let d := if d.bud.psrc then d else
    let p := d.bud.devPower (sumI (d.allC.map fun q => (d.cl q.1 q.2).bud.pmNow))
    { d with bud := d.bud.addEnergy p 384 }
  d.eachT admission

/-! ### The store (R112 to R116) -/

/-- Base offset of a slot. -/
def slotOff (s : Nat) : Nat := if s < 20 then 0xC00 * s else 0xF000 + 32 * (s - 20)

/-- The slot a store offset lies in. -/
def slotAt (o : Nat) : Option Nat := if o < 0xF000 then some (o / 0xC00) else if o < 0xF080 then some (20 + (o - 0xF000) / 32) else none

/-- The domains present in a tile. -/
def Tile.domains (x : Tile) : List Domain := [Domain.L, .S, .K, .M].filter fun dm => x.clsOn.any fun c => domOf c == dm
/-- Regions of a domain. -/
def regions (dm : Domain) : Nat := match dm with | .L | .S => 36 | _ => 2
/-- The map byte of a region. -/
def mapAt (m : List Host.Cell) (t D r : Nat) : Nat := (Mem.read m (storeBase t + 0xF080 + 64 * D + r)).toNat

/-- R114: a slot is live. -/
def slotLive (m : List Host.Cell) (x : Tile) (t s : Nat) : Bool :=
  (x.domains.any fun dm => (List.range (regions dm)).any fun r => mapAt m t (domCode dm) r == s) ||
  x.clsOn.any fun c => (x.clusters.getD c {}).fus.slot == s

/-- FUS_STAT.MAPOK. -/
def mapOk (m : List Host.Cell) (x : Tile) (t : Nat) : Bool :=
  x.domains.all fun dm => (List.range (regions dm)).all fun r => mapAt m t (domCode dm) r < 24

/-- R114: a store offset lies in a live slot. -/
def offLive (m : List Host.Cell) (x : Tile) (t o : Nat) : Bool := match slotAt o with | some s => slotLive m x t s | none => false
def offMap (o : Nat) : Bool := 0xF080 ≤ o && o < 0xF180

/-- R114: bytes written to a store from offset `o` on: memory, block, and whether one fell in a live slot or the region map. Bytes of a live slot, of the map
and of the reserved end are dropped; a dropped write to a live slot is one fault. -/
def storeBytes (t o : Nat) (l : List Byte) (m : List Host.Cell) (d : Dev) : List Host.Cell × Dev × Bool :=
  let x := d.tl t
  let ps := mapI (fun i (p : Nat × Byte) => (o + i, p.2)) 0 (l.map fun b => (0, b))
  let kept := ps.filter fun p => !offLive m x t p.1 && !offMap p.1 && p.1 < 0xF440
  let d := d.onTFus t fun y =>
    kept.foldl (fun y p => y.mends p.1) { y with valid := kept.foldl (fun v p => match slotAt p.1 with | some s => v.set s false | none => v) y.valid }
  (kept.foldl (fun m p => Mem.write m (storeBase t + p.1) p.2) m,
   d.on (ps.any fun p => offLive m x t p.1) (raise 3 7 (.tile t) 0),
   ps.any fun p => offLive m x t p.1 || offMap p.1)

/-- A header word of a slot. -/
def slotWord (m : List Host.Cell) (t s k : Nat) : Word := Mem.readW m (storeBase t + slotOff s + 4 * k)

/-- R114: COMMIT finds the slot fit. -/
def commitOk (m : List Host.Cell) (t s : Nat) : Bool :=
  let h := slotWord m t s 0
  if s < 20 then
    fld h 7 0 == 1 && fld h 9 8 ≤ 1 && 6 ≤ fld h 13 10 && fld h 13 10 ≤ 8 && fld h 31 14 == 0 && slotWord m t s 2 == 0
  else
    fld h 7 0 == 2 && fld h 31 10 == 0 &&
    (List.range 7).all fun j => let w := slotWord m t s (j + 1); fld w 31 18 == (if tst w 17 then 0x3FFF else 0)

/-- R115: the slots' C, A and B sections are the same. -/
def sameModel (F G : Nat) : Bool :=
  F % 2 ^ (18 * 320) == G % 2 ^ (18 * 320) && F / 2 ^ (18 * 800) % 2 ^ (18 * 560) == G / 2 ^ (18 * 800) % 2 ^ (18 * 560)

/-- R115: the status of a map write. -/
def mapStatus (m : List Host.Cell) (x : Tile) (t s D r : Nat) : Nat :=
  let dm := domOfCode D
  if regions dm ≤ r then 1
  else if s = 0x1F then (if x.fus.run then 2 else 0)
  else
    let ls := match dm with | .L | .S => true | _ => false
    let h := slotWord m t s 0
    let nreg := if r < 32 then 8 else if r < 34 then 7 else 6
    if !(x.fus.valid.getD s false) || (s < 20) != ls then 2
    else if fld h 9 8 != D then 2
    else if ls && fld h 13 10 != nreg then 2
    else if ls && r < 32 && (List.range 32).any fun q =>
        let p := mapAt m t D q
        q != r && p < 20 && p != s && !sameModel (coefField m t s) (coefField m t p) then 2
    else 0

/-- R116: the Fusee command running completes. -/
def fusComplete (m : List Host.Cell) (t : Nat) (d : Dev) : List Host.Cell × Dev :=
  let x := d.tl t
  let done := fun (st : Nat) (f : Fus → Fus) (d : Dev) => d.onTFus t fun y => f { y with cmd := none, status := st }
  match x.fus.cmd with
  | none => (m, d)
  | some (.commit s) => (m, if commitOk m t s then done 0 (fun y => { y with valid := y.valid.set s true }) d else done 1 id d)
  | some (.invalidate s) =>
    (m, if slotLive m x t s then done 4 id d else done 0 (fun y => { y with valid := y.valid.set s false }) d)
  | some (.mapw s D r) =>
    let st := mapStatus m x t s D r
    if st = 0 then (Mem.write m (storeBase t + 0xF080 + 64 * D + r) (BitVec.ofNat 8 (if s = 0x1F then 0xFF else s)),
      done 0 (·.mends (0xF080 + 64 * D + r)) d)
    else (m, done st id d)

/-- R116: the register write that starts a Fusee command: its status. -/
def fusCmdStatus (x : Tile) (v : Word) : Nat :=
  if fld v 9 8 = 0 ∨ fld v 9 8 = 3 ∨ 23 < fld v 4 0 then 1 else if x.fus.cmd.isSome then 4 else 0
def fusMapStatus (x : Tile) (v : Word) : Nat := if 24 ≤ fld v 12 8 ∧ fld v 12 8 ≤ 30 then 1 else if x.fus.cmd.isSome then 4 else 0
def fusCmdStart (t : Nat) (v : Word) (d : Dev) : Dev :=
  d.onTFus t fun x => { x with cmd := some (if fld v 9 8 = 1 then .commit (fld v 4 0) else .invalidate (fld v 4 0)) }
def fusMapStart (t : Nat) (v : Word) (d : Dev) : Dev :=
  d.onTFus t fun x => { x with cmd := some (.mapw (fld v 12 8) (fld v 7 6) (fld v 5 0)) }

/-- R116: the status of a write of FUS_CTRL. -/
def runStatus (m : List Host.Cell) (x : Tile) (t : Nat) (v : Word) : Nat :=
  if tst v 0 then (if x.fus.run || mapOk m x t then 0 else 2) else if x.fus.run then 2 else 0

/-- R116, R149: RUN accepted: the image's sets are in use from the next period boundary. -/
def runStart (m : List Host.Cell) (t : Nat) (d : Dev) : Dev :=
  if (d.tl t).fus.run then d
  else
    let map := (d.tl t).fus.mapFrom (mapBytes m t)
    setTrust t (d.tl t).esc.tinit (d.onT t fun x =>
      { x.mapC (fun c k => { k with fus := { k.fus with use := k.fus.sel, rel := none, slots := (map.drop (64 * domCode (domOf c))).take 64 } }) with
        fus := { x.fus with run := true, runDue := true, map := map } })

/-- R123: the status of a write to FUS_CLCTL, or a TBLSEL. -/
def clctlStatus (d : Dev) (t c : Nat) (v : Word) : Nat :=
  if (if isLS c then 31 else 1) < fld v 5 0 then 1
  else if !d.live t c then 3
  else if (d.cl t c).quiet then 7
  else if !(d.tl t).fus.run then 2
  else 0
def clctlPut (t c : Nat) (v : Word) (d : Dev) : Dev := d.onFus t c fun f => { f with clctl := v &&& 0x33F }

/-! ### Margin inputs (R127) -/

/-- R127: MARGIN_A is converted, at an input of `uv` microvolts. -/
def marginA (uv : Nat) (d : Dev) : Dev := { d with marg := { d.marg with aval := min 4095 (uv * 4096 / 1200000) } }

/-- R127: the high time of one MARGIN_P period. -/
def marginP (high : Nat) (d : Dev) : Dev :=
  let h := min 2000 high
  { d with marg := { d.marg with phigh := h, ploss := false, mtp := divHE (((h : Int) - 1000) * 160) 1000 } }

/-- MARGIN_P_PERIOD (R127). -/
def execMarginPPeriod (high : Nat) (s : State) : Host.Outcome State Fault Refusal := fin s (marginP high s.dev)

/-- MARGIN_P_LOSS (R127): no rising edge for two ticks. -/
def execMarginPLoss (s : State) : Host.Outcome State Fault Refusal :=
  fin s { s.dev with marg := { s.dev.marg with ploss := true, mtp := 0 } }

/-- FUS_COMMAND_COMPLETE (R114 to R116). -/
def execFusCommandComplete (t : Nat) (s : State) : Host.Outcome State Fault Refusal :=
  let r := fusComplete s.mem t s.dev
  finM s r.1 r.2

end Sys2Proof.Machine
end

