-- ==== Sys2Proof/Machine/Thermal.lean ====
section
/-!
DEFINITION. Sys2Proof/Machine/Thermal.lean: the thermal monitor (R229 to R242).
-/
namespace Sys2Proof.Machine

/-! ### Fields in force (Table 8-4) -/

def ThmDev.warnT (x : ThmDev) : Int := 16 * (fld x.cfgE 15 8 : Int)
def ThmDev.thrT (x : ThmDev) : Int := 16 * (fld x.cfgE 23 16 : Int)
def ThmDev.shutT (x : ThmDev) : Int := 16 * (fld x.cfgE 31 24 : Int)
def ThmDev.repl (x : ThmDev) : Int := 16 * (fld x.tcfgE 4 0 : Int)

/-- R230: a reading from a raw code. -/
def ClThm.reading (x : ClThm) (raw : Nat) : Int := divHE (((raw : Int) - (fld x.clcalE 31 20 : Int)) * (fld x.clcalE 15 0 : Int)) 4096 + 400

/-- R232: the neighbours whose diodes are not broken. -/
def Dev.sound (d : Dev) (t c : Nat) : List (Nat × Nat) := (d.neighbours t c).filter fun p => !(d.cl p.1 p.2).thm.broken

/-! ### Tests (R232 to R234) -/

/-- What one evaluation finds of one diode: whether each test is met, whether it has a cross-check, the neighbour median. -/
structure DiodeTest where
  dis : Bool
  rate : Bool
  cross : Bool
  med : Int

/-- R233: the tests of one cluster, by readings. -/
def diodeTest (d : Dev) (t c : Nat) : DiodeTest :=
  let x := (d.cl t c).thm
  let ns := (d.sound t c).map fun p => (d.cl p.1 p.2).thm.read
  let med := match ns with | [] => Config.noMedian x.read | l => lowerMedian l
  let cross := 2 ≤ ns.length
  { dis := cross && decide (16 * (fld d.thm.brkE 23 16 : Int) < ((x.read - med).natAbs : Int))
    rate := match x.prev with
      | some p => decide (16 * (fld d.thm.brkE 15 8 : Int) < ((x.read - p).natAbs : Int))
      | none => false
    cross := cross, med := med }

/-- R233, R234: the runs of one diode and whether it is declared broken or sound again; `n` and `m` are XCNT and RCNT. -/
def ClThm.judge (x : ClThm) (r : DiodeTest) (n m : Nat) : ClThm :=
  let x := { x with noxchk := !r.cross }
  if x.broken then
    match x.retest with
    | none => x
    | some k => if r.dis || r.rate then { x with retest := some 0 }
                else if 16 ≤ k + 1 then { x with broken := false, retest := none, disRun := 0, rates := [] }
                else { x with retest := some (k + 1) }
  else
    let x := { x with disRun := if r.dis then x.disRun + 1 else 0, rates := (r.rate :: x.rates).take 8 }
    if n ≤ x.disRun || m ≤ x.rates.countP id then { x with broken := true, retest := none, disRun := 0, rates := [] } else x

/-- The greatest of a list. -/
def maxI : List Int → Option Int
  | [] => none
  | x :: l => some (l.foldl max x)

/-- R235: the effective temperature. -/
def Dev.effTemp (d : Dev) (t c : Nat) : Int :=
  let x := (d.cl t c).thm
  if !x.broken then x.read
  else match maxI ((d.sound t c).map fun p => (d.cl p.1 p.2).thm.read) with
    | some v => v + d.thm.repl
    | none =>
      match maxI (((d.tl t).clsOn.filter fun b => !(d.cl t b).thm.broken).map fun b => (d.cl t b).thm.read) with
      | some v => v + d.thm.repl
      | none => 16 * (fld d.thm.brkE 31 24 : Int)

/-! ### Bands and actions (R236 to R239) -/

def bandSet (thr hys T : Int) (b : Bool) : Bool := if thr ≤ T then true else if T < thr - hys then false else b

/-- R237: the thermal position after an evaluation. -/
def ptNext (d : Dev) (c : Nat) (T : Int) (pt : Nat) : Nat :=
  if !isLS c then 0
  else if d.thm.thrT ≤ T then min d.bud.bigH (pt + fld d.thm.tcfgE 11 8)
  else if T < d.thm.thrT - 16 * (fld d.thm.hysE 11 8 : Int) then pt - 1 else pt

/-- Table 8-2: the clusters a shutdown takes down, in order, with their states. -/
def Dev.shutList (d : Dev) (t c : Nat) : List (Nat × PState) :=
  let x := d.tl t
  let on := x.clsOn
  match domOf c with
  | .L | .M => [(c, .D)]
  | .S => (x.lOfS c).map (fun l => (l, PState.D)) ++ [(c, .D)]
  | .K => (on.filter fun b => b < 10).map (fun l => (l, PState.D)) ++
          (on.filter fun b => 10 ≤ b && b < 14).map (fun l => (l, PState.D)) ++ [(c, .B1)]

/-- R239: a shutdown band sets. -/
def shutDown (t c : Nat) (d : Dev) : Dev :=
  let now := d.thm.evals
  let d := d.onThm t c fun x => { x with hold := true, shuts := now :: x.shuts.filter fun e => now < e + 10000 }
  let d := d.on (3 ≤ (d.cl t c).thm.shuts.length && !(d.cl t c).thm.rellock) fun d =>
    raise 7 6 (.cluster t c) 0 (d.onThm t c fun x => { x with rellock := true })
  (d.shutList t c).foldl (fun d p =>
    d.on (d.live t p.1) fun d => enterForced t p.1 p.2 (preempt t p.1 (fun _ => false) d)) d

/-- R239: a shutdown's hold ends; the forced states of every cluster that it took down are taken up again. -/
def endShut (t c : Nat) (d : Dev) : Dev :=
  let d := d.onThm t c fun x => { x with hold := false }
  (d.shutList t c).foldl (fun d p => takeForced t p.1 d) d

/-- R235 to R239: bands, position and hold of one cluster from its effective temperature. -/
def thermalCluster (t c : Nat) (d : Dev) : Dev :=
  let T := d.effTemp t c
  let x := (d.cl t c).thm
  let h := d.thm.hysE
  let warn := bandSet d.thm.warnT (16 * (fld h 3 0 : Int)) T x.warn
  let throt := bandSet d.thm.thrT (16 * (fld h 11 8 : Int)) T x.throt
  let shut := bandSet d.thm.shutT (16 * (fld h 20 16 : Int)) T x.shut
  let pt := ptNext d c T x.pt
  -- R241: a RELEASE takes effect now; a band that has set again meanwhile keeps the lock
  let rellock := x.rellock && !(x.relDue && !shut)
  let d := d.onThm t c fun x =>
    { x with eff := T, temp := divHE T 16, warn := warn, throt := throt, shut := shut, pt := pt, rellock := rellock, relDue := false }
  let d := d.on (warn && !x.warn) (raise 7 0 (.cluster t c) (iw T))
  let d := d.on (throt && !x.throt) (raise 7 1 (.cluster t c) (iw T))
  if shut && !x.shut then shutDown t c (raise 7 2 (.cluster t c) (iw T) d)
  else d.on (!shut && x.hold && !rellock) (endShut t c)

/-- R235: the effective temperature of a cluster of the tile falls to NOSENS. -/
def Dev.noSensor (d : Dev) (t : Nat) : Bool :=
  let on := (d.tl t).clsOn
  on.all (fun b => (d.cl t b).thm.broken) && on.any fun c => (d.sound t c).isEmpty

/-- THM_STAT.TMAX and THM_HOT: the hottest cluster, lowest tile and cluster on a tie. -/
def hottest (d : Dev) : Dev :=
  match d.allC with
  | [] => d
  | p :: l =>
    let h := l.foldl (fun a q => if (d.cl a.1 a.2).thm.eff < (d.cl q.1 q.2).thm.eff then q else a) p
    { d with thm := { d.thm with tmax := (d.cl h.1 h.2).thm.temp, hotTile := h.1, hotCluster := h.2 } }

/-- R229 to R239: one evaluation. -/
def thermalEvaluation (d : Dev) : Dev :=
  if !d.thm.readDue then d
  else
    let d := { d with thm := { d.thm with cfgE := d.thm.cfg, hysE := d.thm.hys, brkE := d.thm.brk, tcfgE := d.thm.tcfg,
                                          readDue := false, evals := d.thm.evals + 1 } }
    let first := d.thm.evals = 1
    let d := d.mapC fun _ _ k => if !k.present then k else
      let x := { k.thm with clcalE := k.thm.clcal }
      { k with thm := { x with raw := x.rawN, prev := if first then none else some x.read, read := x.reading x.rawN } }
    -- the tests of every cluster, by the broken diodes as they stood before
    let old := d
    let n := fld d.thm.brkE 7 4
    let m := fld d.thm.brkE 3 0
    let d := d.eachC fun t c d =>
      let r := diodeTest old t c
      let x := (d.cl t c).thm
      let y := x.judge r n m
      let d := d.onThm t c fun _ => y
      let d := d.on (y.noxchk && !x.noxchk) (raise 7 5 (.cluster t c) 0)
      d.on (y.broken && !x.broken) (raiseAt 7 3 (.cluster t c) (iw x.read) (iw r.med) none none 0)
    let d := d.eachT fun t d => d.on (!old.noSensor t && d.noSensor t) (raise 7 4 (.tile t) 0)
    hottest (d.eachC thermalCluster)

/-- R229: every diode of the device is converted. -/
def thermalRead (raw : List DiodeReading) (d : Dev) : Dev :=
  let d := { d with thm := { d.thm with readDue := true } }
  raw.foldl (fun d r => d.on (d.hasC r.tile r.cluster) fun d => d.onThm r.tile r.cluster fun x => { x with rawN := r.raw % 4096 }) d

/-! ### THM_CLCMD (R240) -/

/-- R240: the status of a THM_CLCMD write. -/
def clcmdStatus (d : Dev) (t c : Nat) (v : Word) : Nat :=
  let x := (d.cl t c).thm
  if tst v 0 && tst v 1 then 1
  else if !d.hasC t c then 3
  else if tst v 1 && (!x.rellock || x.shut) then 2
  else if tst v 0 && !x.broken then 2
  else 0

/-- R240, R241: an accepted THM_CLCMD; a RELEASE takes effect at the next evaluation, and a re-test counts from it on. -/
def clcmdApply (t c : Nat) (v : Word) (d : Dev) : Dev :=
  let d := d.on (tst v 1) fun d => d.onThm t c fun x => { x with relDue := true }
  d.on (tst v 0) fun d => d.onThm t c fun x => { x with retest := some 0 }

/-- THERMAL_READ (R229). -/
def execThermalRead (raw : List DiodeReading) (s : State) : Host.Outcome State Fault Refusal := fin s (thermalRead raw s.dev)

/-- THERMAL_EVALUATION (R229 to R239). -/
def execThermalEvaluation (s : State) : Host.Outcome State Fault Refusal := fin s (thermalEvaluation s.dev)

end Sys2Proof.Machine
end

