-- ==== Sys2Proof/Machine/Budget.lean ====
section
/-!
DEFINITION. Sys2Proof/Machine/Budget.lean: estimates, device power, caps, ladders, positions and the state chooser at tick boundaries, and
the budget unit's epoch words (R39, R187, R188, R198 to R215, R245, R254).
-/
namespace Sys2Proof.Machine

/-! ### Over-rating (R39) -/

/-- R39: what a tick finds of one regulator: its new count of ticks above 0.9 A per phase, and whether it is over-rated. -/
def Cell.overRated (x : Cell) : Nat × Bool :=
  let n : Int := x.nAvail * x.ovCnt
  let run := if 900 * n < x.ovSum then incSat 11 x.ovTicks else 0
  (run, decide (1400 * n < x.ovSum) || decide (10 < run))

/-- R39: the regulators of a cluster at a tick boundary. -/
def overRating (t c : Nat) (d : Dev) : Dev :=
  let k := d.cl t c
  let bad := idxs (fun x : Cell => 0 < x.ovCnt && x.overRated.2) 0 k.cells
  let d := d.onC t c fun k =>
    { k with cells := k.cells.map fun x => { x with ovTicks := if x.ovCnt = 0 then x.ovTicks else x.overRated.1, ovSum := 0, ovCnt := 0 }
             bud := { k.bud with ovr := !bad.isEmpty } }
  bad.foldl (fun d r => raiseCell 9 t c (some r) none d) d

/-! ### Estimate (R200) -/

/-- R200: the activity sum of a cluster in state A, in units of a code and a sixteenth: cores with limit `lim`. -/
def activity (lim : Nat → Nat) (d : Dev) (t c : Nat) : Nat :=
  let x := d.tl t
  let k := d.cl t c
  if !isLS c || k.seq.st != .A then 0
  else
    let fl := if k.seq.flast = 0 then 255 else k.seq.flast
    (x.coresOf c).foldl (fun s i =>
      match x.core2 i with
      | some (l, b) => s + min fl (lim i) * min (x.clusters.getD l {}).bud.skip (x.clusters.getD b {}).bud.skip
      | none => s) 0

/-- R200: the features x1, x2, x3 (Q16.16) from the code, the activity and the temperature. -/
def features (code temp : Int) (act : Nat) : List Int :=
  let v := divHE ((240 + code) * 125 * 65536) 100000
  let a := divHE ((act : Int) * 125 * 65536) 160000
  [divHE (divHE (v * v) 65536 * a) 65536, v, v * (temp - 70)]

/-- R200: the estimate from coefficients and features, mW. -/
def estimate (th x : List Int) : Int :=
  clampI 0 65535 (divHE (at0 th 0 * 65536 + at0 th 1 * at0 x 0 + at0 th 2 * at0 x 1 + at0 th 3 * at0 x 2) (65536 * 65536))

/-- R198: the tick value of pm. -/
def tickMean (l : List Int) (old : Int) : Int := match l with | [] => old | _ => divHE (sumI l) l.length

/-- The tile with every ladder at position 0, for DEMAND (R219): PMIN stays (R209), and a cluster that a ladder alone holds in B1 counts as in A; one that
the chooser or SEQ_CLPS holds there as well does not. -/
def Dev.unladdered (d : Dev) (t : Nat) : Dev :=
  d.onT t fun x => x.mapC fun _ y =>
    { y with bud := { y.bud with heff := y.bud.pmin, skip := d.bud.frac y.bud.pmin }
             seq := if y.bud.b1 && y.bud.pmin != d.bud.bigH && y.seq.st == .B1 && !y.seq.chosen && !(y.seq.force && y.seq.fstate != 0) then { y.seq with st := .A } else y.seq }

/-- What a tick forms of one cluster: pe, pe with no activity, pe with the ladders at 0 (the block `e`), features. -/
def clusterTick (m : List Host.Cell) (d e : Dev) (t c : Nat) : Int × Int × Int × List Int :=
  let k := d.cl t c
  let b := k.bud
  let f := fun (act : Nat) => features b.codeAt k.thm.temp act
  let x := f (activity (limNow m d t) d t c)
  if !k.loop.outOn then (0, 0, 0, x)
  else (estimate b.thetaE x, estimate b.thetaE (f 0), estimate b.thetaE (f (activity (limNow m e t) e t c)), x)

/-- R198, R200, R201: the tick values of every cluster. -/
def tickClusters (m : List Host.Cell) (d : Dev) : Dev :=
  let d0 := d
  let d := d.eachT fun t d =>
   let e := d0.unladdered t
   (d0.tl t).clsOn.foldl (fun d c =>
    let r := clusterTick m d0 e t c
    let d := d.onC t c fun k =>
      let b := k.bud
      let pm := tickMean b.pms b.pm
      let a := k.seq.st == .A && k.loop.outOn
      { k with bud := { b with pm := pm, pe := r.1, pms := [], codeAt := (max 0 k.seq.code).toNat
                               sums := addQ b.sums (r.2.2.2 ++ [pm]), ticks := b.ticks + 1, allA := b.allA && a } }
    { d with bud := { d.bud with floorP := d.bud.floorP + r.2.1, demandP := d.bud.demandP + r.2.2.1 } }) d
  d

/-- R199: the cluster power. -/
def Dev.clPower (d : Dev) (t c : Nat) : Int := let b := (d.cl t c).bud; if d.bud.psrc then b.pe else b.pm

/-- R199, R203, R204, R219: tile and device power of the tick. -/
def tickPower (d : Dev) : Dev :=
  let d := d.eachT fun t d => d.onT t fun x => { x with power := sumI (x.clsOn.map fun c => d.clPower t c) }
  let p := d.bud.devPower (sumI (d.tilesOn.map fun t => (d.tl t).power))
  let b := { d.bud with pdev := p, psum := d.bud.psum + p, pcnt := d.bud.pcnt + 1 }
  { d with bud := if b.psrc then b.addEnergy p 1000 else b }

/-! ### Caps (R205, R206, R221) -/

/-- R221: the budget source, W. -/
def Dev.budSource (d : Dev) : Nat :=
  let l := d.lnk
  if l.inUse && !l.alone then l.alloc
  else if l.never then d.bud.localE
  else if l.lossEpochs < 10 then l.alloc
  else d.bud.localE * 9 / 10

/-- R205, R208: the device cap in force; a lower one marks the ladder. -/
def putDevcap (d : Dev) : Dev :=
  let c := min d.bud.devlimE d.budSource
  { d with bud := { d.bud with devcap := c, ladder := { d.bud.ladder with cut := d.bud.ladder.cut || decide (c < d.bud.devcap) } } }

/-- R26, R206: a cluster's cap takes effect. -/
def Cluster.capNow (k : Cluster) : Cluster :=
  let b := k.bud
  { k with bud := { b with capE := b.cap, capHeld := false, ladder := { b.ladder with cut := b.ladder.cut || decide (b.cap < b.capE) } } }

/-- R206, R227: caps, limits and coefficients written take effect at a tick boundary. DESIGN CHOICE (log 131): at a window's end the tick takes the
deferred caps before QUIET_WINDOW_END does the rest. -/
def tickCaps (d : Dev) : Dev :=
  let d := d.mapT fun _ x =>
    { x.mapC (fun _ k =>
        let k := { k with bud := { k.bud with thetaE := k.bud.theta } }
        if k.quietAt d.clk.tick then { k with bud := { k.bud with capHeld := k.bud.cap != k.bud.capE } } else k.capNow) with
      tcapE := x.tcap, ladder := { x.ladder with cut := x.ladder.cut || decide (x.tcap < x.tcapE) } }
  putDevcap { d with bud := { d.bud with devlimE := d.bud.devlim, localE := d.bud.blocal, grpE := d.bud.grp } }

/-! ### Ladders (R208, R213) -/

/-- R208: the position a rise from 0 goes to, for the highest FCODE granted, 0 none. -/
def BudDev.firstRise (b : BudDev) (f : Nat) : Nat :=
  if f = 0 then 1
  else if f ≤ b.ffloor then b.nf + 1
  else (((List.range b.nf).map (· + 1)).find? fun h => b.fcap h < f).getD (b.nf + 1)

/-- What a step of a ladder did: it became over, took a forced step, became unmet. -/
structure LadNews where
  overT : Bool
  forced : Bool
  unmet : Bool

/-- R208, R213: one ladder at a tick: power `p` and cap `c` in mW (none: no cap), highest FCODE granted `f`. -/
def Ladder.tick (b : BudDev) (p : Int) (c : Option Nat) (f : Nat) (l : Ladder) : Ladder × LadNews :=
  let overT := match c with | some v => decide ((v : Int) < p) | none => false
  let under := match c with | some v => decide (64 * p ≤ (v * (64 - b.hys) : Nat)) | none => true
  let allow := if l.cut && overT && !l.overT then some 0
    else match l.allow with | some n => if n < 200 then some (n + 1) else none | none => none
  let soft := overT && (match allow with | some n => 0 < n && n % b.soft == 0 | none => false)
  let forced := overT && allow.isNone
  let un := if under then l.under + 1 else 0
  let down := under && b.upwait ≤ un
  let up := if l.h = 0 then b.firstRise f else l.h + 1
  let h := if soft || forced then min b.bigH up else if down then l.h - 1 else min b.bigH l.h
  let atH := if forced && l.h == b.bigH then incSat 10 l.atH else 0
  let notOver := if overT then 0 else incSat 10 l.notOver
  let unmet := if l.unmet then decide (notOver < 10) else decide (10 ≤ atH)
  ({ h := h, overT := overT, allow := allow, under := if down then 0 else un, atH := atH, notOver := notOver, unmet := unmet, cut := false },
   { overT := overT && !l.overT, forced := forced && decide (l.h < b.bigH), unmet := unmet && !l.unmet })

/-- R213, R228, R262: the events of a ladder's step; `lvl` is 0 device, 1 tile, 2 cluster. -/
def ladderNews (n : LadNews) (lvl t c : Nat) (p : Int) (cap : Option Nat) (d : Dev) : Dev :=
  let d := d.on n.overT (raise 6 0 .device 0)
  let d := d.on n.forced (raise 6 1 .device 0)
  d.on n.unmet fun d =>
    raiseIn 6 2 .device t c (nw (shown 32 p 1000)) (nw (shown 32 (cap.getD 0 : Nat) 1000)) none none lvl
      { d with bud := { d.bud with unmetRep := true } }

def Dev.flastMax (d : Dev) (l : List (Nat × Nat)) : Nat := (l.map fun p => (d.cl p.1 p.2).seq.flast).foldl max 0

def capMw (cap unit none' : Nat) : Option Nat := if cap = none' then none else some (cap * unit)

/-- R208: every ladder at a tick boundary. -/
def tickLadders (d : Dev) : Dev :=
  let d := d.eachC fun t c d =>
    let k := d.cl t c
    if !isLS c || k.isolated || k.quietAt d.clk.tick then d
    else
      let cap := capMw k.bud.capE 100 0xFFFF
      let p := d.clPower t c
      let r := k.bud.ladder.tick d.bud p cap k.seq.flast
      ladderNews r.2 2 t c p cap (d.onBud t c fun b => { b with ladder := r.1 })
  let d := d.eachT fun t d =>
    let x := d.tl t
    let cap := capMw x.tcapE 1000 0xFFFF
    let r := x.ladder.tick d.bud x.power cap (d.flastMax (x.clsOn.map fun c => (t, c)))
    ladderNews r.2 1 t 0x1F x.power cap (d.onT t fun x => { x with ladder := r.1 })
  let cap := capMw d.bud.devcap 1000 0xFFFFFF
  let r := d.bud.ladder.tick d.bud d.bud.pdev cap (d.flastMax d.allC)
  ladderNews r.2 0 0x7F 0x1F d.bud.pdev cap { d with bud := { d.bud with ladder := r.1 } }

/-! ### Capacity position, PMIN, effective position (R209, R214, R245, R254) -/

/-- R254: the capacity position at a tick. -/
def Cluster.pcNext (b : BudDev) (k : Cluster) : Cluster :=
  let s := k.bud
  let l := k.fus.icls
  let sum := sumI l
  let n := l.length
  let above := match k.icap with | some i => 0 < n && decide ((i * n : Nat) < sum) | none => false
  let below := match k.icap with | some i => decide (64 * sum ≤ (i * n * (64 - b.hys) : Nat)) | none => true
  let bud :=
    if above || s.ovr then { s with pc := min b.bigH (if s.pc = 0 then b.firstRise k.seq.flast else s.pc + 1), pcUnder := 0 }
    else if below then
      (if b.upwait ≤ s.pcUnder + 1 then { s with pc := s.pc - 1, pcUnder := 0 } else { s with pcUnder := s.pcUnder + 1 })
    else { s with pcUnder := 0 }
  { k with bud := bud, fus := { k.fus with icls := [] } }

/-- R245: PMIN of a cluster. -/
def Dev.pminOf (d : Dev) (t c : Nat) : Nat :=
  let k := d.cl t c
  min d.bud.bigH (max (max k.thm.pt k.bud.pc) (if d.flt.caps t c then fld d.flt.fcfg 5 0 else 0))

/-- R209, R214: the greatest ladder position over a cluster, 0 with LADEN clear. -/
def Dev.ladPos (d : Dev) (t c : Nat) : Nat :=
  if !d.bud.laden then 0 else max (max (d.cl t c).bud.ladder.h (d.tl t).ladder.h) d.bud.ladder.h

/-! ### State chooser and wakes (R187, R188) -/

/-- Table 6-9. -/
def SeqDev.choose (q : SeqDev) (ns : Nat) : PState :=
  if ns < 1000 * fld q.be01 15 0 then .A
  else if ns < 1000 * fld q.be01 31 16 then .B1
  else if ns < 1000 * fld q.be23 15 0 then .B2
  else if ns < 1000 * fld q.be23 31 16 then .B3 else .D

/-- R187: the state that the chooser picks for a cluster whose next known event is at `e`. -/
def Dev.picked (d : Dev) (t c e : Nat) : PState :=
  fitState c (PState.num (min (d.cl t c).seq.maxst (d.seq.choose (e - d.clk.now)).depth))

/-- R209: the chooser of R187 holds the cluster in B1, or would. -/
def Dev.chooserHolds (d : Dev) (t c : Nat) : Bool :=
  (d.cl t c).seq.chosen || (d.seq.phase == 3 && (match d.nextEvent t c with | some e => 1 ≤ (d.picked t c e).depth | none => false))

/-- R209, R214: the effective position taken, with the state that position H imposes. Where a window is in force or pending, PMIN alone imposes it (R155; for a
pending one DEDUCED, log 108), and leaving H returns the cluster to A. Outside a window it returns to A, or to the state that SEQ_CLPS forces, unless the chooser
holds it where it is. -/
def takeHeff (t c : Nat) (d : Dev) : Dev :=
  d.on (isLS c && !(d.cl t c).isolated) fun d =>
    let k := d.cl t c
    let win := k.quietAt d.clk.tick
    let base := if win then k.bud.hbase else d.ladPos t c
    let h := max base k.bud.pmin
    let hard := k.bud.pmin == d.bud.bigH
    let atH := h == d.bud.bigH
    let was := k.bud.b1
    let d := d.onBud t c fun b => { b with hbase := base, heff := h, b1 := atH }
    if atH then d.on (k.seq.heading == .A && (hard || (d.seq.phase == 3 && !win && !k.pendWin))) (enter t c .B1)
    else d.on (was && k.seq.heading == .B1) fun d =>
      if win || k.pendWin then wake t c false d else if k.seq.force then takeForced t c d else d.on (!d.chooserHolds t c) (wake t c false)

/-- R245, R254: positions of a tick; the new capacity position binds at its own tick (Table 9-4). -/
def tickPositions (d : Dev) : Dev :=
  let d := d.eachC fun t c d => d.on (isLS c) fun d => d.onC t c fun k => k.pcNext d.bud
  let d := d.eachC fun t c d => d.on (isLS c) fun d =>
    let p := d.pminOf t c
    d.onBud t c fun b => { b with pmin := p }
  d.eachC takeHeff

/-- R187, R188: the chooser and the wakes of one cluster at a tick. R25, R239: while the wafer is held, or a thermal shutdown holds the cluster, it picks
nothing. -/
def chooseState (t c : Nat) (d : Dev) : Dev :=
  let k := d.cl t c
  let q := k.seq
  if d.seq.phase != 3 || !d.live t c then d
  else match d.nextEvent t c with
    | none => d
    | some e =>
      let now := d.clk.now
      let d :=
        if q.heading != .A && !q.waking && decide (e ≤ now + d.seq.wk q.heading) then wake t c false d
        else if d.held || d.thmHeld t c || k.quietAt d.clk.tick || q.force || q.cur.isSome || !q.queue.isEmpty || q.changing then d
        else
          let s := d.picked t c e
          d.on (q.st.depth < s.depth) fun d => enter t c s (d.onSeq t c fun q => { q with chosen := true })
      -- R188: not in A at the event tick
      d.on (e ≤ now && q.lateAt != some e && q.st != .A) fun d => raise 5 5 (.cluster t c) 0 (d.onSeq t c fun q => { q with lateAt := some e })

/-- The regulation part of a tick boundary, whose count has advanced. -/
def tickPlant (m : List Host.Cell) (uv : Nat) (d : Dev) : Dev :=
  let d := marginA uv d
  let d := d.eachC overRating
  let d := tickPower (tickClusters m { d with bud := { d.bud with floorP := 0, demandP := 0 } })
  let d := tickPositions (tickLadders (tickCaps d))
  d.eachC chooseState

/-! ### Epoch words (R201) -/

/-- R201: the words of an epoch are latched. -/
def epochLatch (d : Dev) : Dev :=
  d.mapC fun _ _ k =>
    let b := k.bud
    if !k.present || b.ticks = 0 then k
    else
      let mean := fun i => divHE (at0 b.sums i) b.ticks
      { k with bud := { b with epx := [mean 0, mean 1, mean 2], epm := mean 3, valid := b.allA, sums := [0, 0, 0, 0], ticks := 0, allA := true } }

/-! ### Writes (R206) -/

/-- R28: safe state or an alert hold refuses raises: R28 speaks of safe state. -/
def Dev.safe (d : Dev) : Bool := d.flt.safe

/-- R206: the status of a write of a cap: old and new value. -/
def capStatus (d : Dev) (old new : Nat) : Nat := if new = 0 then 1 else if d.safe && old < new then 7 else 0

/-- R206, R26: a cluster's cap is written; in a window it waits for the end tick. -/
def putClCap (t c v : Nat) (d : Dev) : Dev := d.onC t c fun k => { k with bud := { k.bud with cap := v, capHeld := k.quiet } }
def putTCap (t v : Nat) (d : Dev) : Dev := d.onT t fun x => { x with tcap := v }

end Sys2Proof.Machine
end

