-- ==== Sys2Proof/Machine/Window.lean ====
section
/-!
DEFINITION. Sys2Proof/Machine/Window.lean: the end tick of a quiet window (R150, R154).
-/
namespace Sys2Proof.Machine

/-- R122, R154 step 2: the region held takes effect at the cluster's first slot start at or after the end, or with the latest outer boundary's words where
those are still to come; a boundary after the end takes nothing from it. -/
def regionRelease (t c : Nat) (d : Dev) : Dev :=
  let E := d.clk.now
  let row := (d.tl t).mapRow c
  d.onFus t c fun f => { f with rel := if f.due.isSome then none else some (E, f.sel, row) }

/-- R154: a window of a cluster ends. -/
def windowEnd (t c : Nat) (d : Dev) : Dev :=
  match (d.cl t c).esc.wins.find? fun w => w.inForce && w.e ≤ d.clk.tick with
  | none => d
  | some w =>
    let d := d.onEsc t c fun z => { z with wins := z.wins.filter fun u => !(u == w), lastEnd := some (max (z.lastEnd.getD 0) w.e) }
    let d := regionRelease t c (trustRelease t d)
    let d := d.onC t c fun k => if k.bud.capHeld then k.capNow else k
    let d := takeHeff t c d
    let d := takeTrans t c (takeForced t c (runAllHeld t c d))
    trcEvent t c 9 (guardDown t c d)

/-- QUIET_WINDOW_END (R150, R154). -/
def execQuietWindowEnd (t c : Nat) (s : State) : Host.Outcome State Fault Refusal := fin s (windowEnd t c s.dev)

end Sys2Proof.Machine
end

