-- ==== Sys2Proof/Machine/Regs.lean ====
section
/-!
DEFINITION. Sys2Proof/Machine/Regs.lean: what every register reads, live or through a mirror, and the effects of reading (R15 to R17, R75, R304 to
R307, R394 to R399; the field tables of every chapter).
-/
namespace Sys2Proof.Machine

/-! ### Views of a tile (R272, R304 to R306) -/

/-- What a tile window is read from: the block with the tile as viewed, the tile's region map (FUS_STAT.MAPOK), and the boundary of its mirror. -/
structure View where
  d : Dev
  map : List Nat
  outer : Nat

def Dev.mir (d : Dev) (t : Nat) : Mirror := d.mirrors.getD t {}
def Dev.onMir (d : Dev) (t : Nat) (f : Mirror → Mirror) : Dev := { d with mirrors := d.mirrors.modify t f }

/-- A Rafter's view of its tile. -/
def liveView (m : List Host.Cell) (d : Dev) (t : Nat) : View := { d := d, map := mapBytes m t, outer := (d.mir t).cur.outer }

/-- R305: the view that a snapshot gives: times are those of its boundary. -/
def snapView (d : Dev) (t : Nat) (s : Snap) : View :=
  { d := { d with tiles := d.tiles.set t s.tile
                  clk := { d.clk with outer := s.outer, tick := 384 * s.outer / 1000, now := 384 * s.outer }
                  bud := { d.bud with ladcfg := s.lad } }
    map := s.tile.fus.map, outer := s.outer }

/-- The mirror in force. -/
def shadowView (d : Dev) (t : Nat) : View := snapView d t (d.mir t).cur

/-! ### Cluster blocks (Table 15-4) -/

/-- ESC_NEXT.NEXTIN. DEDUCED (log 20): whole ticks from the present tick to the first tick at or after the event. -/
def nextIn' (d : Dev) (t c : Nat) : Nat :=
  match d.nextEvent t c with
  | some e => min 0xFFFFFE ((e + 999) / 1000 - d.clk.tick)
  | none => 0xFFFFFF

/-- SEQ_CLSP.REF. -/
def ClSeq.whole (q : ClSeq) : Nat := (max 0 q.code).toNat

/-- SEQ_CLPS (Table 6-13). -/
def clpsWord (q : ClSeq) : Word :=
  word [(b2n (q.qtr && q.chg != .waiting), 13), (b2n (q.chg == .waiting && !q.track), 12), (b2n q.changing, 11), (b2n (tst q.clps 7), 7),
    (fld q.clps 6 4, 4), (q.st.depth, 0)]

/-- BUD_CLLAD (Table 7-11). -/
def clladWord (b : BudDev) (k : Cluster) : Word :=
  let l := k.bud.ladder
  word [(b.fcap k.bud.heff, 24), (b2n l.unmet, 23), (b2n l.allow.isSome, 22), (b2n l.overT, 21), (b2n k.bud.b1, 20), (k.bud.skip - 1, 16),
    (k.bud.heff, 8), (l.h, 0)]

/-- LOOP_CLST (Table 3-19). -/
def loopClst (ns : Nat) (x : Tile) (c : Nat) (k : Cluster) : Word :=
  word [(b2n (0 < k.loop.entryLeft), 7), (b2n (x.rem.queue.any fun j => j.c == c && j.inQ ns), 3), (b2n k.loop.hold, 2), (k.law c, 0)]

/-- FUS_CLST (Table 4-8). -/
def fusClst (k : Cluster) : Word :=
  let f := k.fus
  word [(b2n (k.cells.any fun x => 0 < x.senseRep), 23), (b2n f.degraded, 22), (f.slot, 16), (b2n (tst f.clctlE 8), 15), (b2n (tst f.clctlE 9), 14),
    (b2n (f.sel != f.use), 13), (f.cap, 11), (f.bandT, 10), (f.bandI, 8), (f.bandS, 6), (f.use, 0)]

/-- A word of the block of cluster `c`, present. -/
def clusterWord (v : View) (t c off : Nat) : Word :=
  let d := v.d
  let x := d.tl t
  let k := d.cl t c
  let q := k.seq
  match off with
  | 0x00 => word [(b2n q.slewing, 31), (q.whole, 16), (q.atarget, 0)]
  | 0x04 => q.cllim
  | 0x08 => q.clcfg
  | 0x0C => clpsWord q
  | 0x10 =>
    match q.cur with
    | some tr => word [(q.flast, 24), (min 15 q.queue.length, 16), (tr.step, 9), (1, 8), (tr.tnum, 0)]
    | none => word [(q.flast, 24), (min 15 q.queue.length, 16)]
  | 0x14 => q.clgr
  | 0x18 => word [(k.bud.pmin, 16), (k.bud.cap, 0)]
  | 0x1C => clladWord d.bud k
  | 0x20 => word [(shown 16 k.bud.pe 100, 16), (shown 16 k.bud.pm 100, 0)]
  | 0x24 => word [(uns 16 k.thm.eff, 16), (uns 16 k.thm.read, 0)]
  | 0x28 =>
    let y := k.thm
    word [(y.raw, 20), (y.pt, 8), (b2n y.broken, 6), (b2n y.noxchk, 5), (b2n y.rellock, 4), (b2n y.hold, 3), (b2n y.shut, 2), (b2n y.throt, 1),
      (b2n y.warn, 0)]
  | 0x30 => k.thm.clcal
  | 0x38 =>
    word [(k.guardNow, 8), (k.esc.fband, 6), (b2n (d.nextEvent t c).isSome, 5), (b2n (x.blocks c), 4), (b2n (x.esc.edges.any fun g => g.mask.contains c), 3),
      (b2n (k.esc.guardOn || k.esc.guardMove), 2), (b2n k.pendWin, 1), (b2n k.quiet, 0)]
  | 0x3C => nw (nextIn' d t c)
  | 0x40 => k.loop.cmpcfg
  | 0x44 => k.loop.occfg
  | 0x48 => k.loop.shedcfg
  | 0x50 => k.cellst
  | 0x54 => k.loop.cellev
  | 0x58 => word [(k.loop.ovcnt, 16), (k.loop.drpcnt, 0)]
  | 0x60 => loopClst d.clk.now x c k
  | 0x64 => word [(k.loop.dclamp, 16), (k.loop.wsat, 0)]
  | 0x70 => fusClst k
  | 0x74 => k.fus.clctl
  | 0x78 => k.fus.plev
  | 0x7C =>
    word [(min 15 ((k.cells.map (·.xcRun)).foldl max 0), 16), (min 255 ((k.cells.map (·.ciCnt)).foldl max 0), 8), (min 255 k.fus.ca, 0)]
  | _ => 0

/-- The offsets of a cluster block that hold a register. -/
def clusterReg (off : Nat) : Bool := off % 4 == 0 && off < 0x80 && !(off == 0x34 || off == 0x4C || off == 0x5C || off == 0x6C)

/-! ### Tile registers (Table 15-3) -/

/-- LOOP_STAT (Table 3-14). -/
def loopStat (d : Dev) (x : Tile) : Word :=
  let r := x.rem
  word [(r.freeSpares.length, 20), (b2n r.halted, 17), (b2n r.cmpFail, 16), (min 3 (r.nQueue d.clk.now), 12), (b2n (r.voting d.clk.now), 11),
    (r.bist, 8), (b2n (tst r.ctrlE 0), 0)]

/-- ESC_TRUST (Table 5-8). -/
def escTrust (x : Tile) : Word := word [(b2n x.quietAny, 16), (uns 6 x.esc.defer, 8), (x.esc.trust, 0)]

/-- Every region of every present domain is mapped. -/
def Tile.mapped (x : Tile) (map : List Nat) : Bool :=
  x.domains.all fun dm => (List.range (regions dm)).all fun r => map.getD (64 * domCode dm + r) 0xFF < 24

/-- R391: cores of the tile that are present. -/
def Tile.nCores (x : Tile) : Nat :=
  let on := fun c => let k := x.clusters.getD c {}; k.present && !k.isolated
  x.cores.countP fun k => match x.core2 k with | some (l, s) => on l && on s | none => false

/-- RFT_FLOOR (Table 14-8). -/
def floorWord (x : Tile) : Word :=
  word ((x.nCores, 18) :: (x.clsOn.filter fun c => !(x.clusters.getD c {}).isolated).map fun c => (1, c))

/-- PUR_STAT.FACE: the ports that face a present neighbour. -/
def Dev.faces (d : Dev) (t p : Nat) : Bool :=
  match (d.build.mesh.getD t []).getD p none with | some n => d.hasT n | none => false

/-- A core's halted mark as registers show it (R286, R322, R377). -/
def Core.isHalted (k : Core) : Bool := k.halted || k.stopped || k.dead

/-- RFT_STAT (Table 11-10). -/
def rftStat (x : Tile) : Word :=
  word [(b2n x.rst, 7), (b2n x.core.isHalted, 6), (b2n x.core.loaded, 5), (x.core.chk, 3), (x.core.rcause, 0)]

/-- A word of the tile registers, at offset 0x900 and above; 0 where there is none. -/
def tileReg (v : View) (t off : Nat) : Word :=
  let d := v.d
  let x := d.tl t
  let on := fun c => (x.clusters.getD c {}).present
  if 0x940 ≤ off ∧ off < 0x9C0 then
    match x.rem.remaps[(off - 0x940) / 4]? with
    | some p => word [(1, 31), (p.2, 16), (p.1, 0)]
    | none => 0
  else if 0xD00 ≤ off ∧ off < 0xE20 then
    let c := (off - 0xD00) / 16
    if on c then iw (at0 (x.clusters.getD c {}).bud.theta ((off - 0xD00) / 4 % 4)) else 0
  else if 0xE40 ≤ off ∧ off < 0xF60 then
    let c := (off - 0xE40) / 16
    let j := (off - 0xE40) / 4 % 4
    let b := (x.clusters.getD c {}).bud
    if !on c then 0 else if j = 3 then word [(b2n b.valid, 31), (uns 16 b.epm, 0)] else iw (at0 b.epx j)
  else if 0xF88 ≤ off ∧ off < 0xFB0 then
    let c := (off - 0xF88) / 4
    let l := x.cpm.getD c [127, 127, 127, 127]
    if on c then word [(uns 8 (at0 l 3), 24), (uns 8 (at0 l 2), 16), (uns 8 (at0 l 1), 8), (uns 8 (at0 l 0), 0)] else 0x7F7F7F7F
  else match off with
  | 0x900 => x.rem.ctrl
  | 0x904 => loopStat d x
  | 0x908 => word ((x.clsOn.filter fun c => (x.clusters.getD c {}).loop.fb).map fun c => (1, c))
  | 0x90C => x.rem.mmev
  | 0x910 => word [(x.rem.votes, 16), (x.rem.mismatch, 0)]
  | 0x914 => x.rem.locate
  | 0xA00 => nw (b2n x.fus.run)
  | 0xA04 =>
    word ([(b2n x.fus.banderr, 27), (b2n x.fus.wlive, 26), (b2n x.fus.run, 25), (b2n (x.mapped v.map), 24)] ++
      (idxs id 0 x.fus.valid).map fun s => (1, s))
  | 0xA10 => word [(b2n x.fus.cmd.isNone, 8), (x.fus.status, 0)]
  | 0xA40 => x.trace.cfg
  | 0xA44 => x.trace.trig
  | 0xA48 => x.trace.nodes.getD 0 0
  | 0xA4C => x.trace.nodes.getD 1 0
  | 0xA50 => x.trace.nodes.getD 2 0
  | 0xA54 => x.trace.nodes.getD 3 0
  | 0xA5C => word [(x.trace.tpos, 13), (x.trace.recs.length, 2), (x.trace.st, 0)]
  | 0xB00 => x.esc.cfg
  | 0xB04 => escTrust x
  | 0xB08 => x.esc.qwcfg
  | 0xB0C => x.esc.ev
  | 0xB10 => word [(x.esc.dropped, 16), (x.esc.tokens, 0)]
  | 0xB14 => word [(x.esc.unscored, 24), (x.esc.bad, 16), (x.esc.fair, 8), (x.esc.good, 0)]
  | 0xB18 => word [(x.esc.latecnt, 8), (x.esc.edges.length, 0)]
  | 0xC00 => x.esc.fbndl
  | 0xC04 => x.esc.fbnds
  | 0xC08 => nw x.tcap
  | 0xC0C => nw x.tgrp
  | 0xC10 =>
    let l := x.ladder
    word [(shown 16 x.power 1000, 16), (b2n l.unmet, 10), (b2n l.allow.isSome, 9), (b2n l.overT, 8), (l.h, 0)]
  | 0xF80 =>
    word ((b2n x.rst, 8) :: (idxs id 0 x.byp).map (fun p => (1, 16 + p)) ++ ([0, 1, 2, 3].filter (d.faces t)).map fun p => (1, p))
  | 0xF84 => word [(x.crcerr, 16), (x.retry, 0)]
  | 0xFB0 => word [(x.cpmGuard, 16)]
  | 0xFC0 => floorWord x
  | 0xFE0 => nw (b2n x.core.halted)
  | 0xFE4 => rftStat x
  | 0xFE8 => if x.core.loaded then x.core.tag else 0
  | 0xFF0 => word [(b2n (d.mir t).stale, 31), (v.outer % 2 ^ 31, 0)]
  | _ => 0

/-- The tile-register offsets that hold a register (Table 15-3). -/
def tileRegAt (off : Nat) : Bool :=
  off % 4 == 0 && ((0x940 ≤ off && off < 0x9C0) || (0xD00 ≤ off && off < 0xE20) || (0xE40 ≤ off && off < 0xF60) || (0xF88 ≤ off && off < 0xFB0) ||
    [0x900, 0x904, 0x908, 0x90C, 0x910, 0x914, 0xA00, 0xA04, 0xA08, 0xA0C, 0xA10, 0xA40, 0xA44, 0xA48, 0xA4C, 0xA50, 0xA54, 0xA58, 0xA5C,
      0xB00, 0xB04, 0xB08, 0xB0C, 0xB10, 0xB14, 0xB18, 0xC00, 0xC04, 0xC08, 0xC0C, 0xC10, 0xF80, 0xF84, 0xFB0, 0xFC0, 0xFE0, 0xFE4, 0xFE8,
      0xFF0].contains off)

/-- R397: an offset of the window holds a register. -/
def windowReg (off : Nat) : Bool := if off < 0x900 then clusterReg (off % 0x80) else tileRegAt off

/-- A word of a tile window. -/
def windowWord (v : View) (t off : Nat) : Word :=
  if !v.d.hasT t then 0
  else if off < 0x900 then
    let c := off / 0x80
    if (v.d.cl t c).present then clusterWord v t c (off % 0x80) else 0
  else tileReg v t off

/-- The RC fields of a window offset: high and low bit. -/
def rcFields (off : Nat) : List (Nat × Nat) :=
  if off < 0x900 then (if off % 0x80 = 0x58 ∨ off % 0x80 = 0x64 then [(31, 16), (15, 0)] else [])
  else match off with
  | 0x910 | 0xB10 | 0xF84 => [(31, 16), (15, 0)]
  | 0xB14 => [(31, 24), (23, 16), (15, 8), (7, 0)]
  | 0xB18 => [(13, 8)]
  | _ => []

/-- R307: `n` is subtracted from the live count of an RC field, not below 0. -/
def rcSub (t off hi n : Nat) (d : Dev) : Dev :=
  if off < 0x900 then
    d.onLoop t (off / 0x80) fun l =>
      if off % 0x80 = 0x58 then (if hi = 31 then { l with ovcnt := l.ovcnt - n } else { l with drpcnt := l.drpcnt - n })
      else if off % 0x80 = 0x64 then (if hi = 31 then { l with dclamp := l.dclamp - n } else { l with wsat := l.wsat - n })
      else l
  else match off with
  | 0x910 => d.onRem t fun r => if hi = 31 then { r with votes := r.votes - n } else { r with mismatch := r.mismatch - n }
  | 0xB10 => d.onTEsc t fun e => if hi = 31 then { e with dropped := e.dropped - n } else { e with tokens := e.tokens - n }
  | 0xB14 => d.onTEsc t fun e =>
      if hi = 31 then { e with unscored := e.unscored - n } else if hi = 23 then { e with bad := e.bad - n }
      else if hi = 15 then { e with fair := e.fair - n } else { e with good := e.good - n }
  | 0xB18 => d.onTEsc t fun e => { e with latecnt := e.latecnt - n }
  | 0xF84 => d.onT t fun x => if hi = 31 then { x with crcerr := x.crcerr - n } else { x with retry := x.retry - n }
  | _ => d

/-! ### Records as words (Table 13-1) -/

/-- Words 0 to 6 of a record. -/
def recHead (r : Rec) : List Word :=
  [word [(r.code, 16), (r.sub, 12), (r.level, 9), (b2n r.fault, 8)],
   word [(r.pcc % 2 ^ 24, 8), (r.optime / 2 ^ 32 % 256, 0)],
   nw r.optime,
   word [(r.tile, 25), (r.cluster, 20), (b2n r.reg.isSome, 19), (r.reg.getD 0, 16), (b2n r.phase.isSome, 15), (r.phase.getD 0, 13), (r.aux, 0)],
   nw r.seq, r.d0, r.d1]

/-- R345: the words of a record as LOG_VDATA0 to 7 read them. -/
def recWords (r : Rec) : List Word := recHead r ++ [word [(if r.pend then 0 else r.chk, 16), (r.rep, 0)]]

/-- R345: the CRC-16 of a record as it is written, over bytes 0 to 29. -/
def recCrc (r : Rec) : Nat := crc16 ((recHead r).flatMap wordBytes ++ natBytes 2 r.rep)

/-! ### Device registers (Table 15-2) -/

def bits (n lo : Nat) (p : Nat → Bool) : Word := word (((List.range n).filter fun b => p (lo + b)).map fun b => (1, b))

def boolAt (l : List Bool) (i : Nat) : Bool := l.getD i false

/-- Table 14-7: RDG_BOOT.STAGE: 6 during the warm fast path. -/
def BootDev.shownStage (b : BootDev) : Nat := if b.fast then 6 else b.stage

/-- Addresses 0x00000 to 0x00FFF (Tables 11-8, 14-7). -/
def idWord (d : Dev) (a : Nat) : Word :=
  let h := d.hp
  let b := d.boot
  let k := d.ridge
  if 0x48 ≤ a ∧ a < 0x54 then bits 32 (32 * ((a - 0x48) / 4)) d.hasT
  else if 0x80 ≤ a ∧ a < 0xA0 then b.nvdata.getD ((a - 0x80) / 4) 0
  else match a with
  | 0x00 => 0x4B590C03
  | 0x04 =>
    word [(((d.build.clusters.map fun l => l.countP (16 ≤ ·))).foldl (· + ·) 0, 16), (d.build.clusters.countP fun l => !l.isEmpty, 8),
      (b2n b.nvimg, 7), (b.straps.lbud, 4)]
  | 0x08 => word [(b2n h.fsel, 11), (b2n h.rsel, 1), (b2n k.halted, 0)]
  | 0x0C =>
    let n := fun (p : Core → Bool) => (d.tilesOn.filter fun t => p (d.tl t).core).length
    word [(n Core.isHalted, 24), (n (·.loaded), 16), (b2n k.dirty, 7), (b2n k.isHalted, 6), (b2n k.loaded, 5), (k.chk, 3), (k.rcause, 0)]
  | 0x10 => word [(h.wstatAddr / 4 % 2 ^ 18 * 4, 12), (h.wstat, 0)]
  | 0x14 =>
    match h.hlref with
    | r :: l => word [(r.seq % 256, 24), (b2n !l.isEmpty, 23), (r.tile, 16), (r.cluster, 8), (r.status, 0)]
    | [] => 0
  | 0x18 => if k.loaded then k.tag else 0
  | 0x1C => word [(h.hlrlost, 24), (h.rej, 16), (h.hlref.length, 0)]
  | 0x40 => word [(min 0xFFFF b.bootms, 16), (b.imgerr, 12), (b2n b.warm, 11), (b.tfail, 4), (b2n b.regrej, 3), (b.shownStage, 0)]
  | 0x44 => word [(b2n b.straps.nvskip, 4), (b.straps.vsel, 0)]
  | 0x54 => nw (b2n b.keyv)
  | 0x60 => nw b.vset
  | 0x64 => word [(b2n b.avsBusy, 31), (b2n b.avsErr, 30), (b.vread % 2 ^ 11, 0)]
  | 0x70 => b.nvid
  | 0x74 => b.nvcrc
  | 0x78 => b.nvaddr
  | 0x7C => word [(b2n b.nverr, 1), (b2n b.nvdone, 0)]
  | 0x100 => word [(uns 16 b.fofs, 16), (b.clkState, 0)]
  | 0x104 => b.clkcfg
  | 0x108 => word [(b.glides, 16), (b.losses, 0)]
  | _ => 0

/-- Addresses 0x01000 to 0x01FFF (Table 11-9). -/
def cmdWord (d : Dev) (a : Nat) : Word :=
  let h := d.hp
  match a with
  | 0x1000 => h.handle
  | 0x1004 => h.arg0
  | 0x1008 => h.arg1
  | 0x1010 => word [(b2n h.done, 16), (h.stSeq, 8), (h.stStatus, 0)]
  | 0x1014 => h.cres
  | 0x1020 => word [(b2n h.rhalted, 16), (h.log2n, 8), (b2n h.ren, 0)]
  | 0x1024 => h.rbasel
  | 0x1028 => h.rbaseh
  | 0x102C => nw h.rtail
  | 0x1030 => nw h.rhead
  | 0x1038 => word [(b2n h.stoperr, 8), (h.pto, 0)]
  | 0x1040 => h.pcmd.getD 0 0
  | 0x1044 => h.pcmd.getD 1 0
  | 0x1048 => h.pcmd.getD 2 0
  | 0x104C => h.pcmd.getD 3 0
  | 0x1050 => h.pres
  | 0x1054 => word [(b2n h.held, 8)]
  | _ => 0

/-- R225: alerts within the last 10 s, at most 15. -/
def Dev.alertCount (d : Dev) : Nat := min 15 (d.bud.alerts.countP fun a => d.clk.now < a + 10000000000)

/-- R213: some ladder is unmet. -/
def Dev.anyUnmet (d : Dev) : Bool :=
  d.bud.ladder.unmet || d.tilesOn.any (fun t => (d.tl t).ladder.unmet) || d.allC.any fun p => (d.cl p.1 p.2).bud.ladder.unmet

/-- Addresses 0x02000 to 0x02FFF (Table 7-8). -/
def budWord (d : Dev) (a : Nat) : Word :=
  let b := d.bud
  if 0x2100 ≤ a ∧ a < 0x2200 then nw (b.grp.getD ((a - 0x2100) / 4) 0)
  else if 0x2200 ≤ a ∧ a < 0x2380 then
    let s := b.slack.getD ((a - 0x2200) / 4) {}
    word [(s.age, 22), (s.group, 16), (uns 16 s.slack, 0)]
  else match a with
  | 0x2000 => b.ctrl
  | 0x2004 => word [(b2n d.anyUnmet, 10), (b2n b.ladder.allow.isSome, 9), (b2n b.ladder.overT, 8), (b.ladder.h, 0)]
  | 0x2008 => nw b.devcap
  | 0x200C => nw b.devlim
  | 0x2010 => nw b.blocal
  | 0x2014 => nw (shown 24 b.pdev 1000)
  | 0x2018 => nw b.energy
  | 0x201C => nw (b.energy / 2 ^ 32)
  | 0x2020 => b.loss
  | 0x2024 => b.ladcfg
  | 0x2028 => b.ev
  | 0x202C => word [(d.alertCount, 8), (b2n b.hold, 2), (b2n b.pin, 1)]
  | 0x2030 => b.shift
  | _ => 0

/-- THM_STAT (Table 8-4). -/
def thmStat (d : Dev) : Word := word [(d.allC.countP fun p => (d.cl p.1 p.2).thm.broken, 10), (uns 8 d.thm.tmax, 0)]

/-- Addresses 0x03000 to 0x03FFF (Table 8-4). -/
def thmWord (d : Dev) (a : Nat) : Word :=
  match a with
  | 0x3000 => d.thm.cfg
  | 0x3004 => d.thm.hys
  | 0x3008 => d.thm.brk
  | 0x300C => d.thm.tcfg
  | 0x3010 => thmStat d
  | 0x3014 => word [(d.thm.hotTile, 8), (d.thm.hotCluster, 0)]
  | 0x3018 => d.thm.ev
  | _ => 0

/-- RDG_FLOOR (Table 9-9). -/
def rdgFloor (f : FaultDev) : Word := word [(f.isoCluster, 24), (f.isoTile, 16), (f.gen, 0)]

/-- RDG_FSTn (Table 9-10). -/
def fstWord (f : FaultDev) (n : Nat) : Word :=
  let lv := f.subLevel n
  let src := ((List.range 32).find? fun k => tst (f.pendWord n) k && f.srcLevel n k == lv).getD 0
  word [(f.count.getD (n - 1) 0, 16), (b2n (f.irq n), 15), (src, 8), (lv, 0)]

/-- RDG_FSUM.PEND, the subsystems with an instance pending at level 1 or above. -/
def FaultDev.sumPend (f : FaultDev) : List Nat := (List.range 12).filter fun n => n != 0 && 1 ≤ f.subLevel n

/-- Addresses 0x04000 to 0x04FFF (Tables 9-9, 9-10). -/
def fltWord (d : Dev) (a : Nat) : Word :=
  let f := d.flt
  if 0x4100 ≤ a ∧ a < 0x4C00 then
    let n := (a - 0x4000) / 0x100
    match a % 0x100 with
    | 0x00 => f.pendWord n
    | 0x04 => f.ien.getD (n - 1) 0
    | 0x08 => fstWord f n
    | 0x10 => (f.sev.getD (n - 1) []).getD 0 0
    | 0x14 => (f.sev.getD (n - 1) []).getD 1 0
    | 0x18 => (f.sev.getD (n - 1) []).getD 2 0
    | 0x1C => (f.sev.getD (n - 1) []).getD 3 0
    | _ => 0
  else if 0x4018 ≤ a ∧ a < 0x4024 then bits 32 (32 * ((a - 0x4018) / 4)) (boolAt f.tdeg)
  else match a with
  | 0x4000 =>
    word ([(b2n f.safe, 23), (b2n f.degraded, 22), ((f.pend.map (·.level)).foldl max 0, 19)] ++ f.sumPend.map fun n => (1, n))
  | 0x4004 => word [(f.safeSrc, 21), (f.safeSub, 17), (b2n f.safe, 16)]
  | 0x4008 => f.fcfg
  | 0x400C => word [(f.passes, 16), (fld f.scrub 15 0, 0)]
  | 0x4010 => word [(f.uncorr, 16), (f.corr, 0)]
  | 0x4014 => rdgFloor f
  | _ => 0

/-- LNK_ALLOC (Table 7-9). -/
def lnkAlloc (l : LinkDev) : Word := word [(l.allocAge, 24), (l.alloc, 0)]

/-- Addresses 0x05000 to 0x05FFF (Tables 7-9, 15-6). DEDUCED (log 123): ACTING shows from the first epoch boundary on (Table 15-2). -/
def lnkWord (d : Dev) (a : Nat) : Word :=
  let l := d.lnk
  if 0x5104 ≤ a ∧ a < 0x5110 then bits 32 (32 * ((a - 0x5104) / 4)) (boolAt d.pur.lost)
  else match a with
  | 0x5000 => l.ctrl
  | 0x5004 =>
    word [(l.since, 24), (b2n l.never, 16), (b2n l.alone, 15), (l.ewidth, 12), (l.wwidth, 9), (b2n (l.acting && d.clk.epoch != 0), 8), (b2n d.boot.straps.mstr, 7),
      (d.boot.straps.pos, 0)]
  | 0x5008 => nw l.rack
  | 0x500C => lnkAlloc l
  | 0x5010 => bits 32 0 fun p => (l.members.getD p {}).member
  | 0x5014 => bits 32 32 fun p => (l.members.getD p {}).member
  | 0x5018 => bits 32 0 fun p => (l.members.getD p {}).resv
  | 0x501C => bits 32 32 fun p => (l.members.getD p {}).resv
  | 0x5020 => l.ev
  | 0x5024 => word [(l.late, 16), (l.crcerr, 0)]
  | 0x5100 => d.pur.gev
  | 0x5110 => word [(d.pur.bypass, 16), (d.pur.retry, 0)]
  | _ => 0

/-- Addresses 0x06000 to 0x07FFF (Tables 6-12, 4-10). -/
def seqWord (d : Dev) (a : Nat) : Word :=
  let q := d.seq
  match a with
  | 0x6004 => word [(b2n d.held, 9), (b2n q.railsGood, 8), (q.phase, 0)]
  | 0x6008 => q.cfg
  | 0x600C => q.be01
  | 0x6010 => q.be23
  | 0x6014 => q.wk01
  | 0x6018 => q.wk23
  | 0x601C => q.adm
  | 0x6020 => q.ev
  | 0x6024 => word [(q.rej, 16), (q.trans, 0)]
  | 0x6800 => d.marg.cfg
  | 0x6804 => word [(b2n d.marg.ploss, 24), (d.marg.phigh, 12), (d.marg.aval, 0)]
  | _ => 0

/-- A word of the block of DMA channel `n` (Table 12-5). -/
def chanWord (c : Chan) (off : Nat) : Word :=
  match off with
  | 0x00 => nw (b2n c.en)
  | 0x04 => c.cfg
  | 0x08 => c.rbl
  | 0x0C => c.rbh
  | 0x10 => nw c.tail
  | 0x14 => nw c.head
  | 0x18 => word [(c.lastst, 16), (b2n c.aborted, 9), (c.st, 0)]
  | 0x1C => c.errl
  | 0x20 => c.errh
  | 0x24 => c.erri
  | 0x28 => nw c.resid
  | 0x2C => word [(c.notok, 16), (c.done, 0)]
  | _ => 0

/-- R341: the offsets of a channel block that hold a register. -/
def chanReg (n off : Nat) : Bool :=
  off % 4 == 0 && (if n = 0 then [0x04, 0x18, 0x1C, 0x20, 0x24, 0x28, 0x2C].contains off else off < 0x30)

/-- R343: the ring's entry is in progress on channel 0. -/
def HostDev.ringBusy (h : HostDev) : Bool := (match h.unit with | some (_, ring, _) => ring | none => false) || h.rback

/-- Addresses 0x08000 to 0x09FFF (Tables 12-4, 12-5). -/
def dmaWord (d : Dev) (a : Nat) : Word :=
  let m := d.dma
  if 0x8100 ≤ a ∧ a < 0x8300 then
    let n := (a - 0x8100) / 0x40
    if chanReg n (a % 0x40) then chanWord (m.ch.getD n {}) (a % 0x40) else 0
  else if 0x8008 ≤ a ∧ a < 0x8014 then bits 32 (32 * ((a - 0x8008) / 4)) fun t => m.bref.contains t
  else match a with
  | 0x8000 => nw (b2n m.nvwen)
  | 0x8004 =>
    word ((((m.ch.map fun c => c.slots.length)).foldl (· + ·) 0, 16) :: (idxs (fun c : Chan => c.st == 4) 0 m.ch).map (fun n => (1, 8 + n)) ++
      (b2n d.hp.ringBusy, 0) :: (idxs (fun c : Chan => c.desc.isSome) 0 m.ch).map fun n => (1, n))
  | _ => 0

/-- Addresses 0x0A000 to 0x0BFFF (Table 13-5). -/
def logWord (d : Dev) (a : Nat) : Word :=
  let l := d.log
  if 0xA060 ≤ a ∧ a < 0xA080 then
    match l.buf[l.index]? with
    | some r => (recWords r).getD ((a - 0xA060) / 4) 0
    | none => 0
  else match a with
  | 0xA004 => l.cfg
  | 0xA008 =>
    word [(b2n l.nvok, 28), (b2n l.full, 27), (b2n l.frozen, 26), (b2n l.clearing, 25), (b2n l.nonce.isSome, 24), (l.npend, 12), (l.frzTaken, 0)]
  | 0xA00C => nw l.wptr
  | 0xA010 => nw (l.pcc % 2 ^ 24)
  | 0xA014 => nw l.optime
  | 0xA018 => nw (l.optime / 2 ^ 32 % 256)
  | 0xA01C => nw l.seq
  | 0xA020 => word [(l.frzlost, 16), (l.drop, 0)]
  | 0xA024 => nw l.rlcnt
  | 0xA028 => nw (l.nonce.getD 0)
  | 0xA02C => nw (l.nonce.getD 0 / 2 ^ 32)
  | 0xA038 => l.ev
  | 0xA040 => word [(l.buf.length, 16), (l.index, 0)]
  | _ => 0

/-- R395: the live value of a device register; 0 where there is none. -/
def devWord (d : Dev) (a : Nat) : Word :=
  match a / 0x1000 with
  | 0 => idWord d a
  | 1 => cmdWord d a
  | 2 => budWord d a
  | 3 => thmWord d a
  | 4 => fltWord d a
  | 5 => lnkWord d a
  | 6 => seqWord d a
  | 8 => dmaWord d a
  | 10 => logWord d a
  | _ => 0

/-- R394, R395: an address below 0x10000 that holds a register. -/
def devReg (a : Nat) : Bool :=
  a % 4 == 0 && (
    (a < 0x20) || (0x40 ≤ a && a < 0x58) || a == 0x60 || a == 0x64 || (0x70 ≤ a && a < 0xA0) || (0x100 ≤ a && a < 0x10C) ||
    (0x1000 ≤ a && a < 0x1018) || (0x1020 ≤ a && a < 0x1034) || a == 0x1038 || (0x1040 ≤ a && a < 0x1058) ||
    (0x2000 ≤ a && a < 0x2034) || (0x2100 ≤ a && a < 0x2380) ||
    (0x3000 ≤ a && a < 0x301C) ||
    (0x4000 ≤ a && a < 0x4024) ||
    (0x4100 ≤ a && a < 0x4C00 && a % 0x100 < 0x20 && a % 0x100 != 0x0C) ||
    (0x5000 ≤ a && a < 0x5028) || (0x5100 ≤ a && a < 0x5114) ||
    (0x6000 ≤ a && a < 0x6028) || a == 0x6800 || a == 0x6804 ||
    (0x8000 ≤ a && a < 0x8014) || (0x8100 ≤ a && a < 0x8300 && chanReg ((a - 0x8100) / 0x40) (a % 0x40)) ||
    (0xA000 ≤ a && a < 0xA03C) || a == 0xA040 || (0xA060 ≤ a && a < 0xA080) || a == 0xC000)

/-! ### Effects of a read (R15, R17, R306, R307) -/

/-- R15: the RC fields of a device register return to 0. -/
def devClear (a : Nat) (d : Dev) : Dev :=
  if 0x4100 ≤ a ∧ a < 0x4C00 ∧ a % 0x100 = 8 then d.onFlt fun f => { f with count := f.count.set ((a - 0x4000) / 0x100 - 1) 0 }
  else if 0x8100 ≤ a ∧ a < 0x8300 ∧ a % 0x40 = 0x2C then
    { d with hp := if a < 0x8140 then { d.hp with wcnt := none } else d.hp
             dma := { d.dma with ch := d.dma.ch.modify ((a - 0x8100) / 0x40) fun c => { c with notok := 0, done := 0 } } }
  else match a with
  | 0x14 => { d with hp := { d.hp with hlref := d.hp.hlref.tail } }
  | 0x1C => { d with hp := { d.hp with hlrlost := 0, rej := 0 } }
  | 0x108 => { d with boot := { d.boot with glides := 0, losses := 0 } }
  | 0x400C => d.onFlt fun f => { f with passes := 0 }
  | 0x4010 => d.onFlt fun f => { f with uncorr := 0, corr := 0 }
  | 0x5024 => { d with lnk := { d.lnk with late := 0, crcerr := 0 } }
  | 0x5110 => { d with pur := { d.pur with bypass := 0, retry := 0 } }
  | 0x6024 => { d with seq := { d.seq with rej := 0, trans := 0 } }
  | 0xA020 => d.onLog fun l => { l with frzlost := 0, drop := 0 }
  | 0xA024 => d.onLog fun l => { l with rlcnt := 0 }
  | _ => d

/-- R17, Table 12-5: the low word of a channel's ring base or error address. -/
def dmaWide (a : Nat) : Bool := 0x8100 ≤ a && a < 0x8300 && ((a % 0x40 == 0x08 && 0x8140 ≤ a) || a % 0x40 == 0x1C)

/-- R17: the words after the least significant word of a wide value. -/
def wideTail (a : Nat) : List Nat :=
  match a with
  | 0x2018 => [0x201C]
  | 0x1024 => [0x1028]
  | 0xA014 => [0xA018]
  | 0xA028 => [0xA02C]
  | 0xA060 => [0xA064, 0xA068, 0xA06C, 0xA070, 0xA074, 0xA078, 0xA07C]
  | _ => if dmaWide a then [a + 4] else []
def inTail (a : Nat) : Bool := a == 0x201C || a == 0x1028 || (4 ≤ a && dmaWide (a - 4)) || a == 0xA018 || a == 0xA02C || (0xA064 ≤ a && a < 0xA080)

def HostDev.latch (h : HostDev) (r : Reader) : List (Nat × Word) := match r with | .host => h.latchH | .test => h.latchT | .ridge => h.latchR
def HostDev.setLatch (h : HostDev) (r : Reader) (l : List (Nat × Word)) : HostDev :=
  match r with | .host => { h with latchH := l } | .test => { h with latchT := l } | .ridge => { h with latchR := l }

/-- R17: a latched word, where one is latched. -/
def latched (l : List (Nat × Word)) (a : Nat) : Option Word := (l.find? (·.1 == a)).map (·.2)

/-- A read of a device register by a reader. DESIGN CHOICE (log 21): a later word of a wide value that the reader has never latched reads live. -/
def readDev (r : Reader) (a : Nat) (d : Dev) : Word × Dev :=
  if inTail a then ((latched (d.hp.latch r) a).getD (devWord d a), d)
  else
    let v := devWord d a
    let ws := (wideTail a).map fun b => (b, devWord d b)
    let d' := if ws.isEmpty then d else
      { d with hp := d.hp.setLatch r (((d.hp.latch r).filter fun p => !(wideTail a).contains p.1) ++ ws) }
    (v, devClear a d')

/-- The latched copy of a reader (R306). -/
def Mirror.copy (x : Mirror) (r : Reader) : Option (Snap × Nat) := match r with | .host => x.host | .test => x.test | .ridge => none
def Mirror.setCopy (x : Mirror) (r : Reader) (v : Option (Snap × Nat)) : Mirror :=
  match r with | .host => { x with host := v } | .test => { x with test := v } | .ridge => x

/-- R307: a copy formed at outer boundary `outer` does not include the subtraction of the read. -/
def RcRead.before (y : RcRead) (outer : Nat) : Bool := match y.applied with | none => true | some o => outer ≤ o

/-- R307: the field of a window offset has been read, and a copy formed at `outer` does not yet include its subtraction. -/
def Mirror.taken (x : Mirror) (outer off hi : Nat) : Bool := x.reads.any fun y => y.off == off && y.hi == hi && y.before outer

/-- R307: a word of a copy formed at `outer`, with the taken fields at 0. -/
def Mirror.masked (x : Mirror) (outer off : Nat) (w : Word) : Word :=
  (rcFields off).foldl (fun w p => if x.taken outer off p.1 then put w p.1 p.2 0 else w) w

/-- An operation on its way over Purlin, in order of issue (R295). -/
def launch (f : Flying) (d : Dev) : Dev := { d with air := d.air ++ [{ f with no := d.issued }], issued := d.issued + 1 }

/-- The writer that a reader is. -/
def readerWriter (r : Reader) : Writer := match r with | .host => .host | .test => .test | .ridge => .ridge

/-- R307: the subtractions that a read of `w` at a window offset sends. -/
def sendSubs (r : Reader) (t off : Nat) (w : Word) (d : Dev) : Dev :=
  (rcFields off).foldl (fun d p =>
    let n := fld w p.1 p.2
    if n = 0 then d
    else
      launch { src := readerWriter r, tile := t, cluster := off / 0x80, op := 0, seq := 0, kind := .sub off p.1 p.2 n }
        (d.onMir t fun x => { x with reads := x.reads ++ [{ off := off, hi := p.1, lo := p.2, no := d.issued }] })) d

/-- R304 to R307: a read in a tile window by the host, the test port or the Ridge; `copies` where latched copies are used and set. -/
def readTile (r : Reader) (copies : Bool) (t off : Nat) (d : Dev) : Word × Dev :=
  if !d.hasT t then (0, d)
  else
    let d := if copies && off == 0xFF0 && r != .ridge then d.onMir t fun x => x.setCopy r (some (x.cur, d.clk.now)) else d
    let x := d.mir t
    let s := match (if copies then x.copy r else none) with | some p => p.1 | none => x.cur
    let w := x.masked s.outer off (windowWord (snapView d t s) t off)
    (w, sendSubs r t off w d)

/-- The Ridge's RAM is open to the host window (R304). -/
def Dev.ramOpen (d : Dev) : Bool := d.ridge.isHalted

/-- R304: a read at a host address. -/
def readHost (r : Reader) (copies : Bool) (m : List Host.Cell) (a : Nat) (d : Dev) : Word × Dev :=
  if a < 0x10000 then readDev r a d
  else if a < 0x70000 then readTile r copies ((a - 0x10000) / 0x1000) (a % 0x1000) d
  else if 0x80000 ≤ a ∧ a < 0xA0000 ∧ d.ramOpen ∧ r ≠ .ridge then (Mem.readW m (a - 0x80000), d)
  else (0, d)

end Sys2Proof.Machine
end

