-- ==== Sys2Proof/Machine/CoreCtl.lean ====
section
/-!
DEFINITION. Sys2Proof/Machine/CoreCtl.lean: starting, checking, halting and restarting the program cores, their events, message queues and
watchdogs (R269, R273, R280, R286, R294 to R301, R317 to R322).
-/
namespace Sys2Proof.Machine

/-! ### Parts -/

/-- The core exists (R269). -/
def Dev.hasCore (d : Dev) (k : CoreId) : Bool := match k with | .ridge => true | .rafter t => d.hasT t
def coreWriter (k : CoreId) : Writer := match k with | .ridge => .ridge | .rafter t => .rafter t
def coreScope (k : CoreId) : Scope := match k with | .ridge => .device | .rafter t => .tile t
/-- A core as TILE fields name it: 0x7F for the Ridge. -/
def coreTile (k : CoreId) : Nat := match k with | .ridge => 0x7F | .rafter t => t
/-- Every core, the Ridge first. -/
def Dev.cores (d : Dev) : List CoreId := .ridge :: d.tilesOn.map CoreId.rafter

/-- The core executes: started, not halted, no watchdog expiry due. -/
def Core.runs (k : Core) : Bool := k.on && !k.isHalted && k.checking.isNone && !k.wdDue

/-! ### Events (R280) -/

/-- R280: the event occurs on the core. -/
def evOn (k : CoreId) (n : Nat) : Bool :=
  n < 32 && (match k with | .ridge => !(n == 11 || n == 14 || n == 15) | .rafter _ => !((7 ≤ n && n ≤ 10) || 13 ≤ n && n ≤ 15))
/-- R280: a level event. -/
def evLevel (n : Nat) : Bool := n == 3 || n == 4 || n == 6 || n == 7

/-- On every core. -/
def evAll (n : Nat) (d : Dev) : Dev := d.cores.foldl (fun d k => ev k n d) d

/-- Table 10-8: event FAULT's condition. -/
def Dev.faultLevel (d : Dev) (k : CoreId) : Bool :=
  match k with
  | .ridge => !d.flt.sumPend.isEmpty
  | .rafter t => d.flt.pend.any fun p => 1 ≤ p.level && (match p.scope with | .cluster a _ => a == t | .tile a => a == t | .device => false)

/-- R280: EVPEND. -/
def Dev.pendOf (d : Dev) (k : CoreId) : Word :=
  let x := d.core k
  let at' := fun (n : Nat) (p : Bool) (w : Word) => if p && evOn k n then setBit w n else w
  at' 7 d.hp.held (at' 6 (d.faultLevel k) (at' 4 (!x.lref.isEmpty) (at' 3 (!x.inq.isEmpty) x.evpend)))

/-- The lowest bit set of a word. -/
def lowBit (w : Word) : Option Nat := (List.range 32).find? fun n => tst w n

/-- R281: the event that is entered next. -/
def Dev.entryDue (d : Dev) (k : CoreId) : Option Nat := if (d.core k).active then none else lowBit (d.pendOf k &&& (d.core k).evmask)

/-! ### Refusals and messages (R294, R299, R301) -/

/-- A late refusal sets out for a writer. -/
def giveBack (w : Writer) (r : Refused) (d : Dev) : Dev := { d with back := d.back ++ [(w, r)] }

/-- R299: a message that is not delivered; a broadcast draws no refusal. -/
def refuseMsg (m : Msg) (st : Nat) (d : Dev) : Dev :=
  d.on (!m.bcast) (giveBack (coreWriter m.src) { status := st, op := 0x37, tile := m.dst.getD 0x7F, cluster := 0, seq := 0 })

/-- R301: the queues of a core that restarts, or whose tile resets, are emptied. -/
def dropQueues (k : CoreId) (d : Dev) : Dev :=
  (d.core k).inq.foldl (fun d m => refuseMsg m 4 d) (d.onCore k fun x => { x with inq := [], outq := [], lref := [] })

/-! ### The system bus (R367) -/

/-- R367: the beats of a write burst of bytes at an address: the strobes of each beat, and the bytes that they mark. -/
def beatsOf (a : Nat) (l : List Byte) : List (Nat × List Byte) :=
  (List.range ((a % 16 + l.length + 15) / 16)).map fun i =>
    let lo := max (a % 16) (16 * i)
    let n := min (a % 16 + l.length) (16 * i + 16) - lo
    ((2 ^ n - 1) * 2 ^ (lo - 16 * i), (l.drop (lo - a % 16)).take n)

/-- R367: a write burst goes out on the system bus. -/
def busWrite (a : Nat) (l : List Byte) (d : Dev) : Dev := { d with dma := { d.dma with bus := some { addr := a / 16 * 16, beats := beatsOf a l } } }

/-! ### The command unit (R312 to R317) -/

/-- R343, R344: channel 0's counts after a write-back of status `st`, which makes the Ridge's event DMA pending. They stand for one that has been written
back: what they were is kept for one that fails (`ringUncount`). -/
def ringCount (st : Nat) (d : Dev) : Dev :=
  let c := d.dma.ch.getD 0 {}
  ev .ridge 8 { d with
    hp := { d.hp with wcnt := some (c.done, c.notok), wlast := c.lastst }
    dma := { d.dma with ch := d.dma.ch.modify 0 fun c =>
      { c with lastst := st, done := incSat 0xFFFF c.done, notok := if st = 0 then c.notok else incSat 0xFFFF c.notok } } }

/-- R338, R343: the latest write-back of the ring has failed: its entry counts as not written back. DEDUCED (log 26): counts that a read has returned since
stand. -/
def ringUncount (d : Dev) : Dev :=
  { d with dma := { d.dma with ch := d.dma.ch.modify 0 fun c =>
      { c with lastst := d.hp.wlast, done := (d.hp.wcnt.getD (c.done, c.notok)).1, notok := (d.hp.wcnt.getD (c.done, c.notok)).2 } } }

/-- R341, R343: the write-back that failed is repeated: its burst goes out again, its entry counts, unless it has been counted, and HEAD advances. -/
def ringAgain (d : Dev) : Dev :=
  let h := d.hp
  let d := { d with hp := { h with rback := false, rhead := (h.rhead + 1) % 2 ^ h.log2n } }
  match h.wback with
  | none => d
  | some (i, w0, _) =>
    let d := busWrite (h.rbasel.toNat + 2 ^ 32 * h.rbaseh.toNat + 16 * i) (wordBytes w0) d
    if h.wcnt.isSome then ringCount (fld w0 23 16) d
    else ev .ridge 8 { d with dma := { d.dma with ch := d.dma.ch.modify 0 fun c => { c with lastst := fld w0 23 16 } } }

/-- R341, R344: DMA_CHST0.STATE follows the ring; a change makes the Ridge's event DMA pending. DEDUCED (log 26): a ring stopped with HALTED shows
as a halted channel, whatever stopped it. -/
def ringState (d : Dev) : Dev :=
  let h := d.hp
  let st := if h.rhalted then 4 else if !h.ren then 0 else if h.rhead = h.rtail then 1 else 2
  if (d.dma.ch.getD 0 {}).st = st then d
  else ev .ridge 8 { d with dma := { d.dma with ch := d.dma.ch.modify 0 fun c => { c with st := st } } }

/-- R314, R315: the command that holds the unit completes. -/
def unitDone (w : List Word) (ring : Bool) (st : Nat) (res : Option Word) (d : Dev) : Dev :=
  let h := d.hp
  let w0 := w.getD 0 0
  if ring then
    let h' := { h with
      unit := none, rhead := (h.rhead + 1) % 2 ^ h.log2n, rhalted := h.rhalted || (h.stoperr && st != 0)
      wback := some (h.rhead, put (put w0 31 31 0) 23 16 st, res.getD (w.getD 2 0)) }
    let at' := h.rbasel.toNat + 2 ^ 32 * h.rbaseh.toNat + 16 * h.rhead
    ringState (ringCount st (busWrite at' (wordBytes (put (put w0 31 31 0) 23 16 st)) { d with hp := h' }))
  else { d with hp := { h with unit := none, done := true, stSeq := fld w0 15 8, stStatus := st, cres := res.getD 0 } }

/-- R317: the held program command completes. -/
def programDone (st : Nat) (res : Option Word) (d : Dev) : Dev :=
  match d.hp.unit with
  | some (w, ring, .program) => unitDone w ring st res { d with hp := { d.hp with held := false, heldAt := 0 } }
  | _ => d

/-- R317: the Ridge halts or restarts. -/
def ridgeStops (d : Dev) : Dev := programDone 4 none d

/-! ### Starts (R273, R320, R321) -/

/-- A core right after a start at instant `now` (R273, R303): what a start keeps are its halts, with the mark of
a write into its instruction RAM during one (R322), its latest check and, by address, its RAMs. -/
def Core.fresh (x : Core) (cause now : Nat) : Core :=
  { on := true, halted := x.halted, stopped := x.stopped, dead := x.dead, chk := x.chk, rcause := cause, dirty := x.dirty && (x.halted || x.stopped)
    haltAt := if x.halted || x.stopped then now else 0 }

/-- Table 10-12: a halt by the host or the test engineer. -/
def Core.isHeld (x : Core) : Bool := x.halted || x.stopped

/-- Table 10-12: CYCLE takes in the cycles of a halt that ends, one a nanosecond (Table 10-1); a WAIT that waits counts them no second time.
R322: the mark of a write into instruction RAM is that of one halt. -/
def Core.holdChange (now : Nat) (f : Core → Core) (x : Core) : Core :=
  let y := f x
  if y.isHeld then (if x.isHeld then y else { y with haltAt := now, dirty := false })
  else if x.isHeld then
    let n := now - x.haltAt
    { y with haltAt := 0, dirty := false, cycle := y.cycle + n, waiting := y.waiting.map fun w => { w with since := w.since + n } }
  else y

/-- R273, R348: a core starts on its resident program, or on a loaded one with its entry and TAG. -/
def startCore (k : CoreId) (cause : Nat) (img : Option (Nat × Word)) (d : Dev) : Dev :=
  let d := d.onCore k fun x => match img with
    | none => x.fresh cause d.clk.now
    | some p => { x.fresh cause d.clk.now with pc := nw p.1, loaded := true, tag := p.2 }
  -- Table 11-5: what a start of the Ridge finds
  let d := if k == .ridge then { d with boot := { d.boot with startDue := img.isNone && d.seq.phase == 0, runDue := img.isNone } } else d
  takeRec { code := 0x0820, sub := 8, tile := coreTile k, d0 := nw cause, d1 := match img with | some p => p.2 | none => 0 } d

/-- R301, R317: a core stops in order to restart. -/
def stopCore (k : CoreId) (d : Dev) : Dev :=
  let d := dropQueues k (d.on (k == .ridge) ridgeStops)
  d.onCore k fun x => { x with on := false, waiting := none, checking := none, wdDue := false, loaded := false, tag := 0 }

/-- R320: the selection of a core. -/
def Dev.selLoaded (d : Dev) (k : CoreId) : Bool := match k with | .ridge => d.hp.rsel | .rafter _ => d.hp.fsel

/-- R320: a core restarts on its selection: at once, or after a load check. -/
def restart (k : CoreId) (cause : Nat) (d : Dev) : Dev :=
  let d := stopCore k d
  if d.selLoaded k then d.onCore k fun x => { x with checking := some cause, rcause := cause }
  else startCore k cause none d

/-- R32, R321: a core restarts on its resident program; the Ridge's selection is cleared. -/
def restartResident (k : CoreId) (cause : Nat) (d : Dev) : Dev :=
  let d := startCore k cause none (stopCore k d)
  match k with | .ridge => { d with hp := { d.hp with rsel := false } } | .rafter _ => d

/-- R382, R383, R384: no reset keeps the core from starting. -/
def Dev.mayRun (d : Dev) (k : CoreId) : Bool :=
  d.boot.started && !d.boot.wrst && !d.boot.fast && (match k with | .ridge => true | .rafter t => !(d.tl t).rst)

/-- R260, R321: a RAM of the core holds an uncorrectable word: the core restarts from its ROM at once, or when the reset that keeps it stopped ends. -/
def ramFault (k : CoreId) (d : Dev) : Dev :=
  if d.mayRun k then restartResident k 5 d
  else
    let d := d.onCore k fun x => { x with ramBad := true }
    d.on (k == .ridge) fun d => { d with hp := { d.hp with rsel := false } }

/-- R321: a core starts after a reset: on its selection, or, where its RAM proved uncorrectable meanwhile, on its resident program. DEDUCED (log 121): the
latter with the cause of that word. -/
def startAfter (k : CoreId) (cause : Nat) (d : Dev) : Dev := if (d.core k).ramBad then restartResident k 5 d else restart k cause d

/-- The cores that a reset of the device restarts (R382 to R384): all but the Rafters of tiles in reset. -/
def Dev.awake (d : Dev) : List CoreId := d.cores.filter fun k => match k with | .ridge => true | .rafter t => !(d.tl t).rst

/-! ### The load check (R318, R320) -/

def instrBase (k : CoreId) : Nat := match k with | .ridge => 0 | .rafter t => tileBase t
def instrSize (k : CoreId) : Nat := match k with | .ridge => 0x10000 | .rafter _ => 0x8000
def dataBase (k : CoreId) : Nat := match k with | .ridge => ridgeD | .rafter t => tileBase t + dataRam
def dataSize (k : CoreId) : Nat := match k with | .ridge => 0x10000 | .rafter _ => 0x4000

/-- Table 11-4: word `i` of the header in instruction RAM. -/
def headerWord (m : List Host.Cell) (k : CoreId) (i : Nat) : Nat := (Mem.readW m (instrBase k + 4 * i)).toNat

/-- R320: the outcome of a load check: 1 passed, 2 header failed, 3 CRC failed. -/
def loadOutcome (m : List Host.Cell) (k : CoreId) : Nat :=
  let h := headerWord m k
  let len := h 2
  let kind := match k with | .ridge => 1 | .rafter _ => 2
  if h 0 ≠ 0x4B585047 ∨ h 1 ≠ 0x100 + kind ∨ len % 4 ≠ 0 ∨ len < 64 ∨ instrSize k < len ∨ h 3 % 4 ≠ 0 ∨ h 3 < 32 ∨ len ≤ h 3 ∨ h 6 ≠ 0 ∨ h 7 ≠ 0 then 2
  else if crc32 (Mem.readL m (instrBase k + 32) (len - 32)) = h 4 then 1 else 3

/-- LOAD_CHECK (R320): the check completes and the core starts. -/
def loadCheck (m : List Host.Cell) (k : CoreId) (d : Dev) : Dev :=
  match (d.core k).checking with
  | none => d
  | some cause =>
    let r := loadOutcome m k
    let tag := nw (headerWord m k 5)
    let d := d.onCore k fun x => { x with checking := none, chk := r }
    if r = 1 then startCore k cause (some (headerWord m k 3, tag)) d
    else
      restartResident k 4 (raiseAt 8 (if k == .ridge then 2 else 3) (coreScope k) 4 tag none none 0 d)

/-! ### Halts and host starts (R322) -/

/-- The host halts a core; its halt begins with no write into its instruction RAM (R322). A core it holds already stays as it is. -/
def haltCore (k : CoreId) (d : Dev) : Dev :=
  (d.onCore k (Core.holdChange d.clk.now fun x => if x.halted then x else { x with halted := true, dirty := false })).on (k == .ridge) ridgeStops

/-- The host releases a core: it resumes, or restarts where its instruction RAM was written. R286: its watchdog counts from 0. -/
def releaseCore (k : CoreId) (d : Dev) : Dev :=
  if !(d.core k).halted then d
  else
    let dirty := (d.core k).dirty
    let d := d.onCore k (Core.holdChange d.clk.now fun x => { x with halted := false, wd := 0 })
    d.on dirty (restart k 6)

/-- The host restarts a core on its selection. -/
def hostStart (k : CoreId) (d : Dev) : Dev := restart k 6 (d.onCore k (Core.holdChange d.clk.now fun x => { x with halted := false }))

/-- The Rafters that FSTARTALL, FHALTALL and FRELALL reach. -/
def Dev.rafters (d : Dev) : List CoreId := (d.tilesOn.filter fun t => !(d.tl t).rst).map CoreId.rafter

/-- R322: a write of RDG_PCTL, accepted: selections first. -/
def pctlWrite (v : Word) (d : Dev) : Dev :=
  let d := { d with hp := { d.hp with rsel := tst v 1, fsel := tst v 11 } }
  let d := if tst v 2 then hostStart .ridge d
    else if tst v 0 then d.on (!d.ridge.halted) (haltCore .ridge) else releaseCore .ridge d
  if tst v 10 then d.rafters.foldl (fun d k => hostStart k d) d.offering
  else if tst v 8 then d.rafters.foldl (fun d k => haltCore k d) d
  else if tst v 9 then d.rafters.foldl (fun d k => releaseCore k d) d.offering
  else d

/-- R322: a write of RFT_CTL. -/
def rftCtlWrite (t : Nat) (v : Word) (d : Dev) : Dev :=
  if tst v 1 then hostStart (.rafter t) d
  else if tst v 0 then d.on (!(d.tl t).core.halted) (haltCore (.rafter t)) else releaseCore (.rafter t) d

/-! ### Watchdogs (R286, R287) -/

/-- A tick of a core's watchdog, which counts whatever the core does but for a halt by the host or the test engineer. A resident program that runs kicks
at 200 ticks (Tables 11-5, 11-6). -/
def Core.tickDog (x : Core) : Core :=
  if !x.on || x.isHeld || x.wdDue then x
  else
    let n := x.wd + 1
    if !x.loaded && x.runs && 200 ≤ n then { x with wd := 0, periodE := x.period }
    else { x with wd := n, wdDue := decide (x.periodE ≤ n) }

/-- R286: a kick. -/
def Core.kick (x : Core) : Core := { x with wd := 0, periodE := x.period }

/-- WATCHDOG_EXPIRY (R286, R32): a watchdog that is due restarts its core from its resident ROM. -/
def watchdogExpiry (k : CoreId) (d : Dev) : Dev :=
  d.on (d.hasCore k && (d.core k).wdDue) fun d =>
    let tag := if (d.core k).loaded then (d.core k).tag else 0
    restartResident k 3 (raiseAt 8 (if k == .ridge then 0 else 1) (coreScope k) 3 tag none none 0 d)

/-! ### Delivery (R298, R299) -/

/-- R299: the status of a delivery to a core. -/
def Dev.deliverTo (d : Dev) (k : CoreId) : Nat :=
  match k with
  | .ridge => if !d.ridge.on then 4 else if 16 ≤ d.ridge.inq.length then 8 else 0
  | .rafter t =>
    let x := d.tl t
    if boolAt d.pur.lost t then 3 else if x.rst || !x.core.on then 4 else if 16 ≤ x.core.inq.length then 8 else 0

def putMsg (k : CoreId) (m : Msg) (d : Dev) : Dev := d.onCore k fun x => { x with inq := x.inq ++ [m] }

/-- R295: nothing that the core issued earlier is still on its way to the tile. -/
def Dev.first (d : Dev) (w : Writer) (t : Option Nat) (no : Nat) : Bool :=
  d.air.all fun f => !(f.src == w && (t == none || t == some f.tile) && f.no < no)

/-- R297, R301: the messages of a core that are still to be delivered, oldest first: those in transit, then its outbound queue. -/
def Dev.sentBy (d : Dev) (k : CoreId) : List Msg := d.wire.filter (·.src == k) ++ (d.core k).outq

/-- R295: a broadcast comes after every earlier message of the core to a tile. -/
def Dev.msgFirst (d : Dev) (k : CoreId) (m : Msg) : Bool := !m.bcast || (d.sentBy k).all fun y => y.dst.isNone || !(y.no < m.no)

/-- A message leaves transit, or the outbound queue. -/
def dropMsg (m : Msg) (d : Dev) : Dev :=
  ({ d with wire := d.wire.filter fun y => y.no != m.no }).onCore m.src fun x => { x with outq := x.outq.filter fun y => y.no != m.no }

/-- R301: a core's outbound messages set out. DESIGN CHOICE (log 104): at each tick boundary. -/
def sendOut (k : CoreId) (d : Dev) : Dev := { d with wire := d.wire ++ (d.core k).outq }.onCore k fun x => { x with outq := [] }

/-- MESSAGE_DELIVERY (R295, R298, R299): the core's oldest message to a destination arrives; a broadcast arrives at every Rafter. -/
def deliver (src : CoreId) (t : Option Nat) (d : Dev) : Dev :=
  match (d.sentBy src).find? fun m => (m.bcast && t.isSome) || (!m.bcast && m.dst == t) with
  | none => d
  | some m =>
    if !d.first (coreWriter src) (if m.bcast then none else t) m.no || !d.msgFirst src m then d
    else
      let d := dropMsg m d
      if m.bcast then d.rafters.foldl (fun d k => d.on (d.deliverTo k == 0) (putMsg k m)) d
      else
        let k := match t with | none => CoreId.ridge | some n => .rafter n
        let st := d.deliverTo k
        if st = 0 then putMsg k m d else refuseMsg m st d

/-- LATE_REFUSAL (R294, R309): the oldest refusal on its way to a writer enters its queue. -/
def lateRefusal (w : Writer) (d : Dev) : Dev :=
  match d.back.find? (·.1 == w) with
  | none => d
  | some (_, r) =>
    let d := { d with back := d.back.eraseP (·.1 == w) }
    let core := fun (k : CoreId) => d.onCore k fun x =>
      if !x.on then x else if x.lref.length < 8 then { x with lref := x.lref ++ [r] } else { x with lrlost := incSat 255 x.lrlost }
    match w with
    | .ridge => core .ridge
    | .rafter t => core (.rafter t)
    | _ =>
      { d with hp := { d.hp with fenced := incSat 255 d.hp.fenced
                                 hlref := if d.hp.hlref.length < 8 then d.hp.hlref ++ [r] else d.hp.hlref
                                 hlrlost := if d.hp.hlref.length < 8 then d.hp.hlrlost else incSat 255 d.hp.hlrlost } }

/-- LOAD_CHECK (R320). -/
def execLoadCheck (k : CoreId) (s : State) : Host.Outcome State Fault Refusal := fin s (loadCheck s.mem k s.dev)

/-- WATCHDOG_EXPIRY (R286). -/
def execWatchdogExpiry (k : CoreId) (s : State) : Host.Outcome State Fault Refusal := fin s (watchdogExpiry k s.dev)

/-- MESSAGE_DELIVERY (R299). -/
def execMessageDelivery (src : CoreId) (t : Option Nat) (s : State) : Host.Outcome State Fault Refusal := fin s (deliver src t s.dev)

/-- LATE_REFUSAL (R294). -/
def execLateRefusal (dst : Writer) (s : State) : Host.Outcome State Fault Refusal := fin s (lateRefusal dst s.dev)

end Sys2Proof.Machine
end

