-- ==== Sys2Proof/Machine/Link.lean ====
section
/-!
DEFINITION. Sys2Proof/Machine/Link.lean: the Ridge link and the allocation exchange (R216 to R223), and the board-stage alert (R224, R225).
-/
namespace Sys2Proof.Machine

def Dev.onLnk (d : Dev) (f : LinkDev → LinkDev) : Dev := { d with lnk := f d.lnk }
def otherSide (s : Side) : Side := match s with | .W => .E | .E => .W
def LinkDev.width (l : LinkDev) (s : Side) : Nat := match s with | .W => l.wwidth | .E => l.ewidth
/-- R216: a link has trained, at a width or at none. -/
def LinkDev.setWidth (l : LinkDev) (s : Side) (n : Nat) : LinkDev :=
  match s with | .W => { l with wwidth := n, wtrain := false } | .E => { l with ewidth := n, etrain := false }
def Dev.pos (d : Dev) : Nat := d.boot.straps.pos
def LinkDev.member (l : LinkDev) (p : Nat) : Member := l.members.getD p {}
def LinkDev.onMember (l : LinkDev) (p : Nat) (f : Member → Member) : LinkDev := { l with members := l.members.modify p f }

/-! ### Training (R216) -/

/-- R216: a link starts training: it carries nothing until it has trained. -/
def retrainSide (s : Side) (l : LinkDev) : LinkDev :=
  match s with | .W => { l with wwidth := 0, wtrain := true, failsW := 0 } | .E => { l with ewidth := 0, etrain := true, failsE := 0 }

/-- R221: the link has trained, at no width. -/
def LinkDev.unlinked (l : LinkDev) (s : Side) : Bool := match s with | .W => !l.wtrain && l.wwidth == 0 | .E => !l.etrain && l.ewidth == 0

/-- R221: stand-alone operation begins, or has a further ground: an allocation received before ends it no more. -/
def LinkDev.lose (l : LinkDev) : LinkDev :=
  { l with alone := true, aloneTick := true, lossEpochs := if l.alone then l.lossEpochs else 0, dueOld := l.allocDue.isSome }

/-- R216, R221: a link has trained at a width, or at none. -/
def linkTrained (s : Side) (width : Nat) (d : Dev) : Dev :=
  if !tst d.lnk.ctrl 0 then d
  else
    let w := if width = 1 ∨ width = 2 ∨ width = 4 then width else 0
    let d := d.onLnk fun l => l.setWidth s w
    let d := d.on (w == 1 || w == 2) (raise 9 1 .device 0)
    let d := d.on (w == 0) (raise 9 2 .device 0)
    -- R221: both links have trained at no width
    d.on (d.lnk.unlinked s && d.lnk.unlinked (otherSide s) && !d.lnk.acting) fun d =>
      d.onLnk LinkDev.lose

/-! ### Frames (R219, Table 7-4) -/

/-- A frame with its CRC word. -/
def sealed (ws : List Word) : List Word := ws ++ [nw (crc32 (ws.flatMap wordBytes))]

/-- R219: the CRC word is right. -/
def crcOk (f : List Word) : Bool := f.getLast? == some (nw (crc32 (f.dropLast.flatMap wordBytes)))

/-- R219: the frame is one of Table 7-4 of TYPE `ty`, its reserved fields 0. -/
def frameOk (ty : Nat) (f : List Word) : Bool :=
  let w := fun i => f.getD i 0
  crcOk f && fld (w 0) 31 28 == ty && (match ty with
    | 1 => f.length == 4 && fld (w 0) 21 0 == 0 && fld (w 2) 31 24 == 0
    | 2 => f.length == 8 && fld (w 0) 21 4 == 0 && [2, 3, 4, 5].all (fun i => fld (w i) 31 24 == 0) && w 6 == 0
    | 3 =>
      let n := fld (w 0) 6 0
      1 ≤ n && n ≤ 64 && f.length == 3 + n && fld (w 0) 21 7 == 0 && (List.range n).all fun i => fld (w (i + 2)) 25 24 == 0
    | _ => false)

/-- R220: the order of service of a frame's kind: EPOCH, ALLOC, REPORT. -/
def frameRank (f : List Word) : Nat := match fld (f.getD 0 0) 31 28 with | 1 => 0 | 3 => 1 | _ => 2

/-- R220: a frame queued in the order of service, behind the frames of its own kind. DESIGN CHOICE (log 103). -/
def queueFrame (f : List Word) (q : List (List Word)) : List (List Word) :=
  q.filter (frameRank · ≤ frameRank f) ++ f :: q.filter (frameRank f < frameRank ·)

/-- A frame is handed to a link that operates. -/
def sendFrame (s : Side) (f : List Word) (d : Dev) : Dev :=
  d.on (tst d.lnk.ctrl 0 && d.lnk.width s != 0) fun d =>
    d.onLnk fun l => match s with | .W => { l with txW := queueFrame f l.txW } | .E => { l with txE := queueFrame f l.txE }

/-- R219: a frame that fails is dropped and counted. -/
def dropFrame (d : Dev) : Dev := raise 9 5 .device 0 (d.onLnk fun l => { l with crcerr := incSat 0xFFFF l.crcerr })

/-- R216, R219: a frame that fails its CRC is dropped and counted; the sixteenth in an epoch starts training. -/
def badFrame (s : Side) (d : Dev) : Dev :=
  let d := dropFrame (d.onLnk fun l => match s with | .W => { l with failsW := l.failsW + 1 } | .E => { l with failsE := l.failsE + 1 })
  d.on (16 ≤ (match s with | .W => d.lnk.failsW | .E => d.lnk.failsE)) fun d => d.onLnk (retrainSide s)

/-- R219: a frame that is not as Table 7-4 lays down: only one whose CRC fails counts toward training (R216). -/
def frameFails (s : Side) (f : List Word) (d : Dev) : Dev := if crcOk f then dropFrame d else badFrame s d

/-! ### REPORT (R219) -/

/-- A sum of cluster powers in mW, with the conversion of R203, as W in 24 bits. -/
def Dev.asDevice (d : Dev) (p : Int) : Nat := shown 24 (d.bud.devPower p) 1000

/-- The REPORT that answers an EPOCH. DEDUCED (log 22): NARROW is a link that has trained below width 4. -/
def Dev.reportFrame (d : Dev) (enum : Nat) : List Word :=
  let l := d.lnk
  let narrow := fun (n : Nat) => n == 1 || n == 2
  let flags := b2n d.bud.unmetRep + 2 * b2n (l.aloneTick || l.alone) + 4 * b2n (narrow l.wwidth || narrow l.ewidth) + 8 * b2n l.never
  sealed [word [(2, 28), (d.pos, 22), (flags, 0)], nw enum, nw (d.asDevice d.bud.floorP), nw (max d.bud.pmean (d.asDevice d.bud.demandP)),
    nw d.bud.pmean, nw d.bud.localE, 0]

/-- R213: the REPORT that has been made carries UNMET once. -/
def Dev.reported (d : Dev) : Dev := { d with bud := { d.bud with unmetRep := false } }

/-! ### Receiving (R218, R220) -/

/-- R220: an ENUM joins those forwarded. DESIGN CHOICE (log 103): the latest 64 are remembered. -/
def noteEnum (n : Nat) (l : List Nat) : List Nat := n :: l.take 63

/-- EPOCH (R218, R220, R221): a frame arrives on a link. R226: links that do not operate take none. -/
def epochFrame (s : Side) (f : List Word) (d : Dev) : Dev :=
  if !tst d.lnk.ctrl 0 then d
  else if !frameOk 1 f then frameFails s f d
  else
    let mpos := fld (f.getD 0 0) 27 22
    let enum := (f.getD 1 0).toNat
    let d := d.on (d.lnk.acting && mpos < d.pos) fun d =>
      raise 9 3 .device 0 (d.onLnk fun l => { l with acting := false, collecting := false })
    if d.lnk.acting then d
    else
      let d := ev .ridge 9 (d.onLnk fun l => { l with since := 0, ticks := 0, heard := true })
      if d.lnk.seenEpoch.contains enum then d
      else
        let d := d.onLnk fun l => { l with seenEpoch := noteEnum enum l.seenEpoch, back := some s }
        (sendFrame s (d.reportFrame enum) (sendFrame (otherSide s) f d)).reported

/-- R220: a REPORT reaches the acting master. -/
def takeReport (f : List Word) (d : Dev) : Dev :=
  let p := fld (f.getD 0 0) 27 22
  if d.lnk.collecting && f.getD 1 0 == nw d.lnk.enum then
    let d := d.onLnk fun l => l.onMember p fun m => { m with count := m.count + 1, report := f }
    d.on ((d.lnk.member p).count == 2) (raise 9 4 .device (nw p))
  else raise 9 6 .device 0 (d.onLnk fun l => { l with late := incSat 0xFFFF l.late })

/-- REPORT (R220): a frame arrives on a link. -/
def reportIn (s : Side) (f : List Word) (d : Dev) : Dev :=
  if !tst d.lnk.ctrl 0 then d
  else if !frameOk 2 f then frameFails s f d
  else if d.lnk.acting then takeReport f d
  else match d.lnk.back with
    | some b => sendFrame b f d
    | none => d

/-- R220, R221: the allocation of this position in an ALLOC frame. -/
def allocOf (p : Nat) (f : List Word) : Option Nat :=
  ((f.drop 2).dropLast.find? fun w => fld w 31 26 == p).map fun w => fld w 23 0

/-- ALLOC (R220, R221): a frame arrives on a link. -/
def allocIn (s : Side) (f : List Word) (d : Dev) : Dev :=
  if !tst d.lnk.ctrl 0 then d
  else if !frameOk 3 f then frameFails s f d
  else if d.lnk.acting then d
  else
    let enum := (f.getD 1 0).toNat
    let d := ev .ridge 9 d
    if d.lnk.seenAlloc.contains enum then d
    else
      let d := sendFrame (otherSide s) f (d.onLnk fun l => { l with seenAlloc := noteEnum enum l.seenAlloc })
      d.onLnk fun l => match allocOf d.pos f with
        | some a => { l with allocDue := some a, dueOld := false, missed := 0 }
        | none => { l with missed := l.missed + 1 }

/-! ### The member's epoch boundary and heartbeat (R220, R221) -/

/-- R220, R221: the allocation received becomes the budget source; one received before the loss is the last allocation of a device that stays stand-alone. -/
def takeAlloc (d : Dev) : Dev :=
  match d.lnk.allocDue with
  | none => d
  | some a => putDevcap (d.onLnk fun l =>
      { l with alloc := a, allocAge := 0, never := false, alone := l.alone && l.dueOld, inUse := true, allocDue := none, dueOld := false })

/-- R220: the acting master opens an epoch: its EPOCH on both links, its own report among those it will count. -/
def openEpoch (d : Dev) : Dev :=
  let enum := (d.lnk.enum + 1) % 2 ^ 32
  let f := sealed [word [(1, 28), (d.pos, 22)], nw enum, nw d.lnk.rack]
  let own := d.reportFrame enum
  let d := d.onLnk fun l =>
    let l := { l with enum := enum, collecting := true, members := l.members.map fun (m : Member) => { m with count := 0, report := [] } }
    l.onMember d.pos fun m => { m with count := 1, report := own }
  (sendFrame .E f (sendFrame .W f d)).reported

/-- The link's part of an own epoch boundary. -/
def linkEpoch (d : Dev) : Dev :=
  let d := d.onLnk fun l =>
    { l with since := incSat 255 l.since, allocAge := incSat 255 l.allocAge, failsW := 0, failsE := 0, txW := [], txE := []
             lossEpochs := if l.alone then l.lossEpochs + 1 else 0 }
  let d := putDevcap (takeAlloc d)
  let d := d.on d.lnk.acting openEpoch
  d.onLnk fun l => { l with aloneTick := l.alone }

/-- HEARTBEAT_LOSS (R221): a member that has missed its master, or its allocations, becomes stand-alone. -/
def heartbeatLoss (d : Dev) : Dev :=
  let l := d.lnk
  d.on (!l.acting && l.heard && (300 ≤ l.ticks || 3 ≤ l.missed)) fun d =>
    putDevcap (raise 9 0 .device (nw d.pos) (d.onLnk fun l => { l.lose with heard := false, missed := 0 }))

/-- The link's part of a tick. -/
def LinkDev.tick (l : LinkDev) : LinkDev := { l with ticks := incSat 300 l.ticks, aloneTick := l.aloneTick || l.alone }

/-! ### Allocation (R222) -/

/-- A member's place in an allocation. -/
structure Claim where
  pos : Nat
  floor : Int
  demand : Int
  locl : Int

def Member.claim (m : Member) (p : Nat) : Claim :=
  let w := fun i => (fld (m.report.getD i 0) 23 0 : Int)
  { pos := p, floor := if tst (m.report.getD 0 0) 0 then max (w 2) (w 4) else w 2, demand := w 3, locl := w 5 }

/-- R222: what the reservation of a position holds back. -/
def Member.reserve (m : Member) : Int := if !m.resv then 0 else if m.absent ≤ 10 then m.alloc else ((m.mlocal * 9 / 10 : Nat) : Int)

/-- R222: the leftover watts, one each in rising order of position. -/
def giveLeft : Int → List Int → List Int
  | _, [] => []
  | k, a :: l => if 0 < k then (a + 1) :: giveLeft (k - 1) l else a :: giveLeft k l

/-- R222: the allocations of the members' claims, and whether the floors and reserves exceed the rack budget. -/
def allocate (rack : Nat) (res : Int) (cs : List Claim) : List Int × Bool :=
  let R : Int := rack
  let sF := sumI (cs.map (·.floor))
  let sD := sumI (cs.map (·.demand))
  if rack = 0xFFFFFF then (cs.map (·.locl), false)
  else
    let r : Int × List Int × Bool :=
      if R < sF + res then (R * sF / (sF + res), cs.map (fun c => max 1 (c.floor * R / (sF + res))), true)
      else
        let avail := R - res
        if sD ≤ avail then (avail, cs.map (fun c => c.demand + (avail - sD) / cs.length), false)
        else (avail, cs.map (fun c => c.floor + (avail - sF) * (c.demand - c.floor) / (sD - sF)), false)
    (giveLeft (r.1 - sumI r.2.1) r.2.1, r.2.2)

/-- R222: membership at a collection close: one position. -/
def closeMember (p : Nat) (d : Dev) : Dev :=
  let m := d.lnk.member p
  if m.count = 1 then
    let d := d.onLnk fun l => l.onMember p fun m =>
      { m with member := true, resv := false, absent := 0, mlocal := fld (m.report.getD 5 0) 23 0 }
    d.on (!m.member) (raise 9 7 .device (nw p))
  else if m.member then
    raise 9 8 .device (nw p) (d.onLnk fun l => l.onMember p fun m => { m with member := false, resv := true, absent := 1 })
  else d.onLnk fun l => l.onMember p fun m => if m.resv then { m with absent := m.absent + 1 } else m

/-- R222: the resident program's allocations, sent and kept. DESIGN CHOICE (log 136): with no member the frame goes out with COUNT 0. -/
def sendAllocs (d : Dev) : Dev :=
  let ps := idxs (·.member) 0 d.lnk.members
  let r := allocate d.lnk.rack (sumI (d.lnk.members.map Member.reserve)) (ps.map fun p => (d.lnk.member p).claim p)
  let as := r.1.map fun a => (clampI 0 0xFFFFFF a).toNat
  let d := d.on r.2 (raise 9 9 .device 0)
  let f := sealed (word [(3, 28), (d.pos, 22), (ps.length, 0)] :: nw d.lnk.enum :: (ps.zip as).map fun p => word [(p.1, 26), (p.2, 0)])
  let d := (ps.zip as).foldl (fun d p => d.onLnk fun l => l.onMember p.1 fun m => { m with alloc := p.2 }) d
  let d := sendFrame .E f (sendFrame .W f d)
  d.onLnk fun l => match allocOf d.pos f with | some a => { l with allocDue := some a, dueOld := false } | none => l

/-- COLLECTION_CLOSE (R222): the acting master closes collection; its resident Ridge program computes and sends the allocations. -/
def collectionClose (d : Dev) : Dev :=
  d.on (d.lnk.acting && d.lnk.collecting) fun d =>
    let d := (List.range 64).foldl (fun d p => closeMember p d) (d.onLnk fun l => { l with collecting := false })
    d.on (d.ridge.runs && !d.ridge.loaded) sendAllocs

/-! ### Board-stage alert (R224, R225) -/

/-- BOARD_ALERT (R224). -/
def boardAlert (ns : Nat) (d : Dev) : Dev :=
  let d := d.at ns
  let d := { d with bud := { d.bud with pin := true, hold := true, alerts := (ns :: d.bud.alerts.filter fun a => ns < a + 10000000000).take 15 } }
  raise 6 3 .device (nw d.alertCount) (lowestAll d)

/-- R225, R247: forced states are taken up where a hold has ended. -/
def holdEnds (d : Dev) : Dev := d.eachC takeForced

/-- R225: the status of a RELEASE. -/
def Dev.alertStatus (d : Dev) : Nat := if d.bud.hold && !d.bud.pin && d.bud.highSince + 1000000 ≤ d.clk.now then 0 else 2

/-- R225: the alert hold ends. -/
def alertRelease (d : Dev) : Dev := holdEnds { d with bud := { d.bud with hold := false } }

/-! ### Meanings -/

/-- LINK_TRAINED (R216). -/
def execLinkTrained (side : Side) (width : Nat) (s : State) : Host.Outcome State Fault Refusal := fin s (linkTrained side width s.dev)

/-- LINK_TRAIN_RETRY (R216): a link without a width trains again; it has none until LINK_TRAINED says so. -/
def execLinkTrainRetry (side : Side) (s : State) : Host.Outcome State Fault Refusal :=
  fin s (s.dev.onLnk fun l => if l.width side = 0 then retrainSide side l else l)

/-- LINK_BLOCK_TIMEOUT (R216, R217): training starts. -/
def execLinkBlockTimeout (side : Side) (s : State) : Host.Outcome State Fault Refusal := fin s (s.dev.onLnk (retrainSide side))

/-- EPOCH (R220). -/
def execEpoch (side : Side) (frame : List Word) (s : State) : Host.Outcome State Fault Refusal := fin s (epochFrame side frame s.dev)

/-- REPORT (R220). -/
def execReport (side : Side) (frame : List Word) (s : State) : Host.Outcome State Fault Refusal := fin s (reportIn side frame s.dev)

/-- ALLOC (R220). -/
def execAlloc (side : Side) (frame : List Word) (s : State) : Host.Outcome State Fault Refusal := fin s (allocIn side frame s.dev)

/-- LINK_FRAME_CRC_ERROR (R216, R219). -/
def execLinkFrameCrcError (side : Side) (s : State) : Host.Outcome State Fault Refusal := fin s (s.dev.on (tst s.dev.lnk.ctrl 0) (badFrame side))

/-- COLLECTION_CLOSE (R222). -/
def execCollectionClose (s : State) : Host.Outcome State Fault Refusal := fin s (collectionClose s.dev)

/-- HEARTBEAT_LOSS (R221). -/
def execHeartbeatLoss (s : State) : Host.Outcome State Fault Refusal := fin s (heartbeatLoss s.dev)

/-- BOARD_ALERT (R224). -/
def execBoardAlert (ns : Nat) (s : State) : Host.Outcome State Fault Refusal := fin s (boardAlert ns s.dev)

/-- BRD_ALERT_N_HIGH (R225): the pin has returned high. -/
def execBrdAlertNHigh (ns : Nat) (s : State) : Host.Outcome State Fault Refusal :=
  let d := s.dev.at ns
  fin s { d with bud := { d.bud with pin := false, highSince := ns } }

end Sys2Proof.Machine
end

