-- ==== Sys2Proof/Machine/Recorder.lean ====
section
/-!
DEFINITION. Sys2Proof/Machine/Recorder.lean: the log in non-volatile memory, flushes, freezes, authorised clearing and the scan at cold reset
(R345 to R361), with the HMAC-SHA-256 of R360.
-/
namespace Sys2Proof.Machine

/-! ### HMAC-SHA-256 (R360) -/

def shaK : List Word :=
  [0x428A2F98, 0x71374491, 0xB5C0FBCF, 0xE9B5DBA5, 0x3956C25B, 0x59F111F1, 0x923F82A4, 0xAB1C5ED5, 0xD807AA98, 0x12835B01, 0x243185BE, 0x550C7DC3, 0x72BE5D74, 0x80DEB1FE, 0x9BDC06A7, 0xC19BF174] ++
  [0xE49B69C1, 0xEFBE4786, 0x0FC19DC6, 0x240CA1CC, 0x2DE92C6F, 0x4A7484AA, 0x5CB0A9DC, 0x76F988DA, 0x983E5152, 0xA831C66D, 0xB00327C8, 0xBF597FC7, 0xC6E00BF3, 0xD5A79147, 0x06CA6351, 0x14292967] ++
  [0x27B70A85, 0x2E1B2138, 0x4D2C6DFC, 0x53380D13, 0x650A7354, 0x766A0ABB, 0x81C2C92E, 0x92722C85, 0xA2BFE8A1, 0xA81A664B, 0xC24B8B70, 0xC76C51A3, 0xD192E819, 0xD6990624, 0xF40E3585, 0x106AA070] ++
  [0x19A4C116, 0x1E376C08, 0x2748774C, 0x34B0BCB5, 0x391C0CB3, 0x4ED8AA4A, 0x5B9CCA4F, 0x682E6FF3, 0x748F82EE, 0x78A5636F, 0x84C87814, 0x8CC70208, 0x90BEFFFA, 0xA4506CEB, 0xBEF9A3F7, 0xC67178F2]
def shaH : List Word := [0x6A09E667, 0xBB67AE85, 0x3C6EF372, 0xA54FF53A, 0x510E527F, 0x9B05688C, 0x1F83D9AB, 0x5BE0CD19]

def rotr (x : Word) (n : Nat) : Word := x.rotateRight n

/-- The 64 words of a block's schedule, newest first; `n` words are still to come. -/
def shaSched : Nat → List Word → List Word
  | 0, l => l
  | n + 1, l =>
    let w := fun i => l.getD i 0
    let s0 := rotr (w 14) 7 ^^^ rotr (w 14) 18 ^^^ (w 14 >>> 3)
    let s1 := rotr (w 1) 17 ^^^ rotr (w 1) 19 ^^^ (w 1 >>> 10)
    shaSched n ((w 15 + s0 + w 6 + s1) :: l)

/-- One round, on the eight working words. -/
def shaRound (v : List Word) (kw : Word × Word) : List Word :=
  let x := fun i => v.getD i 0
  let s1 := rotr (x 4) 6 ^^^ rotr (x 4) 11 ^^^ rotr (x 4) 25
  let ch := (x 4 &&& x 5) ^^^ (~~~(x 4) &&& x 6)
  let t1 := x 7 + s1 + ch + kw.1 + kw.2
  let s0 := rotr (x 0) 2 ^^^ rotr (x 0) 13 ^^^ rotr (x 0) 22
  let mj := (x 0 &&& x 1) ^^^ (x 0 &&& x 2) ^^^ (x 1 &&& x 2)
  [t1 + s0 + mj, x 0, x 1, x 2, x 3 + t1, x 4, x 5, x 6]

/-- One 64-byte block, as sixteen words. -/
def shaBlock (h : List Word) (b : List Word) : List Word :=
  let ws := (shaSched 48 b.reverse).reverse
  let v := (shaK.zip ws).foldl shaRound h
  (h.zip v).map fun p => p.1 + p.2

/-- A big-endian word of four bytes. -/
def beWord (l : List Byte) : Word := nw (l.foldl (fun a b => a * 256 + b.toNat) 0)

/-- `n` pieces of `k` elements. -/
def pieces {α : Type} (k : Nat) : Nat → List α → List (List α)
  | 0, _ => []
  | n + 1, l => l.take k :: pieces k n (l.drop k)

/-- SHA-256 (FIPS 180-4) of bytes, as bytes. -/
def sha256 (l : List Byte) : List Byte :=
  let n := (l.length + 72) / 64
  let pad := l ++ (0x80 : Byte) :: (List.replicate (64 * n - l.length - 9) 0 ++ (natBytes 8 (8 * l.length)).reverse)
  let h := (pieces 64 n pad).foldl (fun h b => shaBlock h ((pieces 4 16 b).map beWord)) shaH
  h.flatMap fun w => (wordBytes w).reverse

/-- HMAC-SHA-256 (FIPS 198-1) under a 32-byte key. -/
def hmac (key msg : List Byte) : List Byte :=
  let k := key ++ List.replicate 32 0
  sha256 (k.map (· ^^^ 0x5C) ++ sha256 (k.map (· ^^^ 0x36) ++ msg))

/-- R360: the tag words of a nonce under a key of eight words. -/
def clearTag (key : List Word) (nonce : Nat) : Word × Word :=
  let t := hmac (key.flatMap wordBytes) (natBytes 8 nonce ++ [0x43, 0x4C, 0x52, 0x01])
  (nw (leNat (t.take 4)), nw (leNat ((t.drop 4).take 4)))

/-! ### The log region (R345, R356, R374) -/

/-- R374: the size of the memory in use. -/
def Dev.nvSize (d : Dev) : Nat := 2 ^ fld d.boot.nvid 7 0
/-- R374: the memory is used. -/
def Dev.nvUsable (d : Dev) : Bool := 24 ≤ fld d.boot.nvid 7 0
/-- Address of slot `n` of the log region. -/
def Dev.slot (d : Dev) (n : Nat) : Nat := nvBase + d.nvSize - 0x400000 + 32 * n

/-- The 32 bytes of a record as it is written. -/
def recBytes (r : Rec) : List Byte := (recHead r).flatMap wordBytes ++ natBytes 2 r.rep ++ natBytes 2 (recCrc r)

/-- R350: the oldest pending record is written to the log. -/
def markOne (slot : Nat) : List Rec → List Host.Cell → List Rec × List Host.Cell
  | [], m => ([], m)
  | r :: l, m =>
    if r.pend then ({ r with pend := false, chk := recCrc r } :: l, Mem.writeL m slot (recBytes r))
    else
      let x := markOne slot l m
      (r :: x.1, x.2)

/-- R350, R356: pending records into the slots from LOG_WPTR. -/
def writeSlots : Nat → List Host.Cell → Dev → List Host.Cell × Dev
  | 0, m, d => (m, d)
  | n + 1, m, d =>
    let x := markOne (d.slot d.log.wptr) d.log.buf m
    writeSlots n x.2 (d.onLog fun l => { l with buf := x.1, wptr := l.wptr + 1 })

/-- A record of the recorder's own, taken and written at once into a slot. R352: it takes no place in the buffer from a pending record. -/
def ownSlot (slot : Nat) (r : Rec) (m : List Host.Cell) (d : Dev) : List Host.Cell × Dev :=
  let l := d.log.store r
  let r' := (l.buf.getLast?).getD r
  let buf := if d.log.pendFull then d.log.buf else l.buf.dropLast ++ [{ r' with pend := false, chk := recCrc r' }]
  (Mem.writeL m (d.slot slot) (recBytes r'), { d with log := { l with buf := buf } })

/-- R356: the log is full: LOGFULL in the last slot. -/
def logFull (m : List Host.Cell) (d : Dev) : List Host.Cell × Dev :=
  let x := ownSlot 131071 { code := 3 } m d
  (x.1, raise 11 0 .device 0 (x.2.onLog fun l => { l with full := true, flush := none, again := false }))

/-- R361 step 4: the clear ends with the flush of the records that were pending. -/
def LogDev.clearEnd (l : LogDev) : LogDev := if l.erased && l.flush.isNone then { l with full := false, clearing := false, erased := false } else l

/-- FLUSH_PAGE (R350, R352, R353, R356, R361): a page of the flush under way is written and read back, or fails. -/
def flushPage (ok : Bool) (m : List Host.Cell) (d : Dev) : List Host.Cell × Dev :=
  let l := d.log
  match l.flush with
  | none => (m, d)
  | some left =>
    if !ok then (m, raise 11 1 .device 0 (d.onLog fun l => { l with nvok := false, flush := none, again := false }))
    else
      let n := min (min left (8 - l.wptr % 8)) (131071 - l.wptr)
      let x := writeSlots n m d
      let d := x.2.onLog fun l => LogDev.clearEnd { l with nvok := true, flush := if left ≤ n then none else some (left - n) }
      let r := if d.log.wptr = 131071 then logFull x.1 d else (x.1, d)
      let d := r.2.on r.2.log.lostDue takeLost
      (r.1, d.on (d.log.flush.isNone && d.log.again) fun d => d.onLog fun l => if l.full then { l with again := false } else l.startFlush)

/-! ### Commands (R358 to R361, Table 13-4) -/

/-- R358: a freeze ends. -/
def endFreeze (d : Dev) : Dev :=
  let held := d.log.frzHeld
  let d := d.onLog fun l => { l with frozen := false, frzHeld := false, frzTaken := 0 }
  let d := d.on (0 < d.log.frzN) takeLost
  d.on held fun d => d.onLog (LogDev.trigger false)

/-- Milliseconds of OPTIME since `a`. -/
def LogDev.since (l : LogDev) (a : Nat) : Nat := (l.optime + 2 ^ 40 - a) % 2 ^ 40

/-- Table 13-4: the tag written matches. -/
def Dev.tagOk (d : Dev) : Bool :=
  match d.log.nonce with | some n => clearTag d.boot.keyw n == (d.log.tagl, d.log.tagh) | none => false

/-- Table 13-4: the status of a write of LOG_CMD. -/
def logCmdStatus (d : Dev) (v : Word) : Nat :=
  let l := d.log
  if 1 < ((List.range 5).filter fun i => tst v i).length then 1
  else if tst v 0 && (l.frozen || !l.nvok) then 2
  else if tst v 1 && l.frozen then 2
  else if tst v 1 && l.clearing then 4
  else if tst v 2 && !l.frozen then 2
  else if tst v 3 && l.nonceAt == some l.optime then 4
  else if tst v 3 && !d.boot.keyv then 5
  else if tst v 4 && (l.nonce.isNone || l.frozen || !l.nvok) then 2
  else if tst v 4 && l.clearing then 4
  else if tst v 4 && !d.tagOk then 5
  else 0

/-- R360: a CLEAR rejected with AUTH consumes the nonce. -/
def clearRefused (d : Dev) : Dev :=
  let n := d.log.nonce.getD 0
  raiseAt 11 3 .device (nw n) (nw (n / 2 ^ 32)) none none 0 (d.onLog fun l => { l with nonce := none, tagl := 0, tagh := 0 })

/-- R361: the region's erase begins; `d0` is for its CLEAR record. -/
def startErase (d0 : Word) (d : Dev) : Dev := d.onLog fun l => { l with clearing := true, erased := false, clearD0 := d0, flush := none, again := false }

/-- R361: what a power loss during the erase leaves of the region: a torn record in slot 0. DESIGN CHOICE (log 72). -/
def tornErase (d : Dev) (m : List Host.Cell) : List Host.Cell :=
  if d.log.clearing && !d.log.erased then Mem.drop m (d.slot 0 + 4) (d.slot 131072) else m

/-- R358, R359, R361: an accepted write of LOG_CMD. -/
def logCmdApply (v : Word) (d : Dev) : Dev :=
  let d := d.on (tst v 0) fun d => d.onLog (LogDev.trigger false)
  let d := d.on (tst v 1) fun d => d.onLog fun l =>
    { l with frozen := true, frzTaken := 0, frzAt := l.optime, frzHeld := l.flush.isSome, flush := none, again := false }
  let d := d.on (tst v 2) endFreeze
  let d := d.on (tst v 3) fun d => d.onLog fun l => { l with nonce := some (l.pcc % 2 ^ 24 * 2 ^ 40 + l.optime), nonceAt := some l.optime }
  d.on (tst v 4) fun d =>
    startErase (nw (d.log.wptr + b2n d.log.full)) (d.onLog fun l => { l with nonce := none, tagl := 0, tagh := 0 })

/-- CLEAR_ERASE_DONE (R361): the CLEAR record in slot 0, then the flush of the pending records, with which the clear ends. -/
def eraseDone (m : List Host.Cell) (d : Dev) : List Host.Cell × Dev :=
  if !d.log.clearing || d.log.erased then (m, d)
  else
    let m := Mem.drop m (d.slot 0) (d.slot 131072)
    let x := ownSlot 0 { code := 2, d0 := d.log.clearD0 } m d
    (x.1, x.2.onLog fun l => (LogDev.startFlush { l with wptr := 1, erased := true }).clearEnd)

/-! ### The scan at cold reset (R347, R361) -/

/-- A slot is empty (R345); its CHK is valid. -/
def slotEmpty (m : List Host.Cell) (d : Dev) (n : Nat) : Bool := Mem.readW m (d.slot n) == 0xFFFFFFFF
def slotValid (m : List Host.Cell) (d : Dev) (n : Nat) : Bool :=
  !slotEmpty m d n && crc16 (Mem.readL m (d.slot n) 30) == leNat (Mem.readL m (d.slot n + 30) 2)

/-- The first empty slot at or after `n`. -/
def firstEmpty (m : List Host.Cell) (d : Dev) : Nat → Nat → Nat
  | 0, n => n
  | k + 1, n => if slotEmpty m d n then n else firstEmpty m d k (n + 1)

/-- The slots in which the region holds a byte that is not erased, rising. -/
def usedSlots (m : List Host.Cell) (d : Dev) : List Nat :=
  m.foldl (fun l c => if d.slot 0 ≤ c.1 && c.1 < d.slot 131072 then
      let n := (c.1 - d.slot 0) / 32
      if l.getLast? == some n then l else l ++ [n] else l) []

/-- R347, R356, R361: what the scan finds. A region partly erased, without a valid record before its first empty slot, is erased again. -/
def logScan (m : List Host.Cell) (d : Dev) : Dev :=
  let used := usedSlots m d
  let wp := firstEmpty m d 131072 0
  let d := d.onLog fun l => { l with wptr := min wp 131071, full := 131071 ≤ wp, nvok := true }
  let d := match (used.filter fun n => slotValid m d n).getLast? with
    | some n =>
      let w := fun i => (Mem.readW m (d.slot n + 4 * i)).toNat
      d.onLog fun l => { l with pcc := (w 1 / 256 + 1) % 2 ^ 24, optime := (w 1 % 256 * 2 ^ 32 + w 2 + 1) % 2 ^ 40, seq := (w 4 + 1) % 2 ^ 32 }
    | none => d
  d.on (!used.isEmpty && !(List.range wp).any fun n => slotValid m d n) (startErase 0xFFFFFFFF)

/-! ### Meanings -/

/-- FLUSH_PAGE (R350). -/
def execFlushPage (ok : Bool) (s : State) : Host.Outcome State Fault Refusal :=
  let r := flushPage ok s.mem s.dev
  finM s r.1 r.2

/-- OPTIME_SECOND (R350, R353); R374: a memory that is not used takes no flush. -/
def execOptimeSecond (s : State) : Host.Outcome State Fault Refusal :=
  fin s (s.dev.on (s.dev.log.optime % 1000 == 0 && s.dev.nvUsable) fun d => d.onLog (LogDev.trigger true))

/-- HEARTBEAT (R347, R362). -/
def execHeartbeat (s : State) : Host.Outcome State Fault Refusal :=
  let h := fld s.dev.log.cfg 31 24
  fin s (s.dev.on (h != 0 && 3600000 * h ≤ s.dev.log.hbeat) fun d => takeRec { code := 6 } (d.onLog fun l => { l with hbeat := 0 }))

/-- FREEZE_EXPIRY (R358). -/
def execFreezeExpiry (s : State) : Host.Outcome State Fault Refusal :=
  let l := s.dev.log
  fin s (s.dev.on (l.frozen && 10000 ≤ l.since l.frzAt) fun d => endFreeze (takeRec { code := 8 } (d.onLog fun l => { l with frozen := false })))

/-- NONCE_EXPIRY (R359). -/
def execNonceExpiry (s : State) : Host.Outcome State Fault Refusal :=
  let l := s.dev.log
  fin s (s.dev.on (l.nonce.isSome && 60000 ≤ l.since (l.nonceAt.getD 0)) fun d => d.onLog fun l => { l with nonce := none })

/-- CLEAR_ERASE_DONE (R361). -/
def execClearEraseDone (s : State) : Host.Outcome State Fault Refusal :=
  let r := eraseDone s.mem s.dev
  finM s r.1 r.2

/-- POWER_FAIL (R351, R372): PFAIL is taken whatever a freeze has taken; the freeze ends, a flush starts, and every later record triggers one. -/
def execPowerFail (s : State) : Host.Outcome State Fault Refusal :=
  let d := takeRec { code := 5, d0 := nw s.dev.log.npend } (s.dev.onLog fun l => { l with frozen := false })
  let d := d.on s.dev.log.frozen endFreeze
  fin s (ev .ridge 13 (d.onLog fun l => { l.trigger false with pf := true }))

end Sys2Proof.Machine
end

