-- ==== Sys2Proof/Machine/Dma.lean ====
section
/-!
DEFINITION. Sys2Proof/Machine/Dma.lean: the DMA engine (R326 to R344). A descriptor ring in system memory lies outside the block: its descriptors
come with DESCRIPTOR_FETCH, and what is written back to it shows in `Chan.back`.
-/
namespace Sys2Proof.Machine

def Dev.ch (d : Dev) (n : Nat) : Chan := d.dma.ch.getD n {}
def Dev.onCh (d : Dev) (n : Nat) (f : Chan → Chan) : Dev := { d with dma := { d.dma with ch := d.dma.ch.modify n f } }

/-! ### Fields (Tables 12-2, 12-5) -/

def Chan.log2n (c : Chan) : Nat := fld c.cfg 11 8
def Chan.rloc (c : Chan) : Bool := tst c.cfg 12
def Chan.maxslot (c : Chan) : Nat := fld c.cfg 20 16
def Chan.stoperr (c : Chan) : Bool := tst c.cfg 24

/-- Word `i` of the descriptor in progress. -/
def Chan.w (c : Chan) (i : Nat) : Word := (c.desc.getD []).getD i 0
def Chan.dsp (c : Chan) : Nat := fld (c.w 0) 15 12
def Chan.ssp (c : Chan) : Nat := fld (c.w 0) 11 8
def Chan.bcast (c : Chan) : Bool := tst (c.w 0) 29
def Chan.tile (c : Chan) : Nat := fld (c.w 0) 6 0
def Chan.len (c : Chan) : Nat := fld (c.w 1) 23 0
def Chan.src (c : Chan) : Nat := (c.w 2).toNat + 2 ^ 32 * (c.w 3).toNat
def Chan.dst (c : Chan) : Nat := (c.w 4).toNat + 2 ^ 32 * (c.w 5).toNat
/-- The address of the ring entry at index `i`. -/
def Chan.entry (c : Chan) (i : Nat) : Nat := c.rbl.toNat + 2 ^ 32 * c.rbh.toNat + 32 * i
/-- The space the ring lies in. -/
def Chan.ringSp (c : Chan) : Nat := if c.rloc then 3 else 0

/-! ### States (R327, R344) -/

/-- R344: a change of DMA_CHSTn.STATE makes the Ridge's event DMA pending. -/
def setSt (n st : Nat) (d : Dev) : Dev :=
  let d' := d.onCh n fun c => { c with st := st }
  d'.on ((d.ch n).st != st) (ev .ridge 8)

/-- The state of a channel with no descriptor in progress. -/
def Chan.idle (c : Chan) : Nat := if !c.en then 0 else if c.head = c.tail then 1 else 2

/-- A channel forgets the descriptor in progress. -/
def Chan.clear (c : Chan) : Chan :=
  { c with desc := none, status := 0, rd := 0, wr := 0, wb := false, abt := false, abtWas := false, slots := [], refused := [], reread := [], dropped := false, nv := [] }

/-- R338, R349: a channel halts: phase, direction, space and address, with the ECC and NVTO marks; source `src` of subsystem 10 is raised. -/
def halt (n phase dir sp addr : Nat) (ecc nvto : Bool) (src : Nat) (d : Dev) : Dev :=
  let d := d.onCh n fun c =>
    { c with phase := phase, errl := nw addr, errh := nw (addr / 2 ^ 32), resid := if c.desc.isSome then c.len - c.wr else 0, slots := []
             erri := word [(b2n nvto, 9), (b2n ecc, 8), (sp, 4), (phase, 1), (dir, 0)] }
  let aux := 1024 * n + 256 * phase + 16 * sp + dir
  raiseAt 10 src .device (nw addr) (nw (addr / 2 ^ 32)) none none aux (setSt n 4 d)

/-! ### Validation (R330) -/

/-- R330 step 2: a field marked 0 is not 0, a space is reserved, or BCAST does not fit. DEDUCED (log 23): fields that are '0 when issued', and TILE
where it is to be 0, count as marked 0. -/
def descBad (c : Chan) : Bool :=
  let w0 := c.w 0
  let tiled := (4 ≤ c.dsp && c.dsp ≤ 7) || (4 ≤ c.ssp && c.ssp ≤ 8)
  tst w0 28 || fld w0 27 24 != 0 || fld w0 23 16 != 0 || tst w0 7 || fld (c.w 1) 31 24 != 0 || c.w 6 != 0 || 9 ≤ c.ssp || 9 ≤ c.dsp ||
    (c.bcast && !(4 ≤ c.dsp && c.dsp ≤ 7)) || ((!tiled || c.bcast) && c.tile != 0)

/-- R329: the legal pairs of source and destination. -/
def pairOk (s t : Nat) : Bool := (s == 0 && 1 ≤ t && t ≤ 7) || (t == 0 && 1 ≤ s && s ≤ 8) || (s == 1 && 2 ≤ t && t ≤ 7)

/-- Table 12-3: bytes of a space; the trace buffer's are its valid records. -/
def spaceSize (d : Dev) (sp t : Nat) : Nat :=
  match sp with
  | 0 => 2 ^ 64
  | 1 => if fld d.boot.nvid 7 0 = 0 then 0 else d.nvSize
  | 2 | 3 | 6 => 0x10000
  | 4 => 0x8000
  | 5 => 0x4000
  | 7 => 43008
  | _ => 4 * ((d.tl t).trace.recs.map (·.length)).foldl (· + ·) 0

/-- R319, Table 12-3: the condition of a space. -/
def spaceCond (d : Dev) (sp t : Nat) : Bool :=
  match sp with
  | 2 | 3 => d.ridge.isHalted
  | 4 => (d.tl t).core.isHalted
  | 5 => let k := (d.tl t).core; k.isHalted || (k.on && !k.loaded)
  | 8 => (d.tl t).trace.st == 3
  | _ => true

/-- R331: why a tile is refused, 0 for not. -/
def tileRefusal (d : Dev) (sp t : Nat) : Nat :=
  if boolAt d.pur.lost t then 3 else if (d.tl t).rst then 4 else if !spaceCond d sp t then 2 else 0

/-- The tile space of a descriptor, source or destination. -/
def Chan.tileSp (c : Chan) : Nat := if 4 ≤ c.dsp then c.dsp else c.ssp

/-- R330 steps 3 to 9: the status with which a descriptor completes at once, 0 to run. R8: an isolated tile answers as an absent one. -/
def descStatus (d : Dev) (c : Chan) : Nat :=
  let t := c.tile
  let tiled := 4 ≤ c.tileSp
  if c.src % 4 ≠ 0 ∨ c.dst % 4 ≠ 0 then 6
  else if c.len = 0 ∨ c.len % 4 ≠ 0 ∨ !pairOk c.ssp c.dsp ∨ spaceSize d c.ssp t < c.src + c.len ∨ spaceSize d c.dsp t < c.dst + c.len then 1
  else if c.dsp = 1 ∧ d.nvSize - 0x400000 < c.dst + c.len then 5
  else if c.dsp = 1 ∧ !d.dma.nvwen then 2
  else if tiled ∧ !c.bcast ∧ (!d.answersT t ∨ boolAt d.pur.lost t) then 3
  else if tiled ∧ !c.bcast ∧ (d.tl t).rst then 4
  else if !c.bcast ∧ (!spaceCond d c.ssp t ∨ !spaceCond d c.dsp t) then 2
  else 0

/-- A descriptor is taken up: validated, and its transfer begun or its status formed. -/
def beginDesc (n : Nat) (ws : List Word) (d : Dev) : Dev :=
  let d := setSt n 2 (d.onCh n fun c => { c.clear with desc := some ws })
  let c := d.ch n
  if !tst (c.w 0) 31 || descBad c then
    halt n 0 0 c.ringSp (c.entry c.head) false false 1 (d.onCh n Chan.clear)
  else
    let st := descStatus d c
    if st ≠ 0 then d.onCh n fun c => { c with status := st, wb := true }
    else if c.bcast then
      let rs := (d.tilesOn.map fun t => (t, tileRefusal d c.dsp t)).filter fun p => p.2 != 0
      d.onCh n fun c => { c with refused := rs }
    else d

/-- The descriptor at HEAD of a ring in Ridge data RAM. -/
def ramDesc (m : List Host.Cell) (c : Chan) : List Word := (List.range 8).map fun i => Mem.readW m (ridgeD + (c.rbl.toNat + 32 * c.head + 4 * i) % 0x10000)

/-- DESCRIPTOR_FETCH (R327, R330). -/
def descFetch (m : List Host.Cell) (n : Nat) (ws : List Word) (d : Dev) : Dev :=
  let c := d.ch n
  d.on (1 ≤ n && n < 8 && c.en && c.st == 2 && c.desc.isNone && c.head != c.tail) (beginDesc n (if c.rloc then ramDesc m c else ws))

/-! ### Bursts (R332, R333, R335, R339) -/

/-- R332: the length of the burst at offset `o`. DEDUCED (log 24): a slot holds one burst, so that it crosses neither address's boundary. -/
def Chan.burst (c : Chan) (o : Nat) : Nat := min (c.len - o) (min (256 - (c.src + o) % 256) (256 - (c.dst + o) % 256))

/-- The base in the memory map of a space. -/
def spaceBase (sp t : Nat) : Nat :=
  match sp with
  | 1 => nvBase | 2 => 0 | 3 => ridgeD | 4 => tileBase t | 5 => tileBase t + dataRam | 6 => storeBase t | _ => fmaxBase t

/-- The bytes of an inner space. -/
def spaceRead (m : List Host.Cell) (d : Dev) (sp t a k : Nat) : List Byte :=
  if sp = 8 then ((((d.tl t).trace.recs.flatMap fun r => r.flatMap wordBytes)).drop a).take k else Mem.readL m (spaceBase sp t + a) k

/-- The offset of the next source burst: the oldest whose second reading is still to come (R339), else the one behind those read. -/
def Chan.readAt (c : Chan) : Nat := match c.slots.find? (·.data.isEmpty) with | some b => b.off | none => c.rd

/-- R332, R339: source bytes `l` at offset `o` enter the buffer: the slot that waits for them, or a new one. `nv` keeps what was read from non-volatile memory. -/
def Chan.take (c : Chan) (o : Nat) (l : List Byte) : Chan :=
  let again := c.slots.any (·.data.isEmpty)
  { c with slots := if again then c.slots.map fun (b : Burst) => if b.off == o then { b with data := l } else b else c.slots ++ [{ off := o, data := l }]
           rd := if again then c.rd else o + l.length
           nv := if c.ssp = 1 then c.nv.take o ++ l ++ c.nv.drop (o + l.length) else c.nv }

/-- SOURCE_BURST (R332, R333, R339): the next source burst arrives; `data` counts where the source is system memory. One from non-volatile memory waits for
a flush in progress. -/
def sourceBurst (m : List Host.Cell) (n : Nat) (data : List Byte) (bad : Bool) (d : Dev) : Dev :=
  let c := d.ch n
  let o := c.readAt
  let again := c.slots.any (·.data.isEmpty)
  let k := c.burst o
  let used : Nat := (d.dma.ch.map fun c => c.slots.length).foldl (· + ·) 0
  let l : List Byte := if c.ssp = 0 then data else spaceRead m d c.ssp c.tile (c.src + o) k
  if c.st ≠ 2 ∨ c.desc.isNone ∨ c.wb ∨ (!again ∧ (c.len ≤ c.rd ∨ c.maxslot ≤ c.slots.length ∨ 64 ≤ used)) ∨ l.length ≠ k ∨ (c.ssp = 1 ∧ d.log.flush.isSome) then d
  else if bad then
    let d := raise 8 8 .device 0 (badRead d)
    if c.reread.contains o then halt n 1 0 c.ssp (c.src + o) true false 0 d
    else d.onCh n fun c => { c with reread := o :: c.reread }
  else d.onCh n fun c => c.take o l

/-- R335: bytes written to a space of tile `t`; whether one was dropped. System memory is written over the bus (R367). -/
def spaceWrite (sp t a : Nat) (l : List Byte) (m : List Host.Cell) (d : Dev) : List Host.Cell × Dev × Bool :=
  match sp with
  | 0 => (m, busWrite a l d, false)
  | 2 => (Mem.writeL m a l, { d with ridge := { d.ridge with dirty := true } }, false)
  | 4 => (Mem.writeL m (tileBase t + a) l, d.onCore (.rafter t) fun x => { x with dirty := true }, false)
  | 6 => storeBytes t a l m d
  | 7 => let r := fmaxPut t a l m d; (r.1, r.2, false)
  | _ => (Mem.writeL m (spaceBase sp t + a) l, d, false)

/-- The tiles a descriptor still writes to. -/
def Chan.targets (c : Chan) (d : Dev) : List Nat :=
  if c.bcast then d.tilesOn.filter fun t => !c.refused.any (·.1 == t) else [c.tile]

/-- R331: the code of the refused tile with the lowest position. -/
def lowestRefusal (l : List (Nat × Nat)) : Nat :=
  match l with
  | [] => 0
  | p :: l => (l.foldl (fun a q => if q.1 < a.1 then q else a) p).2

/-- R331, R335: the status of a transfer that is over. -/
def Chan.endStatus (c : Chan) : Nat := if c.status ≠ 0 then c.status else if c.refused.isEmpty then (if c.dropped then 2 else 0) else lowestRefusal c.refused

/-- R319, R336: the destination no longer takes what is written to it: a core has left its halt, or NVWEN is 0. -/
def shutTo (d : Dev) (sp t : Nat) : Bool := if sp = 1 then !d.dma.nvwen else 2 ≤ sp && sp ≤ 5 && !spaceCond d sp t

/-- R319, R331, R336: the tiles of a BCAST, or the descriptor, that the destination refuses with STATE from here on. DESIGN CHOICE (log 105). -/
def refuseShut (n : Nat) (d : Dev) : Dev :=
  let c := d.ch n
  if c.bcast then d.onCh n fun c => { c with refused := c.refused ++ ((c.targets d).filter (shutTo d c.dsp)).map fun t => (t, 2) }
  else d.on (shutTo d c.dsp c.tile) fun d => d.onCh n fun c => { c with status := 2, wb := true, slots := [] }

/-- DESTINATION_BURST (R332, R333): the oldest burst in the buffer is written and acknowledged. One to non-volatile memory waits for a flush in progress; one
with a bad word is never written, and is read again once (R339): its slot waits for its data. -/
def destBurst (n : Nat) (m : List Host.Cell) (d : Dev) : List Host.Cell × Dev :=
  let d := d.on ((d.ch n).desc.isSome && ((d.ch n).st == 2 || (d.ch n).st == 3) && !(d.ch n).wb && !(d.ch n).slots.isEmpty) (refuseShut n)
  let c := d.ch n
  match c.slots with
  | b :: l =>
    if c.dsp = 1 ∧ d.log.flush.isSome then (m, d)
    else if b.bad then
      (m, if c.st ≠ 2 ∨ c.wb then d
        else if c.reread.contains b.off then halt n 1 0 c.ssp (c.src + b.off) true false 0 d
        else d.onCh n fun c => { c with slots := { b with data := [], bad := false } :: l, reread := b.off :: c.reread })
    else if b.data.isEmpty then (m, d)
    else if (c.st = 2 ∨ c.st = 3) ∧ !c.wb then
      let r := (c.targets d).foldl (fun (r : List Host.Cell × Dev × Bool) t =>
        let x := spaceWrite c.dsp t (c.dst + b.off) b.data r.1 r.2.1
        (x.1, x.2.1, r.2.2 || x.2.2)) (m, d, false)
      (r.1, r.2.1.onCh n fun c =>
        let c := { c with slots := l, wr := b.off + b.data.length, dropped := c.dropped || r.2.2, reread := c.reread.filter (· != b.off) }
        if c.wr = c.len then { c with wb := true } else c)
    else (m, d)
  | [] => (m, d)

/-! ### Write-back (R332, R337, R344) -/

/-- DESCRIPTOR_WRITEBACK (R331, R332, R337): W6 and W0 go back and HEAD advances. -/
def writeBack (n : Nat) (m : List Host.Cell) (d : Dev) : List Host.Cell × Dev :=
  let c := d.ch n
  if c.desc.isNone ∨ ¬ (c.wb ∨ c.abt) ∨ c.st = 4 then (m, d)
  else
    let abt := c.abt
    let st := c.endStatus
    let resid := c.len - c.wr
    let w6 := word [(c.refused.length, 24), (resid, 0)]
    let w0 := put (put (put (c.w 0) 31 31 0) 28 28 (b2n abt)) 23 16 st
    let m := if c.rloc then
        Mem.writeL (Mem.writeL m (ridgeD + (c.rbl.toNat + 32 * c.head + 24) % 0x10000) (wordBytes w6))
          (ridgeD + (c.rbl.toNat + 32 * c.head) % 0x10000) (wordBytes w0)
      else m
    -- R332: W6 before W0, each a burst of its own
    let d := d.on (!c.rloc) (busWrite (c.entry c.head) (wordBytes w0))
    let d := { d with
      dma := { d.dma with bref := if c.bcast then c.refused.map Prod.fst else d.dma.bref }
      boot := { d.boot with nvcrc := if c.ssp = 1 then nw (crc32 c.nv) else d.boot.nvcrc } }
    let d := d.onCh n fun c =>
      { c.clear with
        en := c.en && !(tst w0 30) && !(c.stoperr && st != 0), head := (c.head + 1) % 2 ^ c.log2n, lastst := st, back := some (c.head, w6, w0)
        resid := if abt then resid else c.resid, done := incSat 0xFFFF c.done, notok := if st = 0 then c.notok else incSat 0xFFFF c.notok }
    (m, ev .ridge 8 (setSt n (d.ch n).idle d))

/-! ### Enabling, aborting, recovering (R327, R337, R340) -/

/-- R327, R342: EN is written. DEDUCED (log 25): EN = 0 stops the channel at once, HEAD at the descriptor in progress. -/
def setEn (n : Nat) (on : Bool) (d : Dev) : Dev :=
  let c := d.ch n
  let d := d.onCh n fun c => { c with en := on }
  if c.st = 4 then d
  else if on then (if c.st = 0 then setSt n (d.ch n).idle d else d)
  else setSt n 0 (d.onCh n Chan.clear)

/-- R337, R343, R349: a channel is aborted. The record's place is what the channel was about to write, or, with no descriptor in progress, to fetch; that of a
halted channel is the halt's. -/
def abortCh (n : Nat) (d : Dev) : Dev :=
  let c := d.ch n
  let note := fun (phase dir sp addr : Nat) (d : Dev) =>
    raiseAt 10 2 .device (nw addr) (nw (addr / 2 ^ 32)) none none (1024 * n + 256 * phase + 16 * sp + dir) d
  let d := d.onCh n fun c => { c with en := false, aborted := true, abtWas := if c.abt then c.abtWas else c.aborted }
  if c.st = 4 then note (fld c.erri 2 1) (fld c.erri 0 0) (fld c.erri 7 4) (c.errl.toNat + 2 ^ 32 * c.errh.toNat) (setSt n 0 (d.onCh n Chan.clear))
  else if c.desc.isNone then note 0 0 c.ringSp (c.entry c.head) (setSt n 0 (d.onCh n fun c => { c with resid := 0 }))
  else if c.wb then note 3 1 c.ringSp (c.entry c.head) (setSt n 3 (d.onCh n fun c => { c with resid := c.len - c.wr }))
  else note 2 1 c.dsp (c.dst + c.wr) (setSt n 3 (d.onCh n fun c => { c with slots := c.slots.take 1, abt := true }))

/-- R340: a halted channel resumes in its failed phase. -/
def resumeCh (n : Nat) (d : Dev) : Dev :=
  let c := d.ch n
  match c.phase, c.desc with
  | 3, some _ => setSt n (if c.abt then 3 else if c.en then 2 else 0) d
  | _, some ws => if c.en then beginDesc n ws d else setSt n 0 (d.onCh n Chan.clear)
  | _, none => setSt n c.idle d

/-- R340: a halted channel passes over its failing descriptor. -/
def skipCh (n : Nat) (d : Dev) : Dev :=
  let d := d.onCh n fun c => { c.clear with head := (c.head + 1) % 2 ^ c.log2n }
  setSt n (d.ch n).idle d

/-- R340: the status of a write of DMA_CHCTLn. -/
def chctlStatus (d : Dev) (n : Nat) (v : Word) : Nat := if (tst v 2 || tst v 3) && (d.ch n).st != 4 then 2 else 0

/-- A write of DMA_CHCTLn, accepted; where several actions are written, ABORT comes before RESUME and RESUME before SKIP. -/
def chctlApply (n : Nat) (v : Word) (d : Dev) : Dev :=
  if tst v 1 then abortCh n d
  else
    let d := if (d.ch n).en == tst v 0 then d else setEn n (tst v 0) d
    if tst v 2 then resumeCh n d else if tst v 3 then skipCh n d else d

/-- R327: TAIL is written. -/
def setTail (n v : Nat) (d : Dev) : Dev :=
  let d := d.onCh n fun c => { c with tail := v }
  let c := d.ch n
  d.on (c.st == 1 || (c.st == 2 && c.desc.isNone)) (setSt n c.idle)

/-- R342: warm reset stops every channel. -/
def dmaStop (d : Dev) : Dev := (List.range 8).foldl (fun d n => if (d.ch n).st = 4 then d.onCh n fun c => { c with en := false } else setEn n false d) d

/-- R331, R332, R342: a tile is reset (BUSY) or becomes unreachable (NOTARGET) during transfers into it. DEDUCED (log 105): a transfer out of a tile that
becomes unreachable ends as one into it does. -/
def dmaTileGone (t code : Nat) (d : Dev) : Dev :=
  (List.range 8).foldl (fun d n =>
    let c := d.ch n
    if c.desc.isNone ∨ c.wb ∨ c.st = 4 ∨ (if code = 4 then c.dsp else c.tileSp) < 4 then d
    else if c.bcast then
      if c.refused.any (·.1 == t) then d else d.onCh n fun c => { c with refused := c.refused ++ [(t, code)] }
    else if c.tile = t then d.onCh n fun c => { c with status := code, wb := true, slots := [] }
    else d) d

/-! ### Errors (R338, R341) -/

/-- R337, R338: an error response at `addr` fails the descriptor's write-back. A ring in Ridge data RAM is no part of the bus's addresses. -/
def Chan.failsBack (c : Chan) (addr : Nat) : Bool := c.wb || (c.abt && !c.rloc && decide (c.entry c.head ≤ addr ∧ addr < c.entry c.head + 32))

/-- R337: the burst that an abort waits for has failed: the abort leaves ABORTED as it found it. -/
def Chan.unabort (c : Chan) : Chan := { c with aborted := c.aborted && (!c.abt || c.abtWas) }

/-- BUS_ERROR (R337, R338, R341): an error response on the system bus. Channel 0 failed in a write-back where the address is that of the latest one; HEAD then
stands at its entry until the write-back is repeated. A write-back that RESUME repeats with EN 0 fails as any other. -/
def busError (n addr : Nat) (d : Dev) : Dev :=
  let c := d.ch n
  if n = 0 then
    let h := d.hp
    let base := h.rbasel.toNat + 2 ^ 32 * h.rbaseh.toNat
    let wb := match h.wback with | some w => decide (base + 16 * w.1 ≤ addr ∧ addr < base + 16 * w.1 + 16) | none => false
    let at' := match h.wback with | some w => if wb && !h.rback then w.1 else h.rhead | none => h.rhead
    d.on (h.ren || wb) fun d =>
      halt 0 (if wb then 3 else 0) (b2n wb) 0 addr false false 0
        (({ d with hp := { h with rhalted := true, rhead := at', rback := wb || h.rback } } : Dev).on (wb && !h.rback) ringUncount)
  else if c.st ≠ 2 ∧ c.st ≠ 3 ∧ !(c.st = 0 ∧ c.desc.isSome) then d
  else
    let back := c.failsBack addr
    let d := d.on (!back) fun d => d.onCh n Chan.unabort
    if c.desc.isNone then (if c.rloc then d else halt n 0 0 0 addr false false 0 d)
    else if back then (if c.rloc then d else halt n 3 1 0 addr false false 0 d)
    else if c.ssp = 0 then halt n 1 0 0 addr false false 0 d
    else if c.dsp = 0 then halt n 2 1 0 addr false false 0 d
    else d

/-- NV_TIMEOUT (R338): the non-volatile memory has not answered a channel within 1 ms. -/
def nvTimeout (n : Nat) (d : Dev) : Dev :=
  let c := d.ch n
  if c.desc.isNone ∨ c.wb ∨ (c.st ≠ 2 ∧ c.st ≠ 3) then d
  else if c.ssp = 1 then halt n 1 0 1 (c.src + c.rd) false true 0 (d.onCh n Chan.unabort)
  else if c.dsp = 1 then halt n 2 1 1 (c.dst + c.wr) false true 0 (d.onCh n Chan.unabort)
  else d

/-! ### Meanings -/

/-- DESCRIPTOR_FETCH (R330). -/
def execDescriptorFetch (n : Nat) (words : List Word) (s : State) : Host.Outcome State Fault Refusal := fin s (descFetch s.mem n words s.dev)

/-- SOURCE_BURST (R332). -/
def execSourceBurst (n : Nat) (data : List Byte) (bad : Bool) (s : State) : Host.Outcome State Fault Refusal := fin s (sourceBurst s.mem n data bad s.dev)

/-- DESTINATION_BURST (R332). -/
def execDestinationBurst (n : Nat) (s : State) : Host.Outcome State Fault Refusal :=
  let r := destBurst n s.mem s.dev
  finM s r.1 r.2

/-- DESCRIPTOR_WRITEBACK (R332). -/
def execDescriptorWriteback (n : Nat) (s : State) : Host.Outcome State Fault Refusal :=
  let r := writeBack n s.mem s.dev
  finM s r.1 r.2

/-- BUS_ERROR (R338). -/
def execBusError (n addr : Nat) (s : State) : Host.Outcome State Fault Refusal := fin s (busError n addr s.dev)

/-- NV_TIMEOUT (R338). -/
def execNvTimeout (n : Nat) (s : State) : Host.Outcome State Fault Refusal := fin s (nvTimeout n s.dev)

end Sys2Proof.Machine
end

