-- ==== Sys2Proof/Machine/Ecc.lean ====
section
/-!
DEFINITION. Sys2Proof/Machine/Ecc.lean: the memory words that the scrubber, a functional read or the warm fast path finds corrected or beyond correction
(R260, Table 9-5).
-/
namespace Sys2Proof.Machine

/-- Table 9-5: the action on a double-bit word. A word of a buffer marks its record or burst bad (R339); a word of a Fusee block keeps the tile's working
copy of that block from here on (`Fus.keeps`). A cluster whose law is on the fall-back for a halt or a self-test is handed over as any other (R103, R108). -/
def badWord (p : EccPlace) (d : Dev) : Dev :=
  let d := badRead d
  match p with
  | .coreRam k => d.on (d.hasCore k) fun d => ramFault k (raise 8 5 (coreScope k) 0 d)
  | .coreRom k => d.on (d.hasCore k) fun d => (raise 8 6 (coreScope k) 0 (d.onCore k fun x => { x with dead := true })).on (k == .ridge) ridgeStops
  | .fuseeSlot t s => d.on (d.hasT t) fun d =>
      (d.tl t).clsOn.foldl (fun d c => d.on ((d.cl t c).fus.slot == s) (handDue t c 7 d.clk.now)) (raise 3 16 (.tile t) 0 d)
  | .fuseeBlock t o => d.on (d.hasT t) fun d => raise 3 16 (.tile t) 0 (d.onTFus t fun x => { x with badOffs := x.badOffs.filter (· != o / 4 * 4) ++ [o / 4 * 4] })
  | .loopState t c => d.on (d.hasC t c) fun d => raise 2 17 (.cluster t c) 0 (d.onLoop t c fun l => { l with entry := true })
  | .fmax t k => d.on (d.hasT t && k < 10752) fun d => raise 8 7 (.tile t) 0 (d.onT t fun x =>
      { x with fmaxBad := if x.fmaxBad.contains k then x.fmaxBad else x.fmaxBad ++ [k], fmaxOld := x.fmaxOld.filter (·.1 != k) })
  | .traceRecord t i => d.on (d.hasT t && i < (d.tl t).trace.recs.length) fun d =>
      raise 8 8 .device 0 (d.onTrc t fun x => { x with bad := if x.bad.contains i then x.bad else x.bad ++ [i] })
  | .burst n off => d.on ((d.ch n).slots.any fun b => b.off == off && !b.data.isEmpty) fun d =>
      raise 8 8 .device 0 (d.onCh n fun c => { c with slots := c.slots.map fun (b : Burst) => if b.off == off then { b with bad := true } else b })
  | .logRecord q => d.on (d.log.buf.any (·.seq == q)) fun d =>
      raise 8 8 .device 0 (d.onLog fun l => { l with buf := l.buf.map fun (r : Rec) => if r.seq == q then { r with bad := true } else r })

/-- R260: words with one flipped bit, each corrected, and words with two. -/
def eccWords (corrected : Nat) (bad : List EccPlace) (d : Dev) : Dev :=
  let d := iter (fun d => raise 8 4 .device 0 (d.onFlt fun f => { f with corr := incSat 0xFFFF f.corr })) corrected d
  bad.foldl (fun d p => badWord p d) d

end Sys2Proof.Machine
end

