-- ==== Sys2Proof/Machine/RegWrite.lean ====
section
/-!
DEFINITION. Sys2Proof/Machine/RegWrite.lean: what every register write checks and does, for every writer, and the arrival of operations over Purlin
(R15, R26 to R28, R31, R272, R289, R294 to R296, R309; the field tables of every chapter).
-/
namespace Sys2Proof.Machine

/-- The status of the first condition that holds, 0 (OK) where none does. -/
def firstFail : List (Bool × Nat) → Nat
  | [] => 0
  | x :: l => if x.1 then x.2 else firstFail l

/-- A field value lies outside its range. -/
def out (lo hi x : Nat) : Bool := x < lo || hi < x

/-- R24: the authority class of a writer. -/
def classOf (w : Writer) : Nat := match w with | .ridge => 8 | .rafter _ => 9 | _ => 7

/-! ### Device registers: status -/

/-- Addresses 0x00000 to 0x00FFF (R322, R371, R375; Table 14-7). -/
def idStatus (d : Dev) (a : Nat) (v : Word) : Nat :=
  match a with
  | 0x08 => if 1 < b2n (tst v 8) + b2n (tst v 9) + b2n (tst v 10) then 1 else 0
  | 0x60 => if out 1600 2000 (fld v 10 0) then 1 else 0
  | 0x78 => firstFail [(!d.boot.nvdone, 4), (!d.log.nvok, 2), (decide (d.nvSize ≤ fld v 31 5 * 32), 1)]
  | 0x104 => if 1000 < fld v 25 16 then 1 else 0
  | _ => 0

/-- Addresses 0x01000 to 0x01FFF (R308, R314, R315, R317; Table 11-9). -/
def cmdStatus (w : Writer) (d : Dev) (a : Nat) (v : Word) : Nat :=
  let h := d.hp
  match a with
  | 0x1000 | 0x1004 | 0x1008 | 0x100C => if h.done then 0 else 4
  | 0x1020 => firstFail [(out 4 12 (fld v 11 8), 1), (h.ren && fld v 11 8 != h.log2n, 2)]
  | 0x1024 | 0x1028 => if h.ren then 2 else 0
  | 0x102C => if 2 ^ h.log2n ≤ fld v 11 0 then 1 else 0
  | 0x1038 => if fld v 7 0 = 0 then 1 else 0
  | 0x1050 => if w == .ridge then 0 else 2
  | 0x1054 => if w == .ridge then firstFail [(decide (9 < fld v 7 0), 1), (!h.held, 2)] else 2
  | _ => 0

/-- Addresses 0x02000 to 0x02FFF (R199, R206, R225; Table 7-8). -/
def budStatus (d : Dev) (a : Nat) (v : Word) : Nat :=
  let b := d.bud
  if 0x2100 ≤ a ∧ a < 0x2200 then capStatus d (b.grp.getD ((a - 0x2100) / 4) 0) (fld v 23 0)
  else match a with
  | 0x2000 => if !tst v 0 && 16 < d.tilesOn.length then 1 else 0
  | 0x200C => capStatus d b.devlim (fld v 23 0)
  | 0x2010 => capStatus d b.blocal (fld v 23 0)
  | 0x2024 =>
    let b' := { b with ladcfg := v }
    if b'.ftop ≤ b'.ffloor ∨ b'.ffloor = 0 ∨ b'.fstep = 0 ∨ b'.soft = 0 ∨ b'.upwait = 0 ∨ b'.hys = 0 ∨ 32 < b'.nf then 1 else 0
  | 0x202C => if tst v 0 then d.alertStatus else 0
  | 0x2030 => if out 1 32767 (fld v 31 16) then 1 else 0
  | _ => 0

/-- Addresses 0x03000 to 0x03FFF (Table 8-4). -/
def thmStatus (a : Nat) (v : Word) : Nat :=
  match a with
  | 0x3000 =>
    if out 100 140 (fld v 31 24) || out 70 135 (fld v 23 16) || out 50 130 (fld v 15 8) || !(fld v 15 8 < fld v 23 16 && fld v 23 16 < fld v 31 24)
    then 1 else 0
  | 0x3004 => if fld v 20 16 = 0 ∨ fld v 11 8 = 0 ∨ fld v 3 0 = 0 then 1 else 0
  | 0x3008 =>
    if out 70 135 (fld v 31 24) || out 5 60 (fld v 23 16) || out 2 40 (fld v 15 8) || out 1 8 (fld v 7 4) || out 1 8 (fld v 3 0) then 1 else 0
  | 0x300C => if out 1 8 (fld v 11 8) then 1 else 0
  | _ => 0

/-- R396: the sources that Table 9-6 lists, by subsystem: bits of RDG_FIENn. -/
def listed (n : Nat) : Word :=
  [0x000303FF, 0x000300FF, 0x000100FF, 0x000003FE, 0x0000003F, 0x0000000F, 0x0000007F, 0x00000FFF, 0x000703FF, 0x00000007, 0x0000001F].getD (n - 1) 0

/-- Addresses 0x04000 to 0x04FFF (R247, Tables 9-9, 9-10). -/
def fltStatus (d : Dev) (a : Nat) (v : Word) : Nat :=
  if 0x4100 ≤ a ∧ a < 0x4C00 then
    -- R16, R267: a field of a reserved source is ignored
    let n := (a - 0x4000) / 0x100
    let m := (a % 0x100 - 0x10) / 4
    if 0x10 ≤ a % 0x100 ∧ a % 0x100 < 0x20 then (if (List.range 8).any fun j => tst (listed n) (8 * m + j) && 5 < fld v (4 * j + 2) (4 * j) then 1 else 0)
    else 0
  else match a with
  | 0x4004 => firstFail [(tst v 0 && tst v 1, 1), (tst v 0 && d.flt.pend.any (·.level == 5), 2)]
  | 0x4008 => if out 1 48 (fld v 5 0) then 1 else 0
  | 0x400C => if out 1 100 (fld v 15 8) then 1 else 0
  | _ => 0

/-- R194: some S target lies below the L target of its tile. -/
def Dev.sBelowL (d : Dev) : Bool :=
  d.tilesOn.any fun t =>
    let on := (d.tl t).clsOn.filter fun c => d.live t c
    on.any fun s => domOf s == .S && on.any fun l => domOf l == .L && (d.cl t s).seq.atarget < (d.cl t l).seq.atarget

/-- R194: the status of a write of SEQ_CTL. -/
def seqCtlStatus (d : Dev) (v : Word) : Nat :=
  firstFail [(tst v 0 && tst v 1, 1), ((tst v 0 || tst v 1) && d.held, 7),
    (tst v 0 && (d.seq.phase != 0 || d.sBelowL || d.tilesOn.any fun t => (d.tl t).rem.bist == 1), 2), (tst v 1 && d.seq.phase == 0, 2)]

/-- R195: break-even thresholds ascend strictly and each WKs lies below BEs, in 0.1 µs. -/
def SeqDev.ordered (q : SeqDev) : Bool :=
  let be := [fld q.be01 15 0, fld q.be01 31 16, fld q.be23 15 0, fld q.be23 31 16]
  let wk := [fld q.wk01 15 0, fld q.wk01 31 16, fld q.wk23 15 0, fld q.wk23 31 16]
  (List.range 3).all (fun i => be.getD i 0 < be.getD (i + 1) 0) && (List.range 4).all fun i => wk.getD i 0 < 10 * be.getD i 0

/-- Addresses 0x06000 to 0x07FFF (R194, R195, Table 4-10). -/
def seqStatus (d : Dev) (a : Nat) (v : Word) : Nat :=
  let q := d.seq
  match a with
  | 0x6000 => seqCtlStatus d v
  | 0x6008 =>
    if out 1 15 (fld v 31 28) || out 1 7 (fld v 26 24) || out 1 63 (fld v 21 16) || out 10 100 (fld v 14 8) || out 1 50 (fld v 5 0) then 1 else 0
  | 0x600C => if { q with be01 := v }.ordered then 0 else 1
  | 0x6010 => if { q with be23 := v }.ordered then 0 else 1
  | 0x6014 => if { q with wk01 := v }.ordered then 0 else 1
  | 0x6018 => if { q with wk23 := v }.ordered then 0 else 1
  | 0x601C => if out 50 100 (fld v 15 8) || out 1 255 (fld v 7 0) then 1 else 0
  | 0x6800 => if out 1 32 (fld v 15 8) || [0, 1, 2, 3].any (fun i => fld v (2 * i + 1) (2 * i) == 3) then 1 else 0
  | _ => 0

/-- The block of a DMA channel (R327, R340, Table 12-5). -/
def chanStatus (d : Dev) (n off : Nat) (v : Word) : Nat :=
  let c := d.ch n
  match off with
  | 0x00 => chctlStatus d n v
  | 0x04 =>
    if out 1 31 (fld v 20 16) || out 1 64 (fld v 6 0) then 1
    else if n = 0 then 0
    else firstFail [(out 4 12 (fld v 11 8) || (tst v 12 && c.rbh != 0), 1), (c.en && (fld v 11 8 != c.log2n || tst v 12 != c.rloc), 2)]
  | 0x08 => if c.en then 2 else 0
  | 0x0C => firstFail [(c.rloc && v != 0, 1), (c.en, 2)]
  | 0x10 => if 2 ^ c.log2n ≤ fld v 11 0 then 1 else 0
  | _ => 0

/-- Addresses 0x0A000 to 0x0BFFF (Table 13-5). -/
def logStatus (d : Dev) (a : Nat) (v : Word) : Nat :=
  match a with
  | 0xA000 => logCmdStatus d v
  | 0xA004 => if fld v 23 20 = 0 ∨ fld v 15 8 = 0 then 1 else 0
  | _ => 0

/-- The register's own rules for a write of `v` to the device register at `a`. -/
def devStatus (w : Writer) (d : Dev) (a : Nat) (v : Word) : Nat :=
  match a / 0x1000 with
  | 0 => idStatus d a v
  | 1 => cmdStatus w d a v
  | 2 => budStatus d a v
  | 3 => thmStatus a v
  | 4 => fltStatus d a v
  | 6 => seqStatus d a v
  | 8 => if 0x8100 ≤ a ∧ a < 0x8300 then chanStatus d ((a - 0x8100) / 0x40) (a % 0x40) v else 0
  | 10 => logStatus d a v
  | _ => 0

/-! ### Device registers: effect -/

/-- Addresses 0x00000 to 0x00FFF. -/
def idPut (a : Nat) (v : Word) (d : Dev) : Dev :=
  let b := d.boot
  match a with
  | 0x08 => pctlWrite v d
  | 0x60 => { d with boot := { b with vset := fld v 10 0, avsBusy := true, avsTries := 0 } }
  | 0x64 => { d with boot := { b with avsErr := b.avsErr && !tst v 30 } }
  | 0x78 => { d with boot := { b with nvaddr := v &&& 0xFFFFFFE0, nvdone := false, nverr := false } }
  | 0x104 => { d with boot := { b with clkcfg := v &&& 0x03FF00FF } }
  | _ => d

/-- R315, R341: a write of CMD_RCTL. -/
def rctlWrite (v : Word) (d : Dev) : Dev :=
  let h := d.hp
  let h := if fld v 11 8 = h.log2n then h else { h with log2n := fld v 11 8, rhead := 0, rtail := 0, rback := false, wback := none }
  ringState (({ d with hp := { h with ren := tst v 0, rhalted := h.rhalted && !tst v 0 } } : Dev).on (tst v 0 && h.rback) ringAgain)

/-- Addresses 0x01000 to 0x01FFF. -/
def cmdPut (a : Nat) (v : Word) (d : Dev) : Dev :=
  let h := d.hp
  match a with
  | 0x1000 => { d with hp := { h with handle := v } }
  | 0x1004 => { d with hp := { h with arg0 := v } }
  | 0x1008 => { d with hp := { h with arg1 := v } }
  | 0x100C => { d with hp := { h with exec := v &&& 0x0000FFFF, ready := true, done := false } }
  | 0x1020 => rctlWrite v d
  | 0x1024 => { d with hp := { h with rbasel := v &&& 0xFFFFFF00, rhead := 0, rtail := 0, rback := false, wback := none } }
  | 0x1028 => { d with hp := { h with rbaseh := v, rhead := 0, rtail := 0, rback := false, wback := none } }
  | 0x102C => ringState { d with hp := { h with rtail := fld v 11 0 } }
  | 0x1038 => { d with hp := { h with stoperr := tst v 8, pto := fld v 7 0 } }
  | 0x1050 => { d with hp := { h with pres := v } }
  | 0x1054 => programDone (fld v 7 0) (some h.pres) d
  | _ => d

/-- Addresses 0x02000 to 0x02FFF. -/
def budPut (a : Nat) (v : Word) (d : Dev) : Dev :=
  let b := d.bud
  if 0x2100 ≤ a ∧ a < 0x2200 then { d with bud := { b with grp := b.grp.set ((a - 0x2100) / 4) (fld v 23 0) } }
  else match a with
  | 0x2000 => { d with bud := { b with ctrl := v &&& 3 } }
  | 0x200C => { d with bud := { b with devlim := fld v 23 0 } }
  | 0x2010 => { d with bud := { b with blocal := fld v 23 0 } }
  | 0x2020 => { d with bud := { b with loss := v } }
  | 0x2024 => { d with bud := { b with ladcfg := v } }
  | 0x2028 => { d with bud := { b with ev := w1c b.ev v } }
  | 0x202C => d.on (tst v 0) alertRelease
  | 0x2030 => { d with bud := { b with shift := v &&& 0xFFFF003F } }
  | _ => d

/-- Addresses 0x03000 to 0x03FFF. -/
def thmPut (a : Nat) (v : Word) (d : Dev) : Dev :=
  let x := d.thm
  match a with
  | 0x3000 => { d with thm := { x with cfg := v &&& 0xFFFFFF00 } }
  | 0x3004 => { d with thm := { x with hys := v &&& 0x001F0F0F } }
  | 0x3008 => { d with thm := { x with brk := v } }
  | 0x300C => { d with thm := { x with tcfg := v &&& 0x00000F1F } }
  | 0x3018 => { d with thm := { x with ev := w1c x.ev v } }
  | _ => d

/-- R396: a severity word with the sources that are reserved at 0. -/
def sevWord (n m : Nat) (v : Word) : Word :=
  word (((List.range 8).filter fun j => tst (listed n) (8 * m + j)).map fun j => (fld v (4 * j + 2) (4 * j), 4 * j))

/-- R247: a write of RDG_SAFE. -/
def safeWrite (v : Word) (d : Dev) : Dev :=
  if tst v 1 then enterSafe 0 0 d
  else if tst v 0 && d.flt.safe then holdEnds (d.onFlt fun f => { f with safe := false })
  else d

/-- Addresses 0x04000 to 0x04FFF. -/
def fltPut (a : Nat) (v : Word) (d : Dev) : Dev :=
  if 0x4100 ≤ a ∧ a < 0x4C00 then
    let n := (a - 0x4000) / 0x100
    let o := a % 0x100
    if o = 0x00 then d.onFlt fun f => f.ack n v
    else if o = 0x04 then d.onFlt fun f => { f with ien := f.ien.set (n - 1) (v &&& listed n) }
    else if 0x10 ≤ o ∧ o < 0x20 then d.onFlt fun f => { f with sev := f.sev.modify (n - 1) fun l => l.set ((o - 0x10) / 4) (sevWord n ((o - 0x10) / 4) v) }
    else d
  else match a with
  | 0x4004 => safeWrite v d
  | 0x4008 => d.onFlt fun f => { f with fcfg := v &&& 0x0000013F }
  | 0x400C => d.onFlt fun f => { f with scrub := v &&& 0x0000FF01 }
  | _ => d

/-- R216, R222: a write of LNK_CTRL. DEDUCED (log 27): links that do not operate have no width, and start training when they operate again.
FORGET names a reservation: a position without one keeps its allocation. -/
def lnkCtrlWrite (v : Word) (d : Dev) : Dev :=
  let off := tst d.lnk.ctrl 0 && !tst v 0
  let d := d.onLnk fun l => { l with ctrl := v &&& 1 }
  let d := d.on (tst v 1 || off) fun d => d.onLnk fun l => retrainSide .W (retrainSide .E l)
  let d := d.on (off && !d.lnk.acting) fun d => putDevcap (d.onLnk LinkDev.lose)
  d.on (tst v 2) fun d => d.onLnk fun l => l.onMember (fld v 13 8) fun m => if m.resv then { m with resv := false, alloc := 0, mlocal := 0, absent := 0 } else m

/-- Addresses 0x05000 to 0x05FFF. -/
def lnkPut (a : Nat) (v : Word) (d : Dev) : Dev :=
  match a with
  | 0x5000 => lnkCtrlWrite v d
  | 0x5008 => d.onLnk fun l => { l with rack := fld v 23 0 }
  | 0x5020 => d.onLnk fun l => { l with ev := w1c l.ev v }
  | 0x5100 => { d with pur := { d.pur with gev := w1c d.pur.gev v } }
  | _ => d

/-- Addresses 0x06000 to 0x07FFF. -/
def seqPut (a : Nat) (v : Word) (d : Dev) : Dev :=
  let q := d.seq
  match a with
  | 0x6000 => if tst v 0 then startRails d else if tst v 1 then stopRails d else d
  | 0x6008 => { d with seq := { q with cfg := v &&& 0xF73F7F3F } }
  | 0x600C => { d with seq := { q with be01 := v } }
  | 0x6010 => { d with seq := { q with be23 := v } }
  | 0x6014 => { d with seq := { q with wk01 := v } }
  | 0x6018 => { d with seq := { q with wk23 := v } }
  | 0x601C => { d with seq := { q with adm := v &&& 0x0000FFFF } }
  | 0x6020 => { d with seq := { q with ev := w1c q.ev v } }
  | 0x6800 => { d with marg := { d.marg with cfg := v &&& 0x0000FFFF } }
  | _ => d

/-- The block of a DMA channel. -/
def chanPut (n off : Nat) (v : Word) (d : Dev) : Dev :=
  let c := d.ch n
  match off with
  | 0x00 => chctlApply n v d
  | 0x04 =>
    if n = 0 then d.onCh n fun c => { c with cfg := v &&& 0x001F007F }
    else
      let same := fld v 11 8 = c.log2n ∧ tst v 12 = c.rloc
      d.onCh n fun c => { c with cfg := v &&& 0x011F1F7F, head := if same then c.head else 0, tail := if same then c.tail else 0 }
  | 0x08 => d.onCh n fun c => { c with rbl := v &&& 0xFFFFFF00, head := 0, tail := 0 }
  | 0x0C => d.onCh n fun c => { c with rbh := v, head := 0, tail := 0 }
  | 0x10 => setTail n (fld v 11 0) d
  | 0x18 => d.onCh n fun c => { c with aborted := c.aborted && !tst v 9 }
  | _ => d

/-- Addresses 0x0A000 to 0x0BFFF. -/
def logPut (a : Nat) (v : Word) (d : Dev) : Dev :=
  match a with
  | 0xA000 => logCmdApply v d
  | 0xA004 => d.onLog fun l => { l with cfg := v &&& 0xFFF0FF01 }
  | 0xA030 => d.onLog fun l => { l with tagl := v }
  | 0xA034 => d.onLog fun l => { l with tagh := v }
  | 0xA038 => d.onLog fun l => { l with ev := w1c l.ev v }
  | 0xA040 => d.onLog fun l => { l with index := fld v 10 0 }
  | _ => d

/-- R135: the trace of a tile under a write of TRC_CTL. DESIGN CHOICE (log 28): of several bits written at once ARM acts first, then FORCE, then STOP. -/
def trcCtlWrite (t : Nat) (v : Word) (d : Dev) : Dev :=
  let d := d.on (tst v 0) (trcArm t)
  let d := d.on (tst v 1) (trcForce t true)
  d.on (tst v 2) fun d => d.onTrc t fun x =>
    if x.st = 1 then { x with st := 3, fired := none } else if x.st = 2 then { x.done with post := 0 } else x

/-- R135, R134: a write of TRC_GCTL. -/
def trcGctlWrite (v : Word) (d : Dev) : Dev :=
  let d := d.on (tst v 0) fun d => d.eachT trcArm
  d.on (tst v 1) fun d => d.eachT fun t d => trcForce t true d

/-- The effect of an accepted write of the device register at `a`. -/
def devPut (a : Nat) (v : Word) (d : Dev) : Dev :=
  match a / 0x1000 with
  | 0 => idPut a v d
  | 1 => cmdPut a v d
  | 2 => budPut a v d
  | 3 => thmPut a v d
  | 4 => fltPut a v d
  | 5 => lnkPut a v d
  | 6 => seqPut a v d
  | 8 => if 0x8100 ≤ a ∧ a < 0x8300 then chanPut ((a - 0x8100) / 0x40) (a % 0x40) v d
         else if a = 0x8000 then { d with dma := { d.dma with nvwen := tst v 0 } } else d
  | 10 => logPut a v d
  | 12 => if a = 0xC000 then trcGctlWrite v d else d
  | _ => d

/-- R272, R308: a write of a device register: status and block. R360: a CLEAR that fails its tag uses up the nonce. -/
def devWrite (w : Writer) (a : Nat) (v : Word) (d : Dev) : Nat × Dev :=
  if !devReg a then (1, d)
  else
    let st := devStatus w d a v
    (st, if st = 0 then devPut a v d else if a = 0xA000 ∧ st = 5 ∧ tst v 4 then clearRefused d else d)

/-! ### Tile windows: checks (R289) -/

/-- The outcome of each step of R289; `cond` is the status of step 7, 0 where its condition is met. -/
structure Checks where
  form : Bool := false
  absent : Bool := false
  range : Bool := false
  inReset : Bool := false
  safe : Bool := false
  window : Bool := false
  cond : Nat := 0

/-- R289: the status. -/
def Checks.first (c : Checks) : Nat :=
  firstFail [(c.form, 1), (c.absent, 3), (c.range, 1), (c.inReset, 4), (c.safe, 7), (c.window, 7), (c.cond != 0, c.cond)]

/-- R294: the status on arrival: steps 2, 4, 5, 6 and 7. -/
def Checks.arrival (c : Checks) : Nat := firstFail [(c.absent, 3), (c.inReset, 4), (c.safe, 7), (c.window, 7), (c.cond != 0, c.cond)]

/-- R28: a write of SEQ_CLGR would raise the grant. -/
def grantRaise (old new : Word) : Bool :=
  let step := fun (w : Word) => if fld w 15 8 = 0 then 256 else fld w 15 8
  fld new 1 0 < fld old 1 0 || step old < step new

/-- R27: a class's entry among those of every class, highest class first. -/
def byClass (cls : Nat) (w : Word) (l : List (Nat × Word)) : List (Nat × Word) := l.filter (·.1 < cls) ++ (cls, w) :: l.filter (cls < ·.1)

/-- R27: a span brought inside another one. -/
def spanIn (b w : Word) : Word :=
  word [(clampN (fld b 9 0) (fld b 25 16) (fld w 25 16), 16), (clampN (fld b 9 0) (fld b 25 16) (fld w 9 0), 0)]

/-- R27: the span in force where classes have written spans: the lowest class's, brought inside that of every higher class in turn. -/
def spanOf : List (Nat × Word) → Word
  | [] => 0
  | [b] => b.2
  | b :: l => spanIn b.2 (spanOf l)

/-- R27: the grant policy in force where classes have written policies: the strictest mode, and the smallest step, 0 being none. -/
def grantOf : List (Nat × Word) → Word
  | [] => 0
  | [b] => b.2
  | b :: l =>
    let w := grantOf l
    let a := fld b.2 15 8
    let s := fld w 15 8
    word [(if a = 0 then s else if s = 0 then a else min a s, 8), (max (fld b.2 1 0) (fld w 1 0), 0)]

/-- R27: the span, and the grant policy, that a write of `w` by class `cls` leaves in force. -/
def ClSeq.spanWith (q : ClSeq) (cls : Nat) (w : Word) : Word := spanOf (byClass cls (w &&& 0x03FF03FF) q.bounds)
def ClSeq.grantWith (q : ClSeq) (cls : Nat) (w : Word) : Word := grantOf (byClass cls (w &&& 0x0000FF03) q.grants)

/-- The checks of a write of a cluster register by an authority class. R26, R28: what a write of SEQ_CLLIM or SEQ_CLGR would change is judged on the span and
the policy that it leaves in force (R27). -/
def clusterChecks (v : View) (cls t c off : Nat) (w : Word) : Checks :=
  let d := v.d
  let k := d.cl t c
  let q := k.seq
  let dm := domOf c
  let lo := codeLo dm
  let hi := codeHi dm
  let base : Checks := { absent := !d.live t c, inReset := (d.tl t).rst }
  match off with
  | 0x00 => { base with range := out lo hi (fld w 9 0), safe := d.safe && q.atarget < fld w 9 0, window := k.quiet }
  | 0x04 =>
    let mn := fld w 9 0
    let mx := fld w 25 16
    let sp := q.spanWith cls w
    { base with range := mx < mn || out lo hi mn || out lo hi mx, safe := d.safe && q.atarget < fld sp 9 0
                window := k.quiet && (q.atarget < fld sp 9 0 || fld sp 25 16 < q.atarget) }
  | 0x08 => { base with range := 4 < fld w 10 8 || out 1 50 (fld w 5 0) }
  | 0x0C =>
    let f := fld w 6 4
    { base with range := 4 < f || (!isLS c && (f == 2 || f == 3)), safe := d.safe && (tst w 7 || f == 0) && f < q.st.depth, window := k.quiet }
  | 0x14 => { base with range := fld w 1 0 == 3, safe := d.safe && grantRaise q.clgr (q.grantWith cls w), window := k.quiet }
  | 0x18 => { base with range := fld w 15 0 == 0, safe := d.safe && k.bud.cap < fld w 15 0 }
  | 0x2C => { base with form := tst w 0 && tst w 1, cond := clcmdStatus d t c w }
  | 0x30 => { base with range := out 2048 8191 (fld w 15 0) }
  | 0x40 => { base with range := out 6 24 (fld w 12 8) || out 6 24 (fld w 4 0) }
  | 0x44 => { base with range := fld w 7 0 < 16 }
  | 0x48 => { base with range := fld w 15 8 < 8 }
  | 0x68 => if tst w 0 then { base with window := k.quiet, cond := returnStatus t c d } else base
  | 0x74 => { base with range := (if isLS c then 31 else 1) < fld w 5 0, window := k.quiet, cond := if (d.tl t).fus.run then 0 else 2 }
  | _ => base

/-- Table 5-13: band edges that ascend strictly within the domain range. -/
def edgesOk (dm : Domain) (w : Word) : Bool :=
  codeLo dm ≤ fld w 9 0 && fld w 9 0 < fld w 19 10 && fld w 19 10 < fld w 29 20 && fld w 29 20 ≤ codeHi dm

/-- The checks of a tile register. DEDUCED (log 102): R133's RANGE for a code outside Table 4-6 holds for TRC_TRIG.NODE as for TRC_NODEn. -/
def tileChecks' (v : View) (t off : Nat) (w : Word) : Checks :=
  let d := v.d
  let x := d.tl t
  let base : Checks := { absent := !d.answersT t, inReset := x.rst }
  let trc : Checks := { base with cond := if x.trace.st = 0 ∨ x.trace.st = 3 then 0 else 4 }
  let split := fun (st : Nat) => { base with range := st == 1, cond := if st = 1 then 0 else st }
  if 0xD00 ≤ off ∧ off < 0xE20 then { base with absent := !d.live t ((off - 0xD00) / 16) }
  else if 0xE40 ≤ off ∧ off < 0xF60 then { base with absent := !d.live t ((off - 0xE40) / 16) }
  else match off with
  | 0xA00 => { base with cond := if tst w 0 then (if x.fus.run || x.mapped v.map then 0 else 2) else if x.fus.run then 2 else 0 }
  | 0xA08 => split (fusCmdStatus x w)
  | 0xA0C => split (fusMapStatus x w)
  | 0xA40 => { trc with range := 17 < fld w 4 0 || ({ x.trace with cfg := w }).depth ≤ fld w 17 8 }
  | 0xA44 => { trc with range := 12 < fld w 3 0 || (fld w 3 0 == 12 && tst w 31) || !nodeOk (fld w 11 4) }
  | 0xA48 | 0xA4C | 0xA50 => { trc with range := [0, 1, 2, 3].any fun i => !nodeOk (fld w (8 * i + 7) (8 * i)) }
  | 0xA54 => { trc with range := [0, 1].any fun i => !nodeOk (fld w (8 * i + 7) (8 * i)) }
  | 0xB00 => { base with range := 16 < fld w 25 21 || 16 < fld w 20 16 }
  | 0xB08 => { base with range := 50 < fld w 13 8 || 40 < fld w 5 0 }
  | 0xC00 => { base with range := !edgesOk .L w }
  | 0xC04 => { base with range := !edgesOk .S w }
  | 0xC08 => { base with range := fld w 15 0 == 0, safe := d.safe && x.tcap < fld w 15 0 }
  | _ => base

/-- R289: the checks of a write of `w` at offset `off` of the window of tile `t`, by an authority class, by a view of the tile. -/
def tileChecks (v : View) (cls t off : Nat) (w : Word) : Checks :=
  if off < 0x900 then clusterChecks v cls t (off / 0x80) (off % 0x80) w else tileChecks' v t off w

/-! ### Tile windows: effect -/

/-- R27, R169, R178: a write of SEQ_CLLIM; a span that excludes the A-state target starts a transition to the nearest bound. -/
def cllimPut (cls t c : Nat) (v : Word) (d : Dev) : Dev :=
  let q := (d.cl t c).seq
  let w := q.spanWith cls v
  let mn := fld w 9 0
  let mx := fld w 25 16
  let a := q.atarget
  let d := d.onSeq t c fun q => { q with cllim := w, bounds := byClass cls (v &&& 0x03FF03FF) q.bounds }
  d.on (decide (a < mn ∨ mx < a)) (submit t c { cls := cls, kind := .setpoint, code := clampN mn mx a })

/-- R189, R22: a write of SEQ_CLPS is accepted. -/
def clpsPut (cls t c : Nat) (w : Word) (d : Dev) : Dev :=
  d.onSeq t c fun q => { q with clps := w &&& 0x000000F0, held := q.held ++ [.state (tst w 7) (fld w 6 4) cls] }

/-- R22, R27: a write of SEQ_CLGR is accepted: the policy in force allows no more than any class's. -/
def clgrPut (cls t c : Nat) (v : Word) (d : Dev) : Dev :=
  let g := (d.cl t c).seq.grantWith cls v
  d.onSeq t c fun q => { q with clgr := g, grants := byClass cls (v &&& 0x0000FF03) q.grants, held := q.held ++ [.grant g] }

/-- The effect of an accepted write of a cluster register, at an authority class. A write of SEQ_CLSP starts a class 7 transition (Table 6-13, R177; log 101). -/
def clusterPut (cls t c off : Nat) (w : Word) (d : Dev) : Dev :=
  match off with
  | 0x00 => submit t c { cls := 7, kind := .setpoint, code := fld w 9 0 } d
  | 0x04 => cllimPut cls t c w d
  | 0x08 => d.onSeq t c fun q => { q with clcfg := w &&& 0x0000073F }
  | 0x0C => clpsPut cls t c w d
  | 0x14 => clgrPut cls t c w d
  | 0x18 => putClCap t c (fld w 15 0) d
  | 0x2C => clcmdApply t c w d
  | 0x30 => d.onThm t c fun x => { x with clcal := w &&& 0xFFF0FFFF }
  | 0x40 => d.onLoop t c fun l => { l with cmpcfg := w &&& 0x00031F1F }
  | 0x44 => d.onLoop t c fun l => { l with occfg := w &&& 0x000007FF }
  | 0x48 => d.onLoop t c fun l => { l with shedcfg := w &&& 0x0000FF07 }
  | 0x54 => d.onLoop t c fun l => { l with cellev := w1c l.cellev w }
  | 0x68 => d.on (tst w 0) (returnTo t c)
  | 0x74 => clctlPut t c w d
  | 0x78 => d.onFus t c fun f => { f with plev := w1c f.plev w }
  | _ => d

/-- R196: a write of RFT_CPMCTL. -/
def cpmCtlWrite (t : Nat) (w : Word) (d : Dev) : Dev :=
  d.onT t fun x => { x with cpmGuard := fld w 19 16, cpm := mapI (fun c l => if tst w c then [127, 127, 127, 127] else l) 0 x.cpm }

/-- R400: every bypassed port of a router retrains. -/
def purRetry (t : Nat) (d : Dev) : Dev := d.onT t fun x => { x with train := x.byp }

/-- The effect of an accepted write of a tile register. -/
def tilePut' (m : List Host.Cell) (t off : Nat) (w : Word) (d : Dev) : Dev :=
  if 0xD00 ≤ off ∧ off < 0xE20 then
    d.onBud t ((off - 0xD00) / 16) fun b => { b with theta := b.theta.set ((off - 0xD00) / 4 % 4) w.toInt }
  else match off with
  | 0x900 => d.onRem t fun r => { r with ctrl := w &&& 0x80000007 }
  | 0x90C => d.onRem t fun r => { r with mmev := w1c r.mmev w }
  | 0xA00 => d.on (tst w 0) (runStart m t)
  | 0xA04 => d.onTFus t fun f => { f with banderr := f.banderr && !tst w 27, wlive := f.wlive && !tst w 26 }
  | 0xA08 => fusCmdStart t w d
  | 0xA0C => fusMapStart t w d
  | 0xA40 => d.onTrc t fun x => { x with cfg := w &&& 0x0003FFFF }
  | 0xA44 => d.onTrc t fun x => { x with trig := w &&& 0xFFFF0FFF }
  | 0xA48 => d.onTrc t fun x => { x with nodes := x.nodes.set 0 w }
  | 0xA4C => d.onTrc t fun x => { x with nodes := x.nodes.set 1 w }
  | 0xA50 => d.onTrc t fun x => { x with nodes := x.nodes.set 2 w }
  | 0xA54 => d.onTrc t fun x => { x with nodes := x.nodes.set 3 (w &&& 0x0000FFFF) }
  | 0xA58 => trcCtlWrite t w d
  | 0xB00 => d.onTEsc t fun e => { e with cfg := w &&& 0x03FF0007 }
  | 0xB08 => d.onTEsc t fun e => { e with qwcfg := w &&& 0x00003F3F }
  | 0xB0C => d.onTEsc t fun e => { e with ev := w1c e.ev w }
  | 0xC00 => d.onTEsc t fun e => { e with fbndl := w &&& 0x3FFFFFFF }
  | 0xC04 => d.onTEsc t fun e => { e with fbnds := w &&& 0x3FFFFFFF }
  | 0xC08 => putTCap t (fld w 15 0) d
  | 0xC0C => d.onT t fun x => { x with tgrp := fld w 5 0 }
  | 0xF80 => d.on (tst w 20) (purRetry t)
  | 0xFB0 => cpmCtlWrite t w d
  | 0xFE0 => rftCtlWrite t w d
  | _ => d

/-- The effect of an accepted write at an offset of a tile window, at an authority class. -/
def tilePut (m : List Host.Cell) (cls t off : Nat) (w : Word) (d : Dev) : Dev :=
  if off < 0x900 then clusterPut cls t (off / 0x80) (off % 0x80) w d else tilePut' m t off w d

/-- The cluster that an offset of a window names, 0 where it names none. -/
def offCluster (off : Nat) : Nat :=
  if off < 0x900 then off / 0x80
  else if 0xD00 ≤ off ∧ off < 0xE20 then (off - 0xD00) / 16
  else if 0xE40 ≤ off ∧ off < 0xF60 then (off - 0xE40) / 16
  else 0

/-! ### A write by each path -/

/-- R272: a write of a tile window at once, against live state: by a Rafter in its own tile, and by the boot logic (R388). -/
def writeLive (m : List Host.Cell) (w : Writer) (t off : Nat) (v : Word) (d : Dev) : Nat × Dev :=
  if !windowReg off then (1, d)
  else
    let st := (tileChecks (liveView m d t) (classOf w) t off v).first
    (st, if st = 0 then tilePut m (classOf w) t off v d else d)

/-- R401: a tile that Purlin does not reach. -/
def Dev.lostT (d : Dev) (t : Nat) : Bool := boolAt d.pur.lost t

/-- R294, R309: a write of a tile window that travels: checked against the shadow, then sent. `op` and `seq` are what a late refusal carries. -/
def writeFar (w : Writer) (t off : Nat) (v : Word) (op seq : Nat) (d : Dev) : Nat × Dev :=
  if !windowReg off then (1, d)
  else
    let c := tileChecks (shadowView d t) (classOf w) t off v
    let st := ({ c with absent := c.absent || d.lostT t }).first
    (st, if st = 0 then launch { src := w, tile := t, cluster := offCluster off, op := op, seq := seq, kind := .regw off v } d else d)

/-- R304: bytes of the Ridge's RAMs written through the host window; R322: instruction RAM becomes dirty. -/
def writeRam (be a : Nat) (v : Word) (m : List Host.Cell) (d : Dev) : List Host.Cell × Dev :=
  (((List.range 4).filter fun i => be / 2 ^ i % 2 == 1).foldl (fun m i => Mem.write m (a - 0x80000 + i) (v.extractLsb' (8 * i) 8)) m,
   d.on (a < 0x90000 && be % 16 != 0) fun d => { d with ridge := { d.ridge with dirty := true } })

/-- R308, Table 11-2: a write at a host address, by the host port or the test port; `seq` is its command's SEQ, 0 for a direct write. -/
def hostWriteAt (w : Writer) (be a seq : Nat) (v : Word) (m : List Host.Cell) (d : Dev) : Nat × List Host.Cell × Dev :=
  if d.hp.closed then (4, m, d)
  else if a < 0x10000 then
    if !devReg a then (1, m, d) else if be % 16 ≠ 15 then (6, m, d)
    else
      let r := devWrite w a v d
      (r.1, m, r.2)
  else if a < 0x70000 then
    let t := (a - 0x10000) / 0x1000
    let off := a % 0x1000
    if !windowReg off then (1, m, d) else if be % 16 ≠ 15 then (6, m, d)
    else if (d.mir t).stale then (3, m, d)
    else
      let r := writeFar w t off v 0x1D seq d
      (r.1, m, r.2)
  else if 0x80000 ≤ a ∧ a < 0xA0000 then
    if d.ramOpen then
      let r := writeRam be a v m d
      (0, r.1, r.2)
    else (2, m, d)
  else (1, m, d)

/-- R306: a host write anywhere in a tile window ends its latch. DESIGN CHOICE (log 124): a rejected write ends it too. -/
def endLatch (r : Reader) (a : Nat) (d : Dev) : Dev :=
  d.on (0x10000 ≤ a && a < 0x70000) fun d => d.onMir ((a - 0x10000) / 0x1000) fun x => x.setCopy r none

/-- HP_ADDR[19:2]: a host address. -/
def hostAddr (a : Nat) : Nat := a % 2 ^ 20 / 4 * 4

/-- R308: a host write with its status registers and the end of the latch of its window. -/
def hostWrite (w : Writer) (be a seq : Nat) (v : Word) (m : List Host.Cell) (d : Dev) : Nat × List Host.Cell × Dev :=
  let r := hostWriteAt w be a seq v m (endLatch (if w == .test then .test else .host) a d)
  let h := r.2.2.hp
  (r.1, r.2.1, { r.2.2 with hp := { h with wstatAddr := a, wstat := r.1, rej := if r.1 = 0 then h.rej else incSat 255 h.rej } })

/-- R365: the response of the host port to its latest request. -/
def respond (w : Writer) (data : Option Word) (st : Nat) (d : Dev) : Dev :=
  d.on (w == .host) fun d => { d with hp := { d.hp with rdata := data.getD d.hp.rdata, stat := st } }

/-- R308, R365, R377: one write request of the host port or the test port. -/
def portWrite (w : Writer) (be a : Nat) (v : Word) (m : List Host.Cell) (d : Dev) : Nat × List Host.Cell × Dev :=
  let r := hostWrite w be (hostAddr a) 0 v m d
  (r.1, r.2.1, respond w none r.1 r.2.2)

/-- R272: a Ridge write at a host address below 0x70000. -/
def ridgeWrite (a : Nat) (v : Word) (d : Dev) : Nat × Dev :=
  if a < 0x10000 then devWrite .ridge a v d else writeFar .ridge ((a - 0x10000) / 0x1000) (a % 0x1000) v 0x1D 0 d

/-- A write by any writer at a host address: the host and test ports as requests, the Ridge through its window, a Rafter in its own tile's window, the boot
logic at once (R388). A Rafter reaches no other register. -/
def writeAs (w : Writer) (a : Nat) (v : Word) (m : List Host.Cell) (d : Dev) : Nat × List Host.Cell × Dev :=
  match w with
  | .host | .test => portWrite w 15 a v m d
  | .ridge =>
    let r := ridgeWrite a v d
    (r.1, m, r.2)
  | .rafter t =>
    if 0x10000 ≤ a ∧ a < 0x70000 ∧ (a - 0x10000) / 0x1000 = t ∧ d.hasT t then
      let r := writeLive m w t (a % 0x1000) v d
      (r.1, m, r.2)
    else (1, m, d)
  | .boot =>
    let r := if a < 0x10000 then devWrite .boot a v d else writeLive m .boot ((a - 0x10000) / 0x1000) (a % 0x1000) v d
    (r.1, m, r.2)

/-- The host address of an offset of a tile window, and of a cluster register. -/
def tileAddr (t off : Nat) : Nat := 0x10000 + 0x1000 * t + off
def clAddr (t c off : Nat) : Nat := tileAddr t (0x80 * c + off)

/-! ### Operations that arrive (R294 to R296, R309) -/

/-- R289: the checks of an operation on its way, by a view. -/
def opChecks (v : View) (f : Flying) : Checks :=
  let d := v.d
  let t := f.tile
  match f.kind with
  | .regw off w => tileChecks v (classOf f.src) t off w
  | .setp code slew =>
    let c := clusterChecks v (classOf f.src) t f.cluster 0x00 (nw code)
    { c with range := c.range || out 1 50 slew || 1023 < code }
  | .fmaxw core _ => { absent := !d.answersT t, range := 10751 < core, inReset := (d.tl t).rst }
  | .trig => { absent := !d.answersT t, inReset := (d.tl t).rst }
  | .sub .. => {}

/-- R291: FMAXW writes a core's entry. -/
def fmaxEntry (t core : Nat) (codes : Word) (m : List Host.Cell) (d : Dev) : List Host.Cell × Dev := fmaxPut t (4 * core) (wordBytes codes) m d

/-- The effect of an accepted operation. -/
def opPut (f : Flying) (m : List Host.Cell) (d : Dev) : List Host.Cell × Dev :=
  let t := f.tile
  match f.kind with
  | .regw off w => (m, tilePut m (classOf f.src) t off w d)
  | .setp code slew => (m, submit t f.cluster { cls := classOf f.src, kind := .setpoint, code := code, slew := slew } d)
  | .fmaxw core codes => fmaxEntry t core codes m d
  | .trig => (m, trcForce t true d)
  | .sub off hi _ n => (m, (rcSub t off hi n d).onMir t fun x => { x with reads := x.reads.map fun y => if y.no = f.no then { y with applied := some d.clk.outer } else y })

/-- R295: no message of the core issued earlier is still on its way to the tile. -/
def Dev.noMsgBefore (d : Dev) (w : Writer) (t no : Nat) : Bool :=
  let q := fun (k : CoreId) => (d.sentBy k).all fun x => !((x.bcast || x.dst == some t) && x.no < no)
  match w with | .ridge => q .ridge | .rafter n => q (.rafter n) | _ => true

/-- OPERATION_ARRIVAL (R294, R307, R309): the oldest operation from a source to a tile arrives, is checked again, and acts or is refused. -/
def operationArrival (src : Writer) (t : Nat) (m : List Host.Cell) (d : Dev) : List Host.Cell × Dev :=
  match d.air.find? fun f => f.src == src && f.tile == t with
  | none => (m, d)
  | some f =>
    if !d.noMsgBefore src t f.no then (m, d)
    else
      let d := { d with air := d.air.filter fun g => g.no != f.no }
      let c := opChecks (liveView m d t) f
      let st := ({ c with absent := c.absent || d.lostT t }).arrival
      match f.kind with
      | .sub .. =>
        if d.lostT t then (m, d.onMir t fun x => { x with reads := x.reads.filter fun y => y.no != f.no }) else opPut f m d
      | _ => if st = 0 then opPut f m d else (m, giveBack src { status := st, op := f.op, tile := t, cluster := f.cluster, seq := f.seq } d)

/-- OPERATION_ARRIVAL (R294). -/
def execOperationArrival (src : Writer) (t : Nat) (s : State) : Host.Outcome State Fault Refusal :=
  let r := operationArrival src t s.mem s.dev
  finM s r.1 r.2

/-- TRACE_CROSS_TRIGGER (R134): a trigger sent by another tile reaches a tile, which takes it with TRC_CFG.XIN set. -/
def execTraceCrossTrigger (t : Nat) (s : State) : Host.Outcome State Fault Refusal :=
  let d := s.dev
  fin s (if d.xtrig.contains t then
      let d := { d with xtrig := d.xtrig.erase t }
      d.on (tst (d.tl t).trace.cfg 7) (trcForce t false)
    else d)

end Sys2Proof.Machine
end

