-- ==== Sys2Proof/Machine/Purlin.lean ====
section
/-!
DEFINITION. Sys2Proof/Machine/Purlin.lean: the mesh routers, bypasses, tiles that Purlin does not reach, and the mirrors of the tile windows (R305 to
R307, R400 to R402).
-/
namespace Sys2Proof.Machine

/-! ### Reach (R401) -/

/-- The neighbour of a tile on a port. -/
def Dev.neighbour (d : Dev) (t p : Nat) : Option Nat := (d.build.mesh.getD t []).getD p none

/-- The link on port `p` of tile `t` is bypassed: at this end or at the other. -/
def Dev.linkOut (d : Dev) (t p : Nat) : Bool :=
  boolAt (d.tl t).byp p || (match d.neighbour t p with
    | some n => (List.range 4).any fun q => d.neighbour n q == some t && boolAt (d.tl n).byp q
    | none => true)

/-- A router that passes flits: its tile present and its feed standing. -/
def Dev.routes (d : Dev) (t : Nat) : Bool := d.hasT t && !(d.tl t).noFeed

/-- The tiles one link further than those of a list. -/
def Dev.spread (d : Dev) (l : List Nat) : List Nat :=
  l.foldl (fun a t => [0, 1, 2, 3].foldl (fun a p =>
    match d.neighbour t p with
    | some n => if a.contains n || d.linkOut t p || !d.routes n then a else a ++ [n]
    | none => a) a) l

/-- R401: the tiles that a route of present routers joins to the Ridge. -/
def Dev.reach (d : Dev) : List Nat := iter d.spread 96 [d.build.ridgeTile]

/-- R401: a tile that has become unreachable is marked, reported, and its transfers are refused. DEDUCED (log 29): a router that has lost its feed is
found at the next outer boundary or port event. -/
def lostCheck (d : Dev) : Dev :=
  let r := d.reach
  let gone := d.tilesOn.filter fun t => !d.lostT t && !(r.contains t && d.routes t)
  gone.foldl (fun d t =>
    raise 9 18 (.tile t) 0 (dmaTileGone t 3 { d with pur := { d.pur with lost := d.pur.lost.set t true } })) d.offering

/-! ### Ports (R400, R402) -/

/-- R400: a port is bypassed. -/
def bypassPort (t p : Nat) (d : Dev) : Dev :=
  if boolAt (d.tl t).byp p then d
  else
    let d := d.onT t fun x => { x with byp := x.byp.set p true, tries := x.tries.set p 0, train := x.train.set p false }
    lostCheck (raiseAt 9 17 (.tile t) 0 0 none none p { d.offering with pur := { d.pur with bypass := incSat 0xFFFF d.pur.bypass } })

/-- R400: a flit sent on a port fails its CRC at the neighbour, for the first time or, with `again`, on a resend: it is resent, at most four times. DEDUCED
(log 30): a port resends one flit at a time. -/
def flitCrcError (t p : Nat) (again : Bool) (d : Dev) : Dev :=
  if !d.faces t p || boolAt (d.tl t).byp p then d
  else
    let d := match d.neighbour t p with
      | some n => d.onT n fun x => { x with crcerr := incSat 0xFFFF x.crcerr }
      | none => d
    let n := if again then (d.tl t).tries.getD p 0 else 0
    if 4 ≤ n then bypassPort t p d
    else
      let d := d.onT t fun x => { x with tries := x.tries.set p (n + 1), retry := incSat 0xFFFF x.retry }
      raiseAt 9 16 (.tile t) 0 0 none none p { d with pur := { d.pur with retry := incSat 0xFFFF d.pur.retry } }

/-- R400: the port has passed 1,024 consecutive flits of its training pattern. -/
def portRetrained (t p : Nat) (d : Dev) : Dev :=
  d.on (boolAt (d.tl t).train p) fun d =>
    d.onT t fun x => { x with byp := x.byp.set p false, train := x.train.set p false, tries := x.tries.set p 0 }

/-! ### Mirrors (R305 to R307, R401) -/

/-- R305: an outer boundary forms the mirror of every reachable tile, and marks those of which none has arrived for 8 whole outer periods. -/
def formMirrors (d : Dev) : Dev :=
  let r := d.reach
  { d with mirrors := mapI (fun t x =>
      let n := x.since + 1
      let x := { x with since := n, stale := x.stale || decide (9 ≤ n) }
      if d.hasT t && (!d.lostT t || (r.contains t && d.routes t)) then { x with flight := x.flight ++ [{ tile := d.tl t, outer := d.clk.outer, lad := d.bud.ladcfg }] } else x) 0 d.mirrors }

/-- R307: a copy that the mirror holds was formed before the subtraction of the read was applied. -/
def Mirror.needs (x : Mirror) (y : RcRead) : Bool :=
  y.before x.cur.outer || [x.host, x.test].any fun c => match c with | some p => y.before p.1.outer | none => false

/-- SHADOW_MIRROR (R305, R307, R401): the oldest mirror on its way comes into force. -/
def shadowMirror (t : Nat) (d : Dev) : Dev :=
  match (d.mir t).flight with
  | [] => d
  | s :: l =>
    let d := d.onMir t fun x =>
      let x := { x with cur := s, flight := l, stale := false, since := 0 }
      { x with reads := x.reads.filter x.needs }
    d.on (d.lostT t && d.reach.contains t && d.routes t) fun d => { d with pur := { d.pur with lost := d.pur.lost.set t false } }

/-- R306: a latched copy ends 100 µs after it was taken. -/
def latchExpiry (r : Reader) (t : Nat) (d : Dev) : Dev :=
  match (d.mir t).copy r with
  | some p => d.on (p.2 + 100000 ≤ d.clk.now) fun d => d.onMir t fun x => x.setCopy r none
  | none => d

/-! ### Meanings -/

/-- FLIT_CRC_ERROR (R400). -/
def execFlitCrcError (t port : Nat) (s : State) (again : Bool := false) : Host.Outcome State Fault Refusal := fin s (flitCrcError t port again s.dev)

/-- PORT_FRAMING_LOSS (R400): the receiver of a port has lost its framing for 64 cycles. -/
def execPortFramingLoss (t port : Nat) (s : State) : Host.Outcome State Fault Refusal :=
  fin s (s.dev.on (s.dev.faces t port) (bypassPort t port))

/-- PORT_RETRAINED (R400). -/
def execPortRetrained (t port : Nat) (s : State) : Host.Outcome State Fault Refusal := fin s (portRetrained t port s.dev)

/-- SHADOW_MIRROR (R305). -/
def execShadowMirror (t : Nat) (s : State) : Host.Outcome State Fault Refusal := fin s (shadowMirror t s.dev)

/-- SHADOW_LATCH_EXPIRY (R306). -/
def execShadowLatchExpiry (rdr : Reader) (t ns : Nat) (s : State) : Host.Outcome State Fault Refusal := fin s (latchExpiry rdr t (s.dev.at ns))

end Sys2Proof.Machine
end

