-- ==== Sys2Proof/Machine/DevOps.lean ====
section
/-!
DEFINITION. Sys2Proof/Machine/DevOps.lean: the device operations as the cores and the command unit issue them: handles, validation, and what they do
(R288 to R293, R313).
-/
namespace Sys2Proof.Machine

/-! ### Handles (R288, Table 10-9) -/

def hT (h : Word) : Bool := tst h 23
def hTile (h : Word) : Nat := fld h 22 16
def hCl (h : Word) : Nat := fld h 4 0

/-- R289 step 1 for a handle: fields marked 0, cluster numbers that Table 10-9 gives, and the tiles that the issuer may name; `all` where 0x7F
with T 1 is allowed. -/
def handleOk (w : Writer) (all : Bool) (h : Word) : Bool :=
  let t := hTile h
  fld h 31 24 == 0 && fld h 15 5 == 0 && hCl h < 18 && (!hT h || hCl h == 0) &&
    (match w with
      | .rafter own => t == own || t == 0x7F
      | _ => t < 96 || (t == 0x7F && all && hT h))

/-- The tile a handle names to its issuer: 0x7F is a Rafter's own tile. -/
def tileOf (w : Writer) (t : Nat) : Nat := match w with | .rafter own => if t = 0x7F then own else t | _ => t

/-- R272, R292, R294: what an issuer sees of a tile: a Rafter the live tile, the others its mirror. -/
def viewFor (w : Writer) (m : List Host.Cell) (t : Nat) (d : Dev) : View := match w with | .rafter _ => liveView m d t | _ => shadowView d t

/-! ### Operations on a tile or a cluster -/

/-- What a device operation asks for, besides its handle: whether it names a tile (T 1), whether a field marked 0 is not 0, its op code and effect. -/
structure Ask where
  tileScope : Bool
  form : Bool
  op : Nat
  kind : OpKind

/-- An operation on one target: checked by the issuer's view, then sent over Purlin or, by a Rafter, carried out. -/
def issue (w : Writer) (seq : Nat) (c : Checks) (f : Flying) (m : List Host.Cell) (d : Dev) : Nat × List Host.Cell × Dev :=
  let far := match w with | .rafter _ => false | _ => true
  let st := ({ c with absent := c.absent || (far && d.lostT f.tile) }).first
  if st ≠ 0 then (st, m, d)
  else if far then (0, m, launch { f with seq := seq } d)
  else
    let r := opPut f m d
    (0, r.1, r.2)

/-- R289: a device operation that a handle aims. -/
def aimed (w : Writer) (seq : Nat) (h : Word) (a : Ask) (m : List Host.Cell) (d : Dev) : Nat × List Host.Cell × Dev :=
  let t := tileOf w (hTile h)
  let f : Flying := { src := w, tile := t, cluster := hCl h, op := a.op, seq := seq, kind := a.kind }
  if a.form || !handleOk w false h then (1, m, d)
  else
    let v := viewFor w m t d
    -- a handle of the other scope is a RANGE of step 3
    issue w seq (if hT h == a.tileScope then opChecks v f else { absent := !v.d.answersT t || (!hT h && !v.d.live t (hCl h)), range := true }) f m d

/-- SETP (Table 10-10): code and slew words. -/
def opSetp (w : Writer) (seq : Nat) (h code slew : Word) : List Host.Cell → Dev → Nat × List Host.Cell × Dev :=
  aimed w seq h { tileScope := false, form := fld code 31 10 != 0 || fld slew 31 6 != 0, op := 0x30, kind := .setp (fld code 9 0) (fld slew 5 0) }

/-- PSTATE: FSTATE in [2:0], FORCE in [3]. -/
def opPstate (w : Writer) (seq : Nat) (h x : Word) : List Host.Cell → Dev → Nat × List Host.Cell × Dev :=
  aimed w seq h { tileScope := false, form := fld x 31 4 != 0, op := 0x31
                  kind := .regw (0x80 * hCl h + 0x0C) (word [(fld x 3 3, 7), (fld x 2 0, 4)]) }

/-- CAPSET: the value in [15:0]. -/
def opCapset (w : Writer) (seq : Nat) (h x : Word) : List Host.Cell → Dev → Nat × List Host.Cell × Dev :=
  aimed w seq h { tileScope := hT h, form := fld x 31 16 != 0, op := 0x32
                  kind := .regw (if hT h then 0xC08 else 0x80 * hCl h + 0x18) x }

/-- FMAXW: core reference and codes. -/
def opFmaxw (w : Writer) (seq : Nat) (ref codes : Word) (m : List Host.Cell) (d : Dev) : Nat × List Host.Cell × Dev :=
  let t := tileOf w (hTile ref)
  let f : Flying := { src := w, tile := t, cluster := 0, op := 0x33, seq := seq, kind := .fmaxw (fld ref 13 0) codes }
  if fld ref 31 23 ≠ 0 ∨ fld ref 15 14 ≠ 0 ∨ !handleOk w false (nw (hTile ref * 65536)) then (1, m, d)
  else issue w seq (opChecks (viewFor w m t d) f) f m d

/-- TBLSEL: FREGION in [5:0], FORCE in [6], LOCK in [7]. -/
def opTblsel (w : Writer) (seq : Nat) (h x : Word) : List Host.Cell → Dev → Nat × List Host.Cell × Dev :=
  aimed w seq h { tileScope := false, form := fld x 31 8 != 0, op := 0x34
                  kind := .regw (0x80 * hCl h + 0x74) (word [(fld x 7 7, 9), (fld x 6 6, 8), (fld x 5 0, 0)]) }

/-- GRANT: UPMODE in [1:0], UPSTEP in [9:2]. -/
def opGrant (w : Writer) (seq : Nat) (h x : Word) : List Host.Cell → Dev → Nat × List Host.Cell × Dev :=
  aimed w seq h { tileScope := false, form := fld x 31 10 != 0, op := 0x3A
                  kind := .regw (0x80 * hCl h + 0x14) (word [(fld x 9 2, 8), (fld x 1 0, 0)]) }

/-- TRIG (R134): one tile, or every tile. DEDUCED (log 31): a TRIG of every tile goes to those that are present, reached and not in reset. -/
def opTrig (w : Writer) (seq : Nat) (h x : Word) (m : List Host.Cell) (d : Dev) : Nat × List Host.Cell × Dev :=
  let all := match w with | .rafter _ => false | _ => hTile h == 0x7F && hT h
  if all then
    if x ≠ 0 ∨ !handleOk w true h then (1, m, d)
    else (0, m, (d.tilesOn.filter fun t => !d.lostT t && !((shadowView d t).d.tl t).rst).foldl (fun d t =>
      launch { src := w, tile := t, cluster := 0, op := 0x39, seq := seq, kind := .trig } d) d)
  else aimed w seq h { tileScope := true, form := x != 0, op := 0x39, kind := .trig } m d

/-! ### QRY (R292, Table 10-11) -/

/-- The scope of a kind: 0 cluster, 1 tile, 2 device; none for a kind that is reserved. -/
def qryScope (kind : Nat) : Option Nat :=
  if kind ≤ 0x0B then some 0 else if 0x20 ≤ kind ∧ kind ≤ 0x22 then some 1 else if 0x40 ≤ kind ∧ kind ≤ 0x44 then some 2 else none

/-- The value of a cluster kind. -/
def qryCluster (v : View) (t c kind : Nat) : Word :=
  let k := v.d.cl t c
  match kind with
  | 0x00 => nw k.seq.whole
  | 0x01 => nw k.seq.atarget
  | 0x02 => clpsWord k.seq
  | 0x03 => iw k.fus.icl
  | 0x04 => iw k.bud.pm
  | 0x05 => iw k.bud.pe
  | 0x06 => iw k.thm.eff
  | 0x07 => fusClst k
  | 0x08 => k.cellst
  | 0x09 => clladWord v.d.bud k
  | 0x0A => nw (nextIn' v.d t c)
  | _ => loopClst v.d.clk.now (v.d.tl t) c k

/-- The value of a tile kind. -/
def qryTile (v : View) (t kind : Nat) : Word :=
  let x := v.d.tl t
  match kind with
  | 0x20 => nw (shown 32 x.power 1000)
  | 0x21 => escTrust x
  | _ => loopStat v.d x

/-- The value of a device kind. -/
def qryDevice (d : Dev) (kind : Nat) : Word :=
  match kind with
  | 0x40 => nw (shown 32 d.bud.pdev 1000)
  | 0x41 => lnkAlloc d.lnk
  | 0x42 => nw d.bud.devcap
  | 0x43 => thmStat d
  | _ => rdgFloor d.flt

/-- QRY: status and value. -/
def opQry (w : Writer) (h x : Word) (m : List Host.Cell) (d : Dev) : Nat × Word :=
  let kind := fld x 7 0
  let t := tileOf w (hTile h)
  let v := viewFor w m t d
  let far := match w with | .rafter _ => false | _ => true
  let dev := far && hT h && hTile h == 0x7F
  let absent := !dev && (!v.d.answersT t || (!hT h && !v.d.live t (hCl h)))
  let scope := if dev then 2 else if hT h then 1 else 0
  let st := firstFail [(fld x 31 8 != 0 || !handleOk w true h, 1), (absent, 3), (qryScope kind != some scope, 1)]
  (st, if st ≠ 0 then 0 else if scope = 2 then qryDevice d kind else if scope = 1 then qryTile v t kind else qryCluster v t (hCl h) kind)

end Sys2Proof.Machine
end

