-- ==== Sys2Proof/Machine/Host.lean ====
section
/-!
DEFINITION. Sys2Proof/Machine/Host.lean: the host port's requests and the command unit with its register block and its ring (R304 to R317).
-/
namespace Sys2Proof.Machine

/-! ### Reads by the host, the test port and the Ridge -/

/-- R304, R365: a read request and its response. -/
def portRead (r : Reader) (a : Nat) (m : List Host.Cell) (d : Dev) : Word × Dev :=
  let x := readHost r true m (hostAddr a) d
  (x.1, respond (readerWriter r) (some x.1) 0 x.2)

/-- HOST_WRITE (R308). -/
def execHostWrite (addr be : Nat) (v : Word) (s : State) : Host.Outcome State Fault Refusal :=
  let r := portWrite .host be addr v s.mem s.dev
  finM s r.2.1 r.2.2

/-- SHSTAMP_READ (R306): a read of a tile's RFT_SHSTAMP. -/
def execShstampRead (rdr : Reader) (t : Nat) (s : State) : Host.Outcome State Fault Refusal :=
  fin s (portRead rdr (tileAddr t 0xFF0) s.mem s.dev).2

/-- RC_READ (R15, R307): a read of a register with RC fields. -/
def execRcRead (rdr : Reader) (addr : Nat) (s : State) : Host.Outcome State Fault Refusal := fin s (portRead rdr addr s.mem s.dev).2

/-- WIDE_READ (R17): a read of a word of a wide value. -/
def execWideRead (rdr : Reader) (addr : Nat) (s : State) : Host.Outcome State Fault Refusal := fin s (portRead rdr addr s.mem s.dev).2

/-- HLREF_READ (R309): a read of RDG_HLREF. -/
def execHlrefRead (rdr : Reader) (s : State) : Host.Outcome State Fault Refusal := fin s (portRead rdr 0x14 s.mem s.dev).2

/-! ### Commands (R311 to R317) -/

/-- The outcome of one hardware command: status, result, memory, block. -/
abbrev Done := Nat × Option Word × List Host.Cell × Dev

/-- A command that ends with a status and changes nothing. -/
def ends (st : Nat) (m : List Host.Cell) (d : Dev) : Done := (st, none, m, d)

/-- R313: the fields of Table 11-3 that are marked 0: W0 [30:24], STATUS, and W1, W2, W3 where they are. -/
def zeros (w : List Word) (w1 w2 w3 : Bool) : Bool :=
  fld (w.getD 0 0) 30 24 == 0 && fld (w.getD 0 0) 23 16 == 0 && (!w1 || w.getD 1 0 == 0) && (!w2 || w.getD 2 0 == 0) && (!w3 || w.getD 3 0 == 0)

/-- R313: a device operation as a command. -/
def asOp (w : List Word) (w2 w3 : Bool) (f : List Host.Cell → Dev → Nat × List Host.Cell × Dev) (m : List Host.Cell) (d : Dev) : Done :=
  if !zeros w false w2 w3 then ends 1 m d
  else
    let r := f m d
    (r.1, none, r.2.1, r.2.2)

/-- WRITE: an address and a value (R308). -/
def cmdWriteOp (w : List Word) (m : List Host.Cell) (d : Dev) : Done :=
  let a := (w.getD 2 0).toNat
  if !zeros w true false false || 0x70000 ≤ a || (0x1000 ≤ a && a < 0x2000) then ends 1 m d
  else
    let r := hostWrite .host 15 a (fld (w.getD 0 0) 15 8) (w.getD 3 0) m d
    (r.1, none, r.2.1, r.2.2)

/-- READ: never from a latched mirror (R304, R306). DESIGN CHOICE (log 9): of a wide value it uses and renews the words latched for the host port (R17). -/
def cmdReadOp (w : List Word) (m : List Host.Cell) (d : Dev) : Done :=
  let a := (w.getD 2 0).toNat
  if !zeros w true false true || 2 ^ 20 ≤ a then ends 1 m d
  else if a % 4 ≠ 0 then (0, some 0, m, d)
  else
    let r := readHost .host false m a d
    (0, some r.1, m, r.2)

/-- QRY as the Ridge issues it. -/
def cmdQryOp (w : List Word) (m : List Host.Cell) (d : Dev) : Done :=
  if !zeros w false false true then ends 1 m d
  else
    let r := opQry .host (w.getD 1 0) (w.getD 2 0) m d
    (r.1, if r.1 = 0 then some r.2 else none, m, d)

/-- A hardware command that completes at once, by opcode (Table 11-3). -/
def hardware (w : List Word) (m : List Host.Cell) (d : Dev) : Done :=
  let seq := fld (w.getD 0 0) 15 8
  let h := w.getD 1 0
  let a := w.getD 2 0
  match fld (w.getD 0 0) 7 0 with
  | 0x00 => ends (if zeros w true true true then 0 else 1) m d
  | 0x01 => asOp w false false (opSetp .host seq h a (w.getD 3 0)) m d
  | 0x02 => asOp w false true (opPstate .host seq h a) m d
  | 0x03 => asOp w false true (opCapset .host seq h a) m d
  | 0x04 => asOp w false true (opFmaxw .host seq h a) m d
  | 0x05 => asOp w false true (opTblsel .host seq h a) m d
  | 0x06 => cmdQryOp w m d
  | 0x07 => asOp w true true (opTrig .host seq h 0) m d
  | 0x08 => asOp w false true (opGrant .host seq h a) m d
  | 0x10 => cmdWriteOp w m d
  | 0x11 => cmdReadOp w m d
  | _ => ends 9 m d

/-- The command unit takes a command, from the register block or the ring (R312 to R317). -/
def runCommand (w : List Word) (ring : Bool) (m : List Host.Cell) (d : Dev) : List Host.Cell × Dev :=
  let op := fld (w.getD 0 0) 7 0
  if op = 0x12 then
    (m, if zeros w true true true then { d with hp := { d.hp with unit := some (w, ring, .fence d.issued) } } else unitDone w ring 1 none d)
  else if op = 0x13 then
    (m, if !zeros w true false true || 1000000 < (w.getD 2 0 - nw d.clk.tick).toInt then unitDone w ring 1 none d
        else { d with hp := { d.hp with unit := some (w, ring, .waitt (w.getD 2 0)) } })
  else if 0x40 ≤ op ∧ op ≤ 0x7F then
    (m, if d.ridge.isHalted then unitDone w ring 2 none d
        else { d with hp := { d.hp with unit := some (w, ring, .program), pcmd := w, held := true, heldAt := d.clk.now } })
  else
    let r := hardware w m d
    (r.2.2.1, unitDone w ring r.1 r.2.1 r.2.2.2)

/-- The words of the command register block. -/
def HostDev.block (h : HostDev) : List Word := [h.exec, h.handle, h.arg0, h.arg1]

/-- R314, R316: the register block's command, where one is ready, the unit is free and its opcode is one that the command of the model names. -/
def blockCommand (p : Nat → Bool) (s : State) : Host.Outcome State Fault Refusal :=
  let h := s.dev.hp
  if h.ready && h.unit.isNone && p (fld h.exec 7 0) then
    let r := runCommand h.block false s.mem { s.dev with hp := { h with ready := false } }
    finM s r.1 r.2
  else fin s s.dev

/-- NOP. -/
def execNop (s : State) : Host.Outcome State Fault Refusal := blockCommand (· == 0x00) s
/-- SETP as a command. -/
def execCmdSetp (s : State) : Host.Outcome State Fault Refusal := blockCommand (· == 0x01) s
/-- PSTATE as a command. -/
def execCmdPstate (s : State) : Host.Outcome State Fault Refusal := blockCommand (· == 0x02) s
/-- CAPSET as a command. -/
def execCmdCapset (s : State) : Host.Outcome State Fault Refusal := blockCommand (· == 0x03) s
/-- FMAXW as a command. -/
def execCmdFmaxw (s : State) : Host.Outcome State Fault Refusal := blockCommand (· == 0x04) s
/-- TBLSEL as a command. -/
def execCmdTblsel (s : State) : Host.Outcome State Fault Refusal := blockCommand (· == 0x05) s
/-- QRY as a command. -/
def execCmdQry (s : State) : Host.Outcome State Fault Refusal := blockCommand (· == 0x06) s
/-- TRIG as a command. -/
def execCmdTrig (s : State) : Host.Outcome State Fault Refusal := blockCommand (· == 0x07) s
/-- GRANT as a command. -/
def execCmdGrant (s : State) : Host.Outcome State Fault Refusal := blockCommand (· == 0x08) s
/-- WRITE. -/
def execWrite (s : State) : Host.Outcome State Fault Refusal := blockCommand (· == 0x10) s
/-- READ. -/
def execRead (s : State) : Host.Outcome State Fault Refusal := blockCommand (· == 0x11) s
/-- FENCE: it holds the unit until FENCE_COMPLETE. -/
def execFence (s : State) : Host.Outcome State Fault Refusal := blockCommand (· == 0x12) s
/-- WAITT: it holds the unit until WAITT_COMPLETE. -/
def execWaitt (s : State) : Host.Outcome State Fault Refusal := blockCommand (· == 0x13) s
/-- PING (R317). -/
def execPing (s : State) : Host.Outcome State Fault Refusal := blockCommand (· == 0x40) s
/-- The other program commands, 0x41 to 0x7F (R317). -/
def execUserCommand (s : State) : Host.Outcome State Fault Refusal := blockCommand (fun op => 0x41 ≤ op && op ≤ 0x7F) s

/-- The opcodes that Table 11-3 lists. -/
def opcodeListed (op : Nat) : Bool := op ≤ 0x08 || (0x10 ≤ op && op ≤ 0x13) || (0x40 ≤ op && op ≤ 0x7F)

/-- An opcode that Table 11-3 does not list: UNKNOWN (R312). -/
def execUnknownOpcode (s : State) : Host.Outcome State Fault Refusal := blockCommand (fun op => !opcodeListed op) s

/-- R312: what the host has issued before a FENCE has arrived, and its refusals have returned. DEDUCED (log 32): the count that FENCE answers takes in
the refusals of everything before it, which return in the order of issue (R295). -/
def Dev.fenceOk (d : Dev) (left : Nat) : Bool :=
  d.air.all (fun f => !(f.src == .host && f.no < left)) && d.back.all fun b => b.1 != .host

/-- FENCE_COMPLETE (R312). -/
def fenceComplete (d : Dev) : Dev :=
  match d.hp.unit with
  | some (w, ring, .fence left) =>
    d.on (d.fenceOk left) fun d => unitDone w ring 0 (some (nw d.hp.fenced)) { d with hp := { d.hp with fenced := 0 } }
  | _ => d
def execFenceComplete (s : State) : Host.Outcome State Fault Refusal := fin s (fenceComplete s.dev)

/-- WAITT_COMPLETE (R312): a tick boundary at which signed(TICK − ARG0) is not negative. -/
def waittComplete (d : Dev) : Dev :=
  match d.hp.unit with
  | some (w, ring, .waitt a) => d.on (0 ≤ (nw d.clk.tick - a).toInt) (unitDone w ring 0 (some (nw d.clk.tick)))
  | _ => d
def execWaittComplete (s : State) : Host.Outcome State Fault Refusal := fin s (waittComplete s.dev)

/-- PROGRAM_COMMAND_DONE (R317, R323): the Ridge program writes CMD_PDONE. The resident program answers PING with result 0 and OK, and every other command
with UNKNOWN. -/
def programAnswer (v : Word) (d : Dev) : Dev :=
  if !d.hp.held then d
  else if d.ridge.loaded then (devWrite .ridge 0x1054 v d).2
  else
    let ping := fld (d.hp.pcmd.getD 0 0) 7 0 = 0x40
    (devWrite .ridge 0x1054 (if ping then 0 else 9) { d with hp := { d.hp with pres := 0 } }).2
def execProgramCommandDone (v : Word) (s : State) : Host.Outcome State Fault Refusal := fin s (programAnswer v s.dev)

/-- PROGRAM_COMMAND_TIMEOUT (R317): CMD_CFG.PTO ms have passed. -/
def execProgramCommandTimeout (s : State) : Host.Outcome State Fault Refusal :=
  fin s (s.dev.on (s.dev.hp.held && s.dev.hp.heldAt + 1000000 * s.dev.hp.pto ≤ s.dev.clk.now) (programDone 4 none))

/-- COMMAND_RING_FETCH (R315, R316): the entry at HEAD is fetched and executed; one with OWN 0 stops the ring. -/
def ringFetch (w : List Word) (m : List Host.Cell) (d : Dev) : List Host.Cell × Dev :=
  let h := d.hp
  if !h.ren || h.rhalted || h.unit.isSome || h.rhead = h.rtail then (m, d)
  else if !tst (w.getD 0 0) 31 then
    (m, halt 0 0 0 0 (h.rbasel.toNat + 2 ^ 32 * h.rbaseh.toNat + 16 * h.rhead) false false 1 { d with hp := { h with rhalted := true } })
  else runCommand w true m d
def execCommandRingFetch (w0 w1 w2 w3 : Word) (s : State) : Host.Outcome State Fault Refusal :=
  let r := ringFetch [w0, w1, w2, w3] s.mem s.dev
  finM s r.1 r.2

end Sys2Proof.Machine
end

