-- ==== Sys2Proof/Machine/Writes.lean ====
section
/-!
DEFINITION. Sys2Proof/Machine/Writes.lean: the commands that are one write of one register by a writer. Each gives the address and the word that the
writer drives; Machine/RegWrite.lean says what the write checks and does. A word that shares a register with other RW fields carries their present values.
-/
namespace Sys2Proof.Machine

/-- A write of a register at a host address. -/
def regWrite (w : Writer) (a : Nat) (v : Word) (s : State) : Host.Outcome State Fault Refusal :=
  let r := writeAs w a v s.mem s.dev
  finM s r.2.1 r.2.2

/-- A write in the window of a tile position; a position that the host map does not hold takes none. -/
def tileWrite (w : Writer) (t off : Nat) (v : Word) (s : State) : Host.Outcome State Fault Refusal :=
  if t < 96 then regWrite w (tileAddr t off) v s else fin s s.dev

/-- A write in the block of a cluster. -/
def clWrite (w : Writer) (t c off : Nat) (v : Word) (s : State) : Host.Outcome State Fault Refusal :=
  if c < 18 then tileWrite w t (0x80 * c + off) v s else fin s s.dev

/-- A write in the block of a DMA channel. -/
def chanWrite (w : Writer) (n off : Nat) (v : Word) (s : State) : Host.Outcome State Fault Refusal :=
  if n < 8 then regWrite w (0x8100 + 0x40 * n + off) v s else fin s s.dev

/-- DMA_CHCTLn with EN as it stands. -/
def chctlWord (d : Dev) (n : Nat) (bit : Nat) : Word := setBit (nw (b2n (d.ch n).en)) bit

/-- RDG_PCTL with RSEL, FSEL and RHALT as they stand. -/
def pctlKeep (d : Dev) : Word := word [(b2n d.hp.fsel, 11), (b2n d.hp.rsel, 1), (b2n d.ridge.halted, 0)]

/-- RETURN (R110): LOOP_CLCMD.RETURN. -/
def execReturnCluster (w : Writer) (t c : Nat) (s : State) : Host.Outcome State Fault Refusal := clWrite w t c 0x68 1 s
/-- HALT (R108): LOOP_CTRL.HALT. -/
def execHalt (w : Writer) (t : Nat) (on : Bool) (s : State) : Host.Outcome State Fault Refusal :=
  tileWrite w t 0x900 (put (s.dev.tl t).rem.ctrl 31 31 (b2n on)) s
/-- DUAL (R96): LOOP_CTRL.DUAL. -/
def execDual (w : Writer) (t : Nat) (on : Bool) (s : State) : Host.Outcome State Fault Refusal :=
  tileWrite w t 0x900 (put (s.dev.tl t).rem.ctrl 0 0 (b2n on)) s
/-- START (R192, R194): SEQ_CTL.START. -/
def execStart (w : Writer) (s : State) : Host.Outcome State Fault Refusal := regWrite w 0x6000 1 s
/-- STOP (R193, R194): SEQ_CTL.STOP. -/
def execStop (w : Writer) (s : State) : Host.Outcome State Fault Refusal := regWrite w 0x6000 2 s
/-- SEQ_CLSP_WRITE (R166, R178). -/
def execSeqClspWrite (w : Writer) (t c : Nat) (v : Word) (s : State) : Host.Outcome State Fault Refusal := clWrite w t c 0x00 v s
/-- SEQ_CLLIM_WRITE (R169). -/
def execSeqCllimWrite (w : Writer) (t c : Nat) (v : Word) (s : State) : Host.Outcome State Fault Refusal := clWrite w t c 0x04 v s
/-- SEQ_CLPS_WRITE (R189). -/
def execSeqClpsWrite (w : Writer) (t c : Nat) (v : Word) (s : State) : Host.Outcome State Fault Refusal := clWrite w t c 0x0C v s
/-- SEQ_CLGR_WRITE (R174, R178). -/
def execSeqClgrWrite (w : Writer) (t c : Nat) (v : Word) (s : State) : Host.Outcome State Fault Refusal := clWrite w t c 0x14 v s
/-- CPM_CLEAR (R196): RFT_CPMCTL.CLR. -/
def execCpmClear (w : Writer) (t clr : Nat) (s : State) : Host.Outcome State Fault Refusal :=
  tileWrite w t 0xFB0 (word [((s.dev.tl t).cpmGuard, 16), (clr % 1024, 0)]) s
/-- CAP_WRITE (R206): BUD_CLCAP of a cluster, or BUD_TCAP. -/
def execCapWrite (w : Writer) (t : Nat) (c : Option Nat) (v : Word) (s : State) : Host.Outcome State Fault Refusal :=
  match c with | some c => clWrite w t c 0x18 v s | none => tileWrite w t 0xC08 v s
/-- DEVLIM_WRITE (R206). -/
def execDevlimWrite (w : Writer) (v : Word) (s : State) : Host.Outcome State Fault Refusal := regWrite w 0x200C v s
/-- LOCAL_WRITE (R221). -/
def execLocalWrite (w : Writer) (v : Word) (s : State) : Host.Outcome State Fault Refusal := regWrite w 0x2010 v s
/-- GROUP_BUDGET_WRITE (R206). -/
def execGroupBudgetWrite (w : Writer) (g : Nat) (v : Word) (s : State) : Host.Outcome State Fault Refusal :=
  if g < 64 then regWrite w (0x2100 + 4 * g) v s else fin s s.dev
/-- ALERT_RELEASE (R225): BUD_ALERT.RELEASE. -/
def execAlertRelease (w : Writer) (s : State) : Host.Outcome State Fault Refusal := regWrite w 0x202C 1 s
/-- RETRAIN (R216): LNK_CTRL.RETRAIN. -/
def execRetrain (w : Writer) (s : State) : Host.Outcome State Fault Refusal := regWrite w 0x5000 (put s.dev.lnk.ctrl 1 1 1) s
/-- FORGET (R222): LNK_CTRL.FORGET of a position. -/
def execForget (w : Writer) (pos : Nat) (s : State) : Host.Outcome State Fault Refusal :=
  regWrite w 0x5000 (word [(pos % 64, 8), (1, 2), (fld s.dev.lnk.ctrl 0 0, 0)]) s
/-- THM_RELEASE (R240): THM_CLCMD.RELEASE. -/
def execThmRelease (w : Writer) (t c : Nat) (s : State) : Host.Outcome State Fault Refusal := clWrite w t c 0x2C 2 s
/-- THM_RESTORE (R240): THM_CLCMD.RESTORE. -/
def execThmRestore (w : Writer) (t c : Nat) (s : State) : Host.Outcome State Fault Refusal := clWrite w t c 0x2C 1 s
/-- FAULT_ACK (R249): RDG_FPENDn. -/
def execFaultAck (w : Writer) (n : Nat) (v : Word) (s : State) : Host.Outcome State Fault Refusal :=
  if 1 ≤ n ∧ n ≤ 11 then regWrite w (0x4000 + 0x100 * n) v s else fin s s.dev
/-- SAFE_ENTER (R247): RDG_SAFE.ENTER. -/
def execSafeEnter (w : Writer) (s : State) : Host.Outcome State Fault Refusal := regWrite w 0x4004 2 s
/-- SAFE_RELEASE (R247): RDG_SAFE.RELEASE. -/
def execSafeRelease (w : Writer) (s : State) : Host.Outcome State Fault Refusal := regWrite w 0x4004 1 s
/-- RHALT (R322): RDG_PCTL.RHALT. -/
def execRhalt (w : Writer) (on : Bool) (s : State) : Host.Outcome State Fault Refusal := regWrite w 0x08 (put (pctlKeep s.dev) 0 0 (b2n on)) s
/-- RSTART (R322): RDG_PCTL.RSTART. -/
def execRstart (w : Writer) (s : State) : Host.Outcome State Fault Refusal := regWrite w 0x08 (setBit (put (pctlKeep s.dev) 0 0 0) 2) s
/-- FSTARTALL (R322). -/
def execFstartall (w : Writer) (s : State) : Host.Outcome State Fault Refusal := regWrite w 0x08 (setBit (pctlKeep s.dev) 10) s
/-- FHALTALL (R322). -/
def execFhaltall (w : Writer) (s : State) : Host.Outcome State Fault Refusal := regWrite w 0x08 (setBit (pctlKeep s.dev) 8) s
/-- FRELALL (R322). -/
def execFrelall (w : Writer) (s : State) : Host.Outcome State Fault Refusal := regWrite w 0x08 (setBit (pctlKeep s.dev) 9) s
/-- RAFTER_HALT (R322): RFT_CTL.HALT. -/
def execRafterHalt (w : Writer) (t : Nat) (on : Bool) (s : State) : Host.Outcome State Fault Refusal := tileWrite w t 0xFE0 (nw (b2n on)) s
/-- RAFTER_START (R322): RFT_CTL.START. -/
def execRafterStart (w : Writer) (t : Nat) (s : State) : Host.Outcome State Fault Refusal := tileWrite w t 0xFE0 2 s
/-- FUS_COMMIT (R114, R116): FUS_CMD COMMIT of a slot. -/
def execFusCommit (w : Writer) (t slot : Nat) (s : State) : Host.Outcome State Fault Refusal := tileWrite w t 0xA08 (word [(1, 8), (slot % 32, 0)]) s
/-- FUS_INVALIDATE (R114, R116): FUS_CMD INVALIDATE of a slot. -/
def execFusInvalidate (w : Writer) (t slot : Nat) (s : State) : Host.Outcome State Fault Refusal :=
  tileWrite w t 0xA08 (word [(2, 8), (slot % 32, 0)]) s
/-- FUS_MAPW (R115, R116). -/
def execFusMapw (w : Writer) (t : Nat) (v : Word) (s : State) : Host.Outcome State Fault Refusal := tileWrite w t 0xA0C v s
/-- RUN (R116): FUS_CTRL.RUN. -/
def execRun (w : Writer) (t : Nat) (on : Bool) (s : State) : Host.Outcome State Fault Refusal := tileWrite w t 0xA00 (nw (b2n on)) s
/-- FUS_CLCTL_WRITE (R123). -/
def execFusClctlWrite (w : Writer) (t c : Nat) (v : Word) (s : State) : Host.Outcome State Fault Refusal := clWrite w t c 0x74 v s
/-- ARM_TRACE (R135): TRC_CTL.ARM. -/
def execArmTrace (w : Writer) (t : Nat) (s : State) : Host.Outcome State Fault Refusal := tileWrite w t 0xA58 1 s
/-- STOP_TRACE (R135): TRC_CTL.STOP. -/
def execStopTrace (w : Writer) (t : Nat) (s : State) : Host.Outcome State Fault Refusal := tileWrite w t 0xA58 4 s
/-- FORCE_TRACE (R134): TRC_CTL.FORCE. -/
def execForceTrace (w : Writer) (t : Nat) (s : State) : Host.Outcome State Fault Refusal := tileWrite w t 0xA58 2 s
/-- ARMALL (R135): TRC_GCTL.ARMALL. -/
def execArmall (w : Writer) (s : State) : Host.Outcome State Fault Refusal := regWrite w 0xC000 1 s
/-- FORCEALL (R134): TRC_GCTL.FORCEALL. -/
def execForceall (w : Writer) (s : State) : Host.Outcome State Fault Refusal := regWrite w 0xC000 2 s
/-- DMA_ENABLE (R327): DMA_CHCTLn.EN. -/
def execDmaEnable (w : Writer) (n : Nat) (on : Bool) (s : State) : Host.Outcome State Fault Refusal := chanWrite w n 0x00 (nw (b2n on)) s
/-- DMA_TAIL_WRITE (R327). -/
def execDmaTailWrite (w : Writer) (n : Nat) (v : Word) (s : State) : Host.Outcome State Fault Refusal := chanWrite w n 0x10 v s
/-- ABORT (R337): DMA_CHCTLn.ABORT. -/
def execAbort (w : Writer) (n : Nat) (s : State) : Host.Outcome State Fault Refusal := chanWrite w n 0x00 (chctlWord s.dev n 1) s
/-- RESUME (R340): DMA_CHCTLn.RESUME. -/
def execResume (w : Writer) (n : Nat) (s : State) : Host.Outcome State Fault Refusal := chanWrite w n 0x00 (chctlWord s.dev n 2) s
/-- SKIP (R340): DMA_CHCTLn.SKIP. -/
def execSkip (w : Writer) (n : Nat) (s : State) : Host.Outcome State Fault Refusal := chanWrite w n 0x00 (chctlWord s.dev n 3) s
/-- COMMAND_RING_ENABLE (R315): CMD_RCTL.EN. -/
def execCommandRingEnable (w : Writer) (on : Bool) (s : State) : Host.Outcome State Fault Refusal :=
  regWrite w 0x1020 (word [(s.dev.hp.log2n, 8), (b2n on, 0)]) s
/-- NV_FETCH (R375): RDG_NVADDR. -/
def execNvFetch (w : Writer) (v : Word) (s : State) : Host.Outcome State Fault Refusal := regWrite w 0x78 v s
/-- FLUSH (R350): LOG_CMD.FLUSH. -/
def execFlush (w : Writer) (s : State) : Host.Outcome State Fault Refusal := regWrite w 0xA000 1 s
/-- FREEZE (R358): LOG_CMD.FREEZE. -/
def execFreeze (w : Writer) (s : State) : Host.Outcome State Fault Refusal := regWrite w 0xA000 2 s
/-- THAW (R358): LOG_CMD.THAW. -/
def execThaw (w : Writer) (s : State) : Host.Outcome State Fault Refusal := regWrite w 0xA000 4 s
/-- NONCE (R359): LOG_CMD.NONCE. -/
def execNonce (w : Writer) (s : State) : Host.Outcome State Fault Refusal := regWrite w 0xA000 8 s
/-- CLEAR (R360, R361): LOG_CMD.CLEAR. -/
def execClear (w : Writer) (s : State) : Host.Outcome State Fault Refusal := regWrite w 0xA000 16 s
/-- AVS_SET (R371): RDG_AVSSET. -/
def execAvsSet (w : Writer) (v : Word) (s : State) : Host.Outcome State Fault Refusal := regWrite w 0x60 v s
/-- PURLIN_RETRY (R400): PUR_STAT.RETRY. -/
def execPurlinRetry (w : Writer) (t : Nat) (s : State) : Host.Outcome State Fault Refusal := tileWrite w t 0xF80 (nw 0x00100000) s

end Sys2Proof.Machine
end

