-- ==== Sys2Proof/Machine/Flags.lean ====
section
/-!
DEFINITION. Sys2Proof/Machine/Flags.lean: the flags of a core, as the integer instructions set them, as one word, and the status that statused
instructions leave (R273, R275 to R277, R281, R283).
-/
namespace Sys2Proof.Machine

/-- R277: Z and N from a result, C and V cleared. -/
def Core.zn (x : Core) (r : Word) : Core := { x with z := r == 0, n := r.msb, c := false, v := false }

/-- R277: Z and N from a result, with the carry and the overflow found. -/
def Core.zncv (x : Core) (r : Word) (c v : Bool) : Core := { x.zn r with c := c, v := v }

/-- R277: the carry out of bit 31 of a sum. -/
def carryOut (a b : Word) : Bool := 2 ^ 32 ≤ a.toNat + b.toNat

/-- R277: no borrow occurs. -/
def noBorrow (a b : Word) : Bool := b.toNat ≤ a.toNat

/-- R277: an exact result lies outside the signed 32-bit range. -/
def overflow (x : Int) : Bool := x < -(2 ^ 31) || 2 ^ 31 - 1 < x

/-- Table 10-12: FLAGS: E in [4], V, C, N, Z in [0]. -/
def Core.flagBits (x : Core) : Nat := b2n x.z + 2 * b2n x.n + 4 * b2n x.c + 8 * b2n x.v + 16 * b2n x.e

/-- The flags from FLAGS or EFLAGS. -/
def Core.setFlags (x : Core) (w : Word) : Core := { x with z := tst w 0, n := tst w 1, c := tst w 2, v := tst w 3, e := tst w 4 }

/-- R276: what a statused instruction of op `op` leaves with status `st`. -/
def Core.status (x : Core) (op st : Nat) : Core :=
  { x with e := st != 0, errOp := op, errStatus := st, fails := if st = 0 then x.fails else incSat 0xFFFF x.fails }

/-- R281: EFLAGS at an event entry. -/
def Core.packEflags (x : Core) : Word := word [(x.errOp, 16), (x.errStatus, 8), (x.flagBits, 0)]

/-- Table 10-7: a branch condition; none for the reserved one. -/
def Core.cond (x : Core) (cc : Nat) : Option Bool :=
  match cc with
  | 0 => some true
  | 1 => some x.z
  | 2 => some !x.z
  | 3 => some (x.n != x.v)
  | 4 => some (x.n == x.v)
  | 5 => some (!x.z && x.n == x.v)
  | 6 => some (x.z || x.n != x.v)
  | 7 => some !x.c
  | 8 => some x.c
  | 9 => some x.n
  | 10 => some !x.n
  | 11 => some x.v
  | 12 => some !x.v
  | 13 => some x.e
  | 14 => some !x.e
  | _ => none

end Sys2Proof.Machine
end

