-- ==== Sys2Proof/Machine/Operands.lean ====
section
/-!
DEFINITION. Sys2Proof/Machine/Operands.lean: the operands of KX instructions: general registers, immediates, and loads and stores in a core's data address
space (R271 to R274, R277).
-/
namespace Sys2Proof.Machine

/-! ### Registers and immediates (R273, R274) -/

/-- R273: a general register; g0 reads 0. -/
def Core.rd (x : Core) (i : Nat) : Word := if i % 16 = 0 then 0 else x.g[i % 16]'(Nat.mod_lt _ (by decide))

/-- R273: a general register written; a write to g0 is discarded. -/
def Core.wr (x : Core) (i : Nat) (v : Word) : Core := if i % 16 = 0 then x else { x with g := x.g.set (i % 16) v (Nat.mod_lt _ (by decide)) }

/-- R274: immediates, sign- and zero-extended. -/
def sext18 (i : Nat) : Word := iw (sgn 18 i)
def sext14 (i : Nat) : Word := iw (sgn 14 i)
def zext18 (i : Nat) : Word := nw (i % 2 ^ 18)

/-- The next instruction, after `n` cycles (R279). -/
def Core.next (x : Core) (n : Nat) : Core := { x with pc := x.pc + 4, cycle := x.cycle + n }

/-- R281, R282: an instruction of the core may execute: the core runs, no WAIT waits, no event is to be entered first. -/
def Dev.ready (d : Dev) (k : CoreId) : Bool :=
  d.hasCore k && (d.core k).runs && (d.core k).waiting.isNone && (d.entryDue k).isNone

/-- An instruction on one core that changes that core alone; nothing where it may not execute. -/
def onReady (k : CoreId) (f : Core → Core) (s : State) : Host.Outcome State Fault Refusal :=
  fin s (s.dev.on (s.dev.ready k) fun d => d.onCore k f)

/-- A statused instruction that acts on the block: `f` answers its status, the block with what it does, and the core with its result. -/
def onStatus (k : CoreId) (op : Nat) (f : List Host.Cell → Dev → Nat × List Host.Cell × Dev) (s : State) : Host.Outcome State Fault Refusal :=
  if s.dev.ready k then
    let r := f s.mem s.dev
    finM s r.2.1 (r.2.2.onCore k fun x => (x.status op r.1).next 1)
  else fin s s.dev

/-! ### Data address spaces (R271, R272, Table 10-2) -/

/-- Where a data address lies. -/
inductive Place where
  | ram (a : Nat)
  | window (a : Nat)
  | store (o : Nat)
  | fmax (o : Nat)
  | nowhere
  deriving DecidableEq, Repr

/-- Table 10-2. -/
def placeOf (k : CoreId) (a : Nat) : Place :=
  match k with
  | .ridge => if a < 0x10000 then .ram (ridgeD + a) else if 0x100000 ≤ a ∧ a < 0x170000 then .window (a - 0x100000) else .nowhere
  | .rafter t =>
    if a < 0x4000 then .ram (dataBase (.rafter t) + a)
    else if 0x100000 ≤ a ∧ a < 0x101000 then .window (a - 0x100000)
    else if 0x200000 ≤ a ∧ a < 0x210000 then .store (a - 0x200000)
    else if 0x300000 ≤ a ∧ a < 0x30A800 then .fmax (a - 0x300000)
    else .nowhere

/-- R272, R15: a Rafter's read of its live tile window; RC fields return to 0. -/
def readLive (m : List Host.Cell) (t off : Nat) (d : Dev) : Word × Dev :=
  let w := windowWord (liveView m d t) t off
  (w, (rcFields off).foldl (fun d p => rcSub t off p.1 (fld w p.1 p.2) d) d)

/-- R271, R272, R277: the status of an access of `n` bytes at `a`. DEDUCED (log 33): an address that is both misaligned and outside the table completes
with ALIGN. -/
def accessStatus (k : CoreId) (a n : Nat) : Nat :=
  if a % n ≠ 0 then 6
  else match placeOf k a with
    | .window _ => if n = 4 then 0 else 6
    | .nowhere => 1
    | _ => 0

/-- A load of `n` bytes: status, value (zero-extended), block. -/
def loadAt (k : CoreId) (a n : Nat) (m : List Host.Cell) (d : Dev) : Nat × Word × Dev :=
  let st := accessStatus k a n
  if st ≠ 0 then (st, 0, d)
  else match placeOf k a with
    | .ram b => (0, nw (leNat (Mem.readL m b n)), d)
    | .window w =>
      match k with
      | .ridge =>
        let r := readHost .ridge true m w d
        (0, r.1, r.2)
      | .rafter t =>
        let r := readLive m t w d
        (0, r.1, r.2)
    | .store o => match k with | .rafter t => (0, nw (leNat (Mem.readL m (storeBase t + o) n)), d) | .ridge => (1, 0, d)
    | .fmax o => match k with | .rafter t => (0, nw (leNat (Mem.readL m (fmaxBase t + o) n)), d) | .ridge => (1, 0, d)
    | .nowhere => (1, 0, d)

/-- A store of `n` bytes: status, memory, block. -/
def storeAt (k : CoreId) (a n : Nat) (v : Word) (m : List Host.Cell) (d : Dev) : Nat × List Host.Cell × Dev :=
  let st := accessStatus k a n
  if st ≠ 0 then (st, m, d)
  else match placeOf k a with
    | .ram b => (0, Mem.writeL m b ((wordBytes v).take n), d)
    | .window w =>
      match k with
      | .ridge =>
        let r := ridgeWrite w v d
        (r.1, m, r.2)
      | .rafter t =>
        let r := writeLive m (.rafter t) t w v d
        (r.1, m, r.2)
    | .store o =>
      match k with
      | .rafter t =>
        let r := storeBytes t o ((wordBytes v).take n) m d
        (if r.2.2 then 2 else 0, r.1, r.2.1)
      | .ridge => (1, m, d)
    | .fmax _ => (2, m, d)
    | .nowhere => (1, m, d)

end Sys2Proof.Machine
end

