-- ==== Sys2Proof/Machine/KxInt.lean ====
section
/-!
DEFINITION. Sys2Proof/Machine/KxInt.lean: the integer, memory and control instructions of the program cores (R274 to R279, Tables 10-5 to 10-7).
-/
namespace Sys2Proof.Machine

/-! ### Integer instructions (Table 10-5) -/

/-- An instruction that writes a result into g[a] and sets Z and N from it. -/
def aluZn (k : CoreId) (a : Nat) (f : Core → Word) (s : State) : Host.Outcome State Fault Refusal :=
  onReady k (fun x => ((x.wr a (f x)).zn (f x)).next 1) s

/-- ADD and ADDI: a sum, its carry and its overflow. -/
def aluAdd (k : CoreId) (a : Nat) (p q : Core → Word) (s : State) : Host.Outcome State Fault Refusal :=
  onReady k (fun x =>
    let r := p x + q x
    ((x.wr a r).zncv r (carryOut (p x) (q x)) (overflow ((p x).toInt + (q x).toInt))).next 1) s

/-- ADD. -/
def execAdd (k : CoreId) (a b c : Nat) (s : State) : Host.Outcome State Fault Refusal := aluAdd k a (·.rd b) (·.rd c) s
/-- ADDI. -/
def execAddi (k : CoreId) (a b imm18 : Nat) (s : State) : Host.Outcome State Fault Refusal := aluAdd k a (·.rd b) (fun _ => sext18 imm18) s
/-- SUB; with a = 0 a compare. -/
def execSub (k : CoreId) (a b c : Nat) (s : State) : Host.Outcome State Fault Refusal :=
  onReady k (fun x =>
    let p := x.rd b
    let q := x.rd c
    ((x.wr a (p - q)).zncv (p - q) (noBorrow p q) (overflow (p.toInt - q.toInt))).next 1) s
/-- AND. -/
def execAnd (k : CoreId) (a b c : Nat) (s : State) : Host.Outcome State Fault Refusal := aluZn k a (fun x => x.rd b &&& x.rd c) s
/-- OR. -/
def execOr (k : CoreId) (a b c : Nat) (s : State) : Host.Outcome State Fault Refusal := aluZn k a (fun x => x.rd b ||| x.rd c) s
/-- XOR. -/
def execXor (k : CoreId) (a b c : Nat) (s : State) : Host.Outcome State Fault Refusal := aluZn k a (fun x => x.rd b ^^^ x.rd c) s
/-- ANDI. -/
def execAndi (k : CoreId) (a b imm18 : Nat) (s : State) : Host.Outcome State Fault Refusal := aluZn k a (fun x => x.rd b &&& zext18 imm18) s
/-- ORI. -/
def execOri (k : CoreId) (a b imm18 : Nat) (s : State) : Host.Outcome State Fault Refusal := aluZn k a (fun x => x.rd b ||| zext18 imm18) s
/-- XORI. -/
def execXori (k : CoreId) (a b imm18 : Nat) (s : State) : Host.Outcome State Fault Refusal := aluZn k a (fun x => x.rd b ^^^ zext18 imm18) s
/-- SHL: by g[c] [4:0]. -/
def execShl (k : CoreId) (a b c : Nat) (s : State) : Host.Outcome State Fault Refusal := aluZn k a (fun x => x.rd b <<< fld (x.rd c) 4 0) s
/-- SHR. -/
def execShr (k : CoreId) (a b c : Nat) (s : State) : Host.Outcome State Fault Refusal := aluZn k a (fun x => x.rd b >>> fld (x.rd c) 4 0) s
/-- SRA. -/
def execSra (k : CoreId) (a b c : Nat) (s : State) : Host.Outcome State Fault Refusal :=
  aluZn k a (fun x => (x.rd b).sshiftRight (fld (x.rd c) 4 0)) s
/-- SHLI. -/
def execShli (k : CoreId) (a b sh : Nat) (s : State) : Host.Outcome State Fault Refusal := aluZn k a (fun x => x.rd b <<< (sh % 32)) s
/-- SHRI. -/
def execShri (k : CoreId) (a b sh : Nat) (s : State) : Host.Outcome State Fault Refusal := aluZn k a (fun x => x.rd b >>> (sh % 32)) s
/-- SRAI. -/
def execSrai (k : CoreId) (a b sh : Nat) (s : State) : Host.Outcome State Fault Refusal :=
  aluZn k a (fun x => (x.rd b).sshiftRight (sh % 32)) s

/-- MUL: the low word of the signed product; V where the product does not fit. -/
def execMul (k : CoreId) (a b c : Nat) (s : State) : Host.Outcome State Fault Refusal :=
  onReady k (fun x =>
    let p := (x.rd b).toInt * (x.rd c).toInt
    ((x.wr a (iw p)).zncv (iw p) false (overflow p)).next 3) s

/-- MULQ: the signed product over 65536, rounded to nearest, ties to even, saturated to 32 bits; V where it saturated. -/
def execMulq (k : CoreId) (a b c : Nat) (s : State) : Host.Outcome State Fault Refusal :=
  onReady k (fun x =>
    let r := divHE ((x.rd b).toInt * (x.rd c).toInt) 65536
    ((x.wr a (iw (satS 32 r))).zncv (iw (satS 32 r)) false (overflow r)).next 4) s

/-- CLAMP: g[a] confined to [g[b], g[c]]; RANGE where these cross. -/
def execClamp (k : CoreId) (a b c : Nat) (s : State) : Host.Outcome State Fault Refusal :=
  onReady k (fun x =>
    let lo := (x.rd b).toInt
    let hi := (x.rd c).toInt
    if hi < lo then (x.status 0x0B 1).next 1
    else
      let r := iw (min (max (x.rd a).toInt lo) hi)
      (((x.wr a r).zncv r false (r != x.rd a)).status 0x0B 0).next 1) s

/-- LUI: imm18 × 2^14; no flags. -/
def execLui (k : CoreId) (a imm18 : Nat) (s : State) : Host.Outcome State Fault Refusal :=
  onReady k (fun x => (x.wr a (nw (imm18 % 2 ^ 18 * 2 ^ 14))).next 1) s

/-! ### Loads and stores (Table 10-5) -/

/-- A load: `n` bytes at g[b] + sext(imm18), made a word by `f`, into g[a]. -/
def load (k : CoreId) (op n : Nat) (f : Word → Word) (a b imm18 : Nat) (s : State) : Host.Outcome State Fault Refusal :=
  onStatus k op (fun m d =>
    let r := loadAt k ((d.core k).rd b + sext18 imm18).toNat n m d
    (r.1, m, r.2.2.on (r.1 == 0) fun d => d.onCore k fun x => x.wr a (f r.2.1))) s

/-- R322: an accepted store of `v` at `a` restarts the core itself: RDG_PCTL.RSTART by the Ridge, RFT_CTL.START by a Rafter. -/
def startsSelf (k : CoreId) (a : Nat) (v : Word) : Bool :=
  match k, placeOf k a with
  | .ridge, .window w => w == 0x08 && tst v 2
  | .rafter _, .window w => w == 0xFE0 && tst v 1
  | _, _ => false

/-- A store: `n` bytes of g[a] to g[b] + sext(imm18). R273: what the instruction leaves of status, PC and cycles is gone where it restarts its core. -/
def store (k : CoreId) (op n a b imm18 : Nat) (s : State) : Host.Outcome State Fault Refusal :=
  let x := s.dev.core k
  let ea := (x.rd b + sext18 imm18).toNat
  let r := storeAt k ea n (x.rd a) s.mem s.dev
  if s.dev.ready k && r.1 == 0 && startsSelf k ea (x.rd a) then finM s r.2.1 r.2.2 else onStatus k op (fun m d => storeAt k ea n (x.rd a) m d) s

/-- LDW. -/
def execLdw (k : CoreId) (a b imm18 : Nat) (s : State) : Host.Outcome State Fault Refusal := load k 0x18 4 id a b imm18 s
/-- LDH. -/
def execLdh (k : CoreId) (a b imm18 : Nat) (s : State) : Host.Outcome State Fault Refusal := load k 0x19 2 (fun w => iw (sgn 16 w.toNat)) a b imm18 s
/-- LDHU. -/
def execLdhu (k : CoreId) (a b imm18 : Nat) (s : State) : Host.Outcome State Fault Refusal := load k 0x1A 2 id a b imm18 s
/-- LDB. -/
def execLdb (k : CoreId) (a b imm18 : Nat) (s : State) : Host.Outcome State Fault Refusal := load k 0x1B 1 (fun w => iw (sgn 8 w.toNat)) a b imm18 s
/-- LDBU. -/
def execLdbu (k : CoreId) (a b imm18 : Nat) (s : State) : Host.Outcome State Fault Refusal := load k 0x1C 1 id a b imm18 s
/-- STW. -/
def execStw (k : CoreId) (a b imm18 : Nat) (s : State) : Host.Outcome State Fault Refusal := store k 0x1D 4 a b imm18 s
/-- STH. -/
def execSth (k : CoreId) (a b imm18 : Nat) (s : State) : Host.Outcome State Fault Refusal := store k 0x1E 2 a b imm18 s
/-- STB. -/
def execStb (k : CoreId) (a b imm18 : Nat) (s : State) : Host.Outcome State Fault Refusal := store k 0x1F 1 a b imm18 s

/-! ### Control transfer (R278, Table 10-6) -/

/-- B: the reserved condition is an undefined encoding. -/
def execBranch (k : CoreId) (cond imm18 : Nat) (s : State) : Host.Outcome State Fault Refusal :=
  onReady k (fun x => match x.cond cond with
    | none => (x.status 0x20 9).next 1
    | some true => { x with pc := x.pc + 4 * sext18 imm18, cycle := x.cycle + 1 }
    | some false => x.next 1) s

/-- JAL. -/
def execJal (k : CoreId) (a imm18 : Nat) (s : State) : Host.Outcome State Fault Refusal :=
  onReady k (fun x => { x.wr a (x.pc + 4) with pc := x.pc + 4 * sext18 imm18, cycle := x.cycle + 1 }) s

/-- JR: bits [1:0] of the target are ignored; the link register is written after the target is computed. -/
def execJr (k : CoreId) (a b imm14 : Nat) (s : State) : Host.Outcome State Fault Refusal :=
  onReady k (fun x => { x.wr a (x.pc + 4) with pc := (x.rd b + 4 * sext14 imm14) &&& 0xFFFFFFFC, cycle := x.cycle + 1 }) s

/-! ### Encodings (R270, R274) -/

/-- The op number of an instruction to which the manual gives none. -/
def opNo (i : OpenOp) : Nat := (Config.opNumber i).toNat

/-- Table 10-10: 2 to the number of the low bits of imm14 that a device operation names. -/
def devNamed (op : Nat) : Nat :=
  match op with
  | 0x30 => 2 ^ 6 | 0x31 => 2 ^ 4 | 0x34 => 2 ^ 8 | 0x35 => 2 ^ 8 | 0x36 => 2 ^ 14 | 0x37 => 2 ^ 12 | 0x38 => 2 ^ 4 | 0x3A => 2 ^ 10 | _ => 1

/-- R274, Tables 10-3, 10-5, 10-6 and 10-10, R282 to R285: the word is an undefined encoding: a reserved op, a field marked 0 that is not, or a reserved
condition. An imm14 field that Table 10-10 does not name for a device operation counts as marked 0 (log 35). -/
def undefinedWord (w : Word) : Bool :=
  let op := fld w 31 26
  let a := fld w 25 22
  let b := fld w 21 18
  let c := fld w 17 14
  let imm14 := fld w 13 0
  let is := fun i => op == opNo i
  if op = 0 then true
  else if 0x01 ≤ op ∧ op ≤ 0x0B then imm14 != 0
  else if (0x10 ≤ op ∧ op ≤ 0x13) ∨ (0x18 ≤ op ∧ op ≤ 0x1F) then false
  else if op = 0x14 ∨ op = 0x21 then b != 0
  else if 0x15 ≤ op ∧ op ≤ 0x17 then fld w 17 5 != 0
  else if op = 0x20 then b != 0 || a == 15
  else if op = 0x22 then c != 0
  else if op = 0x23 then fld w 25 0 != 0
  else if 0x30 ≤ op ∧ op ≤ 0x3A then imm14 / devNamed op != 0
  else if is .wait then fld w 13 1 != 0
  else if is .arm || is .disarm || is .raise then fld w 25 5 != 0
  else if is .mfs then fld w 21 14 != 0
  else if is .mts then a != 0 || c != 0
  else true

/-- R274, Tables 10-3, 10-5, 10-6 and 10-10, R282 to R285: the instruction that a word is, with its fields; none for an undefined encoding. -/
def decodeKx (k : CoreId) (w : Word) : Option Instr :=
  let a := fld w 25 22
  let b := fld w 21 18
  let c := fld w 17 14
  let i14 := fld w 13 0
  let i18 := fld w 17 0
  let is := fun i => fld w 31 26 == opNo i
  if undefinedWord w then none
  else match fld w 31 26 with
  | 0x01 => some (.add k a b c)
  | 0x02 => some (.sub k a b c)
  | 0x03 => some (.and k a b c)
  | 0x04 => some (.or k a b c)
  | 0x05 => some (.xor k a b c)
  | 0x06 => some (.shl k a b c)
  | 0x07 => some (.shr k a b c)
  | 0x08 => some (.sra k a b c)
  | 0x09 => some (.mul k a b c)
  | 0x0A => some (.mulq k a b c)
  | 0x0B => some (.clamp k a b c)
  | 0x10 => some (.addi k a b i18)
  | 0x11 => some (.andi k a b i18)
  | 0x12 => some (.ori k a b i18)
  | 0x13 => some (.xori k a b i18)
  | 0x14 => some (.lui k a i18)
  | 0x15 => some (.shli k a b i18)
  | 0x16 => some (.shri k a b i18)
  | 0x17 => some (.srai k a b i18)
  | 0x18 => some (.ldw k a b i18)
  | 0x19 => some (.ldh k a b i18)
  | 0x1A => some (.ldhu k a b i18)
  | 0x1B => some (.ldb k a b i18)
  | 0x1C => some (.ldbu k a b i18)
  | 0x1D => some (.stw k a b i18)
  | 0x1E => some (.sth k a b i18)
  | 0x1F => some (.stb k a b i18)
  | 0x20 => some (.branch k a i18)
  | 0x21 => some (.jal k a i18)
  | 0x22 => some (.jr k a b i14)
  | 0x23 => some (.rete k)
  | 0x30 => some (.setp k b c i14)
  | 0x31 => some (.pstate k b i14)
  | 0x32 => some (.capset k b c i14)
  | 0x33 => some (.fmaxw k b c i14)
  | 0x34 => some (.tblsel k b i14)
  | 0x35 => some (.qry k a b i14)
  | 0x36 => some (.post k b c i14)
  | 0x37 => some (.send k b c i14)
  | 0x38 => some (.recv k a b i14)
  | 0x39 => some (.trig k b i14)
  | 0x3A => some (.grant k b i14)
  | _ =>
    if is .wait then some (.wait k a b c (tst w 0))
    else if is .arm then some (.arm k (fld w 4 0))
    else if is .disarm then some (.disarm k (fld w 4 0))
    else if is .raise then some (.raise k (fld w 4 0))
    else if is .mfs then some (.mfs k a i14)
    else if is .mts then some (.mts k b i14)
    else none

/-- R270: the core fetches from its instruction RAM and its resident ROM. -/
def inCode (k : CoreId) (pc : Word) : Bool :=
  pc.toNat < instrSize k || (0x10000 ≤ pc.toNat && pc.toNat < 0x10000 + (match k with | .ridge => 0x8000 | .rafter _ => 0x4000))

/-- R270: the word that a fetch returns where `w` stands in instruction memory. -/
def fetched (k : CoreId) (pc w : Word) : Word := if inCode k pc then w else 0

end Sys2Proof.Machine
end

