-- ==== Sys2Proof/Machine/KxSys.lean ====
section
/-!
DEFINITION. Sys2Proof/Machine/KxSys.lean: events and their entry, WAIT, the special registers and the watchdog's instructions of the program cores (R280
to R287, R303).
-/
namespace Sys2Proof.Machine

/-! ### Events (R280 to R284) -/

/-- EVENT_ENTRY (R281): the lowest event that is pending and armed is entered; a WAIT that waits is left, its cycles counted (R282, log 84), and runs again
after RETE. -/
def enterEvent (k : CoreId) (d : Dev) : Dev :=
  match (d.core k).runs, d.entryDue k with
  | true, some n =>
    d.onCore k fun x =>
      { x with epc := x.pc, eflags := x.packEflags, cause := n, active := true, waiting := none, pc := x.evbase + nw (4 * n)
               cycle := x.cycle + 2 + (match x.waiting with | some w => d.clk.now - w.since | none => 0)
               evpend := if evLevel n then x.evpend else w1c x.evpend (nw (2 ^ n)) }
  | _, _ => d
def execEventEntry (k : CoreId) (s : State) : Host.Outcome State Fault Refusal := fin s (s.dev.on (s.dev.hasCore k) (enterEvent k))

/-- ARM and DISARM and RAISE of event `n`: an n of more than five bits is an undefined encoding, an absent event RANGE. -/
def onEvent (k : CoreId) (i : OpenOp) (n : Nat) (ok : Bool) (f : Core → Core) (s : State) : Host.Outcome State Fault Refusal :=
  onReady k (fun x =>
    let op := opNo i
    if 32 ≤ n then (x.status op 9).next 1 else if ok && evOn k n then ((f x).status op 0).next 1 else (x.status op 1).next 1) s

/-- ARM. -/
def execArm (k : CoreId) (n : Nat) (s : State) : Host.Outcome State Fault Refusal := onEvent k .arm n true (fun x => { x with evmask := setBit x.evmask n }) s
/-- DISARM. -/
def execDisarm (k : CoreId) (n : Nat) (s : State) : Host.Outcome State Fault Refusal :=
  onEvent k .disarm n true (fun x => { x with evmask := w1c x.evmask (nw (2 ^ n)) }) s
/-- RAISE: events 16 to 31 only. -/
def execRaise (k : CoreId) (n : Nat) (s : State) : Host.Outcome State Fault Refusal :=
  onEvent k .raise n (16 ≤ n) (fun x => { x with evpend := setBit x.evpend n }) s

/-- RETE (R283). -/
def execRete (k : CoreId) (s : State) : Host.Outcome State Fault Refusal :=
  onReady k (fun x =>
    if x.active then
      { x.setFlags x.eflags with pc := x.epc, errStatus := fld x.eflags 15 8, errOp := fld x.eflags 21 16, active := false, cycle := x.cycle + 1 }
    else (x.status 0x23 2).next 1) s

/-- R282: what ends a WAIT now: the lowest event of its mask that is pending, or 32 at its deadline. -/
def Dev.waitEnds (d : Dev) (k : CoreId) (mask : Word) (deadline : Option Word) : Option Nat :=
  match lowBit (d.pendOf k &&& mask) with
  | some n => some n
  | none => match deadline with
    | some t => if 0 ≤ (nw d.clk.tick - t).toInt then some 32 else none
    | none => none

/-- WAIT (R282). -/
def waitStart (k : CoreId) (a b c : Nat) (dl : Bool) (d : Dev) : Dev :=
  let x := d.core k
  let mask := x.rd b
  let deadline := if dl then some (x.rd c) else none
  if mask = 0 ∧ dl = false then d.onCore k fun x => (x.status (opNo .wait) 2).next 1
  else match d.waitEnds k mask deadline with
    | some n => d.onCore k fun x => ((x.wr a (nw n)).status (opNo .wait) 0).next 1
    | none => d.onCore k fun x => { x with waiting := some { a := a, mask := mask, deadline := deadline, since := d.clk.now } }
def execWait (k : CoreId) (a b c : Nat) (dl : Bool) (s : State) : Host.Outcome State Fault Refusal :=
  fin s (s.dev.on (s.dev.ready k) (waitStart k a b c dl))

/-- WAIT_COMPLETE (R282): a WAIT that waits ends; an event that is to be entered comes first (R281). -/
def waitComplete (k : CoreId) (cycles : Nat) (d : Dev) : Dev :=
  match (d.core k).waiting with
  | none => d
  | some y =>
    if !(d.core k).runs || (d.entryDue k).isSome then d
    else match d.waitEnds k y.mask y.deadline with
      | some n => d.onCore k fun x => (({ x with waiting := none }.wr y.a (nw n)).status (opNo .wait) 0).next (1 + cycles)
      | none => d
def execWaitComplete (k : CoreId) (cycles : Nat) (s : State) : Host.Outcome State Fault Refusal :=
  fin s (s.dev.on (s.dev.hasCore k) (waitComplete k cycles))

/-! ### Special registers (R285, R303, Table 10-12) -/

/-- LREF. -/
def lrefWord (x : Core) : Word :=
  match x.lref with
  | r :: l => word [(r.cluster, 23), (r.tile, 16), (b2n !l.isEmpty, 14), (r.op, 8), (r.status, 0)]
  | [] => 0

/-- A special register; none for a number that Table 10-12 does not give. -/
def Dev.special (d : Dev) (k : CoreId) (n : Nat) : Option Word :=
  let x := d.core k
  match n with
  | 0x00 => some (match k with | .ridge => 0x8000007F | .rafter t => nw t)
  | 0x01 => some (nw d.clk.tick)
  | 0x02 => some (nw d.clk.epoch)
  | 0x03 => some (word [(x.fails, 16), (x.errOp, 8), (x.errStatus, 0)])
  | 0x04 => some x.evmask
  | 0x05 => some (d.pendOf k)
  | 0x06 => some (word [(b2n x.active, 8), (x.cause, 0)])
  | 0x07 => some x.epc
  | 0x08 => some x.eflags
  | 0x09 => some x.evbase
  | 0x0A => some (word [(1, 31), (x.period, 0)])
  | 0x0B => some 0
  | 0x0C => some x.tcmp
  | 0x0D => some (lrefWord x)
  | 0x0E => some (nw x.flagBits)
  | 0x0F => some (nw x.cycle)
  | 0x10 => some (word [(x.lrlost, 24), (x.inq.length, 16), (8 - x.outq.length, 8), (x.lref.length, 0)])
  | 0x11 => some (nw x.rcause)
  | _ => none

/-- What a read of a special register clears (its RC fields). -/
def Core.specialClear (x : Core) (n : Nat) : Core :=
  match n with
  | 0x03 => { x with fails := 0 }
  | 0x0D => { x with lref := x.lref.tail }
  | 0x10 => { x with lrlost := 0 }
  | _ => x

/-- MFS. -/
def mfs (k : CoreId) (a n : Nat) (d : Dev) : Dev :=
  match d.special k n with
  | some w => d.onCore k fun x => (((x.specialClear n).wr a w).status (opNo .mfs) 0).next 1
  | none => d.onCore k fun x => (x.status (opNo .mfs) 9).next 1
def execMfs (k : CoreId) (a n : Nat) (s : State) : Host.Outcome State Fault Refusal := fin s (s.dev.on (s.dev.ready k) (mfs k a n))

/-- The armed events that exist on a core. -/
def evMaskOf (k : CoreId) (w : Word) : Word := word (((List.range 32).filter fun n => tst w n && evOn k n).map fun n => (1, n))

/-- EVBASE: the table of 32 words lies inside instruction RAM or ROM. -/
def vectorOk (k : CoreId) (w : Word) : Bool :=
  let b := fld w 31 7 * 128
  b + 128 ≤ instrSize k || (0x10000 ≤ b && b + 128 ≤ 0x10000 + (match k with | .ridge => 0x8000 | .rafter _ => 0x4000))

/-- R285: the status of a write of a special register. DEDUCED (log 34): a WDOG write of EN 0 completes with STATE whatever its PERIOD. -/
def mtsStatus (k : CoreId) (n : Nat) (w : Word) : Nat :=
  match n with
  | 0x04 | 0x05 | 0x07 | 0x08 | 0x0B | 0x0C | 0x0E => 0
  | 0x09 => if vectorOk k w then 0 else 1
  | 0x0A => firstFail [(!tst w 31, 2), (fld w 15 0 < 16, 1)]
  | 0x00 | 0x01 | 0x02 | 0x03 | 0x06 | 0x0D | 0x0F | 0x10 | 0x11 => 2
  | _ => 9

/-- R285 to R287: the effect of an accepted write of a special register. -/
def Core.mtsPut (x : Core) (k : CoreId) (n : Nat) (w : Word) : Core :=
  match n with
  | 0x04 => { x with evmask := evMaskOf k w }
  | 0x05 => { x with evpend := w1c x.evpend w }
  | 0x07 => { x with epc := w &&& 0xFFFFFFFC }
  | 0x08 => { x with eflags := w &&& 0x003FFF1F }
  | 0x09 => { x with evbase := w &&& 0xFFFFFF80 }
  | 0x0A => { x with period := fld w 15 0 }
  | 0x0B => if fld w 7 0 = 0x5A then x.kick else { x with wdDue := true }
  | 0x0C => { x with tcmp := w, timer := true }
  | 0x0E => x.setFlags w
  | _ => x

/-- MTS: a write of FLAGS takes E from the value and leaves ERR (R276). -/
def mts (k : CoreId) (b n : Nat) (x : Core) : Core :=
  let w := x.rd b
  let st := mtsStatus k n w
  if st ≠ 0 then (x.status (opNo .mts) st).next 1
  else if n = 0x0E then (x.mtsPut k n w).next 1
  else ((x.mtsPut k n w).status (opNo .mts) 0).next 1
def execMts (k : CoreId) (b n : Nat) (s : State) : Host.Outcome State Fault Refusal := onReady k (mts k b n) s

end Sys2Proof.Machine
end

