-- ==== Sys2Proof/Machine/KxDev.lean ====
section
/-!
DEFINITION. Sys2Proof/Machine/KxDev.lean: the device operations and messages of the program cores (R288 to R301, Table 10-10). An instruction whose own
fields marked 0 are not 0 is an undefined encoding (R274): UNKNOWN. DEDUCED (log 35): an imm14 field that Table 10-10 does not name for an operation
counts as marked 0, and R289's step 1 speaks of the operands.
-/
namespace Sys2Proof.Machine

/-- A device operation of op `op`, with `spare` the imm14 bits that are marked 0. -/
def devOp (k : CoreId) (op spare : Nat) (f : List Host.Cell → Dev → Nat × List Host.Cell × Dev) (s : State) : Host.Outcome State Fault Refusal :=
  onStatus k op (fun m d => if spare ≠ 0 then (9, m, d) else f m d) s

/-- SETP: handle g[b], code g[c], slew imm14 [5:0]. -/
def execSetp (k : CoreId) (b c imm14 : Nat) (s : State) : Host.Outcome State Fault Refusal :=
  devOp k 0x30 (imm14 / 64) (fun m d => opSetp (coreWriter k) 0 ((d.core k).rd b) ((d.core k).rd c) (nw imm14) m d) s

/-- PSTATE: handle g[b], FSTATE imm14 [2:0], FORCE [3]. -/
def execPstate (k : CoreId) (b imm14 : Nat) (s : State) : Host.Outcome State Fault Refusal :=
  devOp k 0x31 (imm14 / 16) (fun m d => opPstate (coreWriter k) 0 ((d.core k).rd b) (nw imm14) m d) s

/-- CAPSET: handle g[b], value g[c]. -/
def execCapset (k : CoreId) (b c imm14 : Nat) (s : State) : Host.Outcome State Fault Refusal :=
  devOp k 0x32 imm14 (fun m d => opCapset (coreWriter k) 0 ((d.core k).rd b) ((d.core k).rd c) m d) s

/-- FMAXW: core reference g[b], codes g[c]. -/
def execFmaxw (k : CoreId) (b c imm14 : Nat) (s : State) : Host.Outcome State Fault Refusal :=
  devOp k 0x33 imm14 (fun m d => opFmaxw (coreWriter k) 0 ((d.core k).rd b) ((d.core k).rd c) m d) s

/-- TBLSEL: handle g[b], FREGION imm14 [5:0], FORCE [6], LOCK [7]. -/
def execTblsel (k : CoreId) (b imm14 : Nat) (s : State) : Host.Outcome State Fault Refusal :=
  devOp k 0x34 (imm14 / 256) (fun m d => opTblsel (coreWriter k) 0 ((d.core k).rd b) (nw imm14) m d) s

/-- QRY: handle g[b], kind imm14 [7:0], the value into g[a]. -/
def execQry (k : CoreId) (a b imm14 : Nat) (s : State) : Host.Outcome State Fault Refusal :=
  devOp k 0x35 (imm14 / 256) (fun m d =>
    let r := opQry (coreWriter k) ((d.core k).rd b) (nw imm14) m d
    (r.1, m, d.on (r.1 == 0) fun d => d.onCore k fun x => x.wr a r.2)) s

/-- POST (R293): a program event with data words g[b] and g[c]. -/
def execPost (k : CoreId) (b c imm14 : Nat) (s : State) : Host.Outcome State Fault Refusal :=
  onStatus k 0x36 (fun m d =>
    if imm14 < 0x2000 ∨ 0x4000 ≤ imm14 then (1, m, d)
    else (0, m, takeRec { code := imm14, sub := 8, tile := coreTile k, d0 := (d.core k).rd b, d1 := (d.core k).rd c } d)) s

/-- R297: SEND's status: destination word, payload address, length. The destination is judged as a handle (R289 step 1), then its tile, then length and
address. -/
def sendStatus (k : CoreId) (dst : Word) (a len : Nat) (d : Dev) : Nat :=
  let t := hTile dst
  let self := match k with | .ridge => tst dst 31 | .rafter own => !tst dst 31 && (t == own || t == 0x7F)
  let all := k == .ridge && t == 0x7F
  firstFail [(fld dst 30 23 != 0 || fld dst 15 0 != 0 || self, 1), (!tst dst 31 && !all && !d.answersT t, 3), (len = 0 || 8 < len, 1),
    (a % 4 != 0 || dataSize k < a + 4 * len, 6), (8 ≤ (d.core k).outq.length, 8)]

/-- SEND: destination g[b], payload at g[c], LEN imm14 [3:0], TAG [11:4]. -/
def send (k : CoreId) (b c imm14 : Nat) (m : List Host.Cell) (d : Dev) : Nat × List Host.Cell × Dev :=
  let dst := (d.core k).rd b
  let a := ((d.core k).rd c).toNat
  let len := imm14 % 16
  let st := sendStatus k dst a len d
  if st ≠ 0 then (st, m, d)
  else
    let msg : Msg := { src := k, dst := if tst dst 31 then none else some (hTile dst), bcast := k == .ridge && !tst dst 31 && hTile dst == 0x7F
                       tag := imm14 / 16 % 256, words := readWords m (dataBase k + a) len, no := d.issued }
    (0, m, { d.onCore k (fun x => { x with outq := x.outq ++ [msg] }) with issued := d.issued + 1 })
def execSend (k : CoreId) (b c imm14 : Nat) (s : State) : Host.Outcome State Fault Refusal := devOp k 0x37 (imm14 / 4096) (send k b c imm14) s

/-- R300: the header of a message. -/
def Msg.header (x : Msg) : Word :=
  match x.src with
  | .ridge => word [(1, 31), (0x7F, 16), (x.tag, 8), (x.words.length, 0)]
  | .rafter t => word [(t, 16), (x.tag, 8), (x.words.length, 0)]

/-- RECV (R300): the oldest message: at most MAX words to g[b], the header into g[a]. R289: an operand out of range comes before the empty queue. -/
def recv (k : CoreId) (a b imm14 : Nat) (m : List Host.Cell) (d : Dev) : Nat × List Host.Cell × Dev :=
  let x := d.core k
  let at' := (x.rd b).toNat
  let most := imm14 % 16
  let n := match x.inq with | y :: _ => min most y.words.length | [] => 0
  let st := firstFail [(most = 0 || 8 < most, 1), (at' % 4 != 0 || dataSize k ≤ at' || dataSize k < at' + 4 * n, 6), (x.inq.isEmpty, 2)]
  match x.inq with
  | y :: l =>
    if st ≠ 0 then (st, m, d)
    else (0, Mem.writeL m (dataBase k + at') ((y.words.take n).flatMap wordBytes), d.onCore k fun x => { x with inq := l }.wr a y.header)
  | [] => (st, m, d)
def execRecv (k : CoreId) (a b imm14 : Nat) (s : State) : Host.Outcome State Fault Refusal := devOp k 0x38 (imm14 / 16) (recv k a b imm14) s

/-- TRIG: handle g[b], T 1 (R134). -/
def execTrig (k : CoreId) (b imm14 : Nat) (s : State) : Host.Outcome State Fault Refusal :=
  devOp k 0x39 imm14 (fun m d => opTrig (coreWriter k) 0 ((d.core k).rd b) 0 m d) s

/-- GRANT: handle g[b], UPMODE imm14 [1:0], UPSTEP [9:2]. -/
def execGrant (k : CoreId) (b imm14 : Nat) (s : State) : Host.Outcome State Fault Refusal :=
  devOp k 0x3A (imm14 / 1024) (fun m d => opGrant (coreWriter k) 0 ((d.core k).rd b) (nw imm14) m d) s

/-! ### Instruction words (R270, R274) -/

/-- The meaning of an instruction that `decodeKx` gives. -/
def runKx (i : Instr) (s : State) : Host.Outcome State Fault Refusal :=
  match i with
  | .add k a b c => execAdd k a b c s
  | .sub k a b c => execSub k a b c s
  | .and k a b c => execAnd k a b c s
  | .or k a b c => execOr k a b c s
  | .xor k a b c => execXor k a b c s
  | .shl k a b c => execShl k a b c s
  | .shr k a b c => execShr k a b c s
  | .sra k a b c => execSra k a b c s
  | .mul k a b c => execMul k a b c s
  | .mulq k a b c => execMulq k a b c s
  | .clamp k a b c => execClamp k a b c s
  | .addi k a b i => execAddi k a b i s
  | .andi k a b i => execAndi k a b i s
  | .ori k a b i => execOri k a b i s
  | .xori k a b i => execXori k a b i s
  | .lui k a i => execLui k a i s
  | .shli k a b i => execShli k a b i s
  | .shri k a b i => execShri k a b i s
  | .srai k a b i => execSrai k a b i s
  | .ldw k a b i => execLdw k a b i s
  | .ldh k a b i => execLdh k a b i s
  | .ldhu k a b i => execLdhu k a b i s
  | .ldb k a b i => execLdb k a b i s
  | .ldbu k a b i => execLdbu k a b i s
  | .stw k a b i => execStw k a b i s
  | .sth k a b i => execSth k a b i s
  | .stb k a b i => execStb k a b i s
  | .branch k a i => execBranch k a i s
  | .jal k a i => execJal k a i s
  | .jr k a b i => execJr k a b i s
  | .rete k => execRete k s
  | .wait k a b c dl => execWait k a b c dl s
  | .arm k n => execArm k n s
  | .disarm k n => execDisarm k n s
  | .raise k n => execRaise k n s
  | .mfs k a n => execMfs k a n s
  | .mts k b n => execMts k b n s
  | .setp k b c i => execSetp k b c i s
  | .pstate k b i => execPstate k b i s
  | .capset k b c i => execCapset k b c i s
  | .fmaxw k b c i => execFmaxw k b c i s
  | .tblsel k b i => execTblsel k b i s
  | .qry k a b i => execQry k a b i s
  | .post k b c i => execPost k b c i s
  | .send k b c i => execSend k b c i s
  | .recv k a b i => execRecv k a b i s
  | .trig k b i => execTrig k b i s
  | .grant k b i => execGrant k b i s
  | _ => fin s s.dev

/-- UNDEFINED_ENCODING (R270, R274): a word that stands at the core's PC. An undefined encoding completes with UNKNOWN, with the word's op; any other word
is the instruction that its fields name, and runs as that instruction's own command (log 84). -/
def execUndefinedEncoding (k : CoreId) (w : Word) (s : State) : Host.Outcome State Fault Refusal :=
  let v := fetched k (s.dev.core k).pc w
  match decodeKx k v with
  | some i => runKx i s
  | none => onReady k (fun x => (x.status (fld v 31 26) 9).next 1) s

end Sys2Proof.Machine
end

