-- ==== Sys2Proof/Machine/Image.lean ====
section
/-!
DEFINITION. Sys2Proof/Machine/Image.lean: the image in non-volatile memory: its header and directory, what makes it invalid, and the hardware sections that
the boot logic applies (R385 to R388, R391).
-/
namespace Sys2Proof.Machine

/-! ### Header and directory (R385, R386) -/

/-- Word at byte `i` of the image region. -/
def imgWord (m : List Host.Cell) (i : Nat) : Nat := (Mem.readW m (nvBase + i)).toNat

/-- `n` bytes from byte `i` of the image region. -/
def imgBytes (m : List Host.Cell) (i n : Nat) : List Byte := Mem.readL m (nvBase + i) n

/-- R386: a directory entry. -/
structure Sec where
  ty : Nat
  tile : Nat
  all : Bool
  doff : Nat
  off : Nat
  len : Nat
  crc : Nat

/-- Header fields NSEC and LEN (Table 14-5). -/
def imgCount (m : List Host.Cell) : Nat := imgWord m 4 / 2 ^ 8 % 2 ^ 12
def imgLen (m : List Host.Cell) : Nat := imgWord m 8

/-- Entry `i` of the directory. -/
def imgSec (m : List Host.Cell) (i : Nat) : Sec :=
  let e := fun k => imgWord m (32 + 16 * i + 4 * k)
  { ty := e 0 % 2 ^ 8, tile := e 0 / 2 ^ 8 % 2 ^ 7, all := e 0 / 2 ^ 15 % 2 == 1, doff := 4 * (e 0 / 2 ^ 16), off := e 1, len := e 2, crc := e 3 }

/-- The directory. -/
def imgSecs (m : List Host.Cell) : List Sec := (List.range (imgCount m)).map (imgSec m)

/-- Table 14-6: the size of a section type's destination; REGS has none. -/
def secSize : Nat → Option Nat
  | 0x01 => some 2880
  | 0x02 => some 10752
  | 0x03 => some 27648
  | 0x04 => some 384
  | 0x10 => some 0xF440
  | 0x11 => some 43008
  | 0x12 => some 80
  | _ => none

/-- The type names a tile's section. -/
def secOfTile (ty : Nat) : Bool := ty == 1 || ty == 2 || ty == 0x10 || ty == 0x11 || ty == 0x12

/-- R387: an entry of known type within LEN and its destination. DESIGN CHOICE (log 36): a REGS section whose TILE is 0x7F is the device's. -/
def Sec.fits (s : Sec) (len : Nat) : Bool :=
  s.off % 4 == 0 && s.len % 4 == 0 && decide (s.off + s.len ≤ len) &&
  (if s.ty = 5 then (s.tile == 0x7F && !s.all) || (s.all && s.tile == 0) || (!s.all && decide (s.tile < 96))
   else match secSize s.ty with
    | some n => decide (s.doff + s.len ≤ n) && (!secOfTile s.ty || (if s.all then s.tile == 0 else decide (s.tile < 96)))
    | none => false)

/-- The section's bytes. -/
def Sec.bytes (s : Sec) (m : List Host.Cell) : List Byte := imgBytes m s.off s.len

/-- R386: the present tiles that take the section. -/
def Sec.tiles (s : Sec) (d : Dev) : List Nat := if s.all then d.tilesOn else d.tilesOn.filter (· == s.tile)

/-- R387: the cause found in the header and directory, 0 none. DEDUCED (log 36): they are checked in the order of the table, the entries after DCRC. -/
def imgHeadErr (m : List Host.Cell) (d : Dev) : Nat :=
  let len := imgLen m
  let f := imgWord m 4
  let w0 := (idWord d 4).toNat
  if d.boot.straps.nvskip then 7
  else if !d.log.nvok then 1
  else if imgWord m 0 ≠ 0x4B58494D ∨ f % 2 ^ 8 ≠ 1 ∨ imgCount m = 0 ∨ f / 2 ^ 20 ≠ 0 ∨ len % 4 ≠ 0 ∨ d.nvSize - 0x400000 < len ∨
      imgWord m 24 ≠ 0 ∨ imgWord m 28 ≠ 0 then 2
  else if imgWord m 20 ≠ w0 / 2 ^ 8 % 2 ^ 7 + w0 / 2 ^ 16 % 2 ^ 6 * 2 ^ 16 then 3
  else if len < 32 + 16 * imgCount m then 6
  else if crc32 (imgBytes m 32 (16 * imgCount m)) ≠ imgWord m 16 then 4
  else if (imgSecs m).all fun s => s.fits len then 0 else 6

/-! ### Hardware sections (R388) -/

/-- Bytes laid over others from an offset on. -/
def overlay (base : List Byte) (o : Nat) (l : List Byte) : List Byte := base.take o ++ l ++ base.drop (o + l.length)

/-- `n` bytes of a list from an offset. -/
def slice (l : List Byte) (o n : Nat) : List Byte := (l.drop o).take n

/-- The word at an offset of a list. -/
def wordAt (l : List Byte) (o : Nat) : Word := nw (leNat (slice l o 4))

/-- The 160 bytes of a cluster in a CELL section: as they are, and put into a cluster. -/
def cellBytes (c : Nat) (k : Cluster) : List Byte :=
  k.cells.flatMap (fun x => (x.cal ++ List.replicate 16 0).take 16) ++ wordBytes (word [(2, 0), (domCode (domOf c), 8)]) ++
    k.loop.fbCoef.flatMap fun a => wordBytes (iw a)
def putCell (l : List Byte) (k : Cluster) : Cluster :=
  { k with cells := mapI (fun r x => { x with cal := slice l (16 * r) 16 }) 0 k.cells
           loop := { k.loop with fbCoef := (List.range 7).map fun j => sgn 18 (fld (wordAt l (132 + 4 * j)) 17 0) } }

/-- CELL: calibration and fall-back sets. -/
def applyCell (o : Nat) (l : List Byte) (x : Tile) : Tile :=
  let all := overlay ((mapI (fun c (p : List Byte × Cluster) => (cellBytes c p.2, p.2)) 0 (x.clusters.map fun k => ([], k))).flatMap (·.1)) o l
  x.mapC fun c k => putCell (slice all (160 * c) 160) k

/-- The byte of core `k` in the map in force. -/
def cmapByte (x : Tile) (k : Nat) : Byte := match x.core2 k with | some (l, s) => BitVec.ofNat 8 (l + 16 * (s - 10)) | none => 0xF

/-- CMAP: the core map. -/
def applyCmap (o : Nat) (l : List Byte) (x : Tile) : Tile :=
  { x with cmap := some ((overlay ((List.range 10752).map (cmapByte x)) o l).map (·.toNat)) }

/-- The half-words of a cluster in ADJ: valid, tile, cluster. -/
def adjBytes (k : Cluster) : List Byte :=
  ((((k.thm.adj.getD []).map fun (p : Nat × Nat) => 0x8000 + p.1 * 32 + p.2) ++ List.replicate 8 0).take 8).flatMap (natBytes 2)
def adjOf (l : List Byte) : List (Nat × Nat) :=
  ((List.range 8).map fun i => leNat (slice l (2 * i) 2)).filterMap fun h => if h / 2 ^ 15 = 1 then some (h / 32 % 2 ^ 7, h % 32) else none

/-- ADJ: the adjacency of every cluster position. -/
def applyAdj (o : Nat) (l : List Byte) (d : Dev) : Dev :=
  let all := overlay (d.tiles.flatMap fun x => x.clusters.flatMap adjBytes) o l
  d.mapC fun t c k => { k with thm := { k.thm with adj := some (adjOf (slice all (16 * (18 * t + c)) 16)) } }

/-- R391: the floor plan's word of a tile position. -/
def planWord (x : Tile) : Word :=
  (idxs (·.present) 0 x.clusters).foldl setBit (if x.present then 0x80000000 else 0)

/-- R391: what the floor plan's word leaves of a tile. -/
def Tile.planned (w : Word) (x : Tile) : Tile :=
  { x.mapC (fun c k => { k with present := k.present && tst w 31 && tst w c }) with present := x.present && tst w 31 }

/-- R391, R399: the floor plan in a tile's mirrors; their other words stay until the next mirror. An absent tile's window reads 0 (R392). -/
def Mirror.planned (w : Word) (y : Mirror) : Mirror :=
  let f := fun (p : Snap) => { p with tile := p.tile.planned w }
  if tst w 31 then { y with cur := f y.cur, flight := y.flight.map f } else { y with cur := {}, flight := [] }

/-- FLOOR (R391, R392): tiles and clusters left out are absent from the instant it is applied. -/
def applyFloor (o : Nat) (l : List Byte) (d : Dev) : Dev :=
  let all := overlay (d.tiles.flatMap fun x => wordBytes (planWord x)) o l
  let d := d.mapT fun t x => x.planned (wordAt all (4 * t))
  { d with mirrors := mapI (fun t y => y.planned (wordAt all (4 * t))) 0 d.mirrors }

/-- REGS: pairs of address and value, written in order at class 7; a rejected pair is skipped. -/
def applyRegs (put : Nat → Word → Dev → Nat × Dev) : List Byte → Nat → Dev → Dev
  | _, 0, d => d
  | l, n + 1, d =>
    let r := put (wordAt l 0).toNat (wordAt l 4) d
    applyRegs put (l.drop 8) n (if r.1 = 0 then r.2 else { r.2 with boot := { r.2.boot with regrej := true } })

/-- R388: one section; the answer holds the cause for which it makes the image invalid, 0 none. -/
def applySec (m : List Host.Cell) (s : Sec) (d : Dev) : Nat × Dev :=
  if 5 < s.ty then (0, d)
  else
    let l := s.bytes m
    if crc32 l ≠ s.crc then (5, d)
    else match s.ty with
    | 1 => (0, (s.tiles d).foldl (fun d t => d.onT t (applyCell s.doff l)) d)
    | 2 =>
      if l.any fun b => 0xA ≤ b.toNat % 16 && b.toNat % 16 ≤ 0xE then (6, d)
      else (0, (s.tiles d).foldl (fun d t => d.onT t (applyCmap s.doff l)) d)
    | 3 => (0, applyAdj s.doff l d)
    | 4 => (0, applyFloor s.doff l d)
    | _ =>
      if s.tile = 0x7F then (0, applyRegs (fun a v d => if a < 0x10000 then devWrite .boot a v d else (1, d)) l (s.len / 8) d)
      else (0, (s.tiles d).foldl (fun d t => applyRegs (fun a v d => writeLive m .boot t a v d) l (s.len / 8) d) d)

/-- R387, R388: boot stage 3. An image that proves invalid leaves the block as it was, with its cause. -/
def imageStage (m : List Host.Cell) (d : Dev) : Dev :=
  let h := imgHeadErr m d
  let r := if h ≠ 0 then (h, d) else (imgSecs m).foldl (fun (r : Nat × Dev) s => if r.1 ≠ 0 then r else applySec m s r.2) (0, d)
  if r.1 ≠ 0 then { d with boot := { d.boot with imgerr := r.1 } } else { r.2 with boot := { r.2.boot with nvimg := true } }

end Sys2Proof.Machine
end

