-- ==== Sys2Proof/Machine/Pins.lean ====
section
/-!
DEFINITION. Sys2Proof/Machine/Pins.lean: the digital signals of Table 14-1, the boundary register's cells over them (R364, R377) and the levels that State holds.
-/
namespace Sys2Proof.Machine

/-- Table 14-1: the digital signals, in the table's order. R377 leaves out the Ridge link's lanes, the two reference clocks, MARGIN_A and the supplies. -/
inductive Signal where
  | hpClk | hpValid | hpWr | hpAddr | hpBe | hpWdata | hpResp | hpRdata | hpStat
  | sbAvalid | sbAwr | sbAddr | sbAlen | sbAready | sbWready | sbWvalid | sbWdata | sbWstrb | sbWlast
  | sbRvalid | sbRdata | sbRlast | sbRerr | sbBvalid | sbBerr
  | tclk | palSync | palRet | palReq | hintVld | hintD | hintFull | droop | skip | tileRstN
  | avsClk | avsMdata | avsSdata | brdAlertN | pfN | marginP | qspiSck | qspiCsN | qspiIo
  | keyVld | keyD | keyAck | tck | tms | tdi | trstN | tdo | porstN | wrstN
  | strapPos | strapMstr | strapLbud | strapVsel | strapNvskip | irq
  deriving DecidableEq, Repr

/-- Table 14-1: a signal's direction, seen from Kyovex. -/
inductive PinDir where
  | inp | out | both
  deriving DecidableEq, Repr

/-- Table 14-1: how many bits a signal has. -/
def Signal.width : Signal → Nat
  | .hpAddr => 18 | .hpBe => 4 | .hpWdata | .hpRdata => 32 | .hpStat => 8
  | .sbAddr => 60 | .sbAlen => 4 | .sbWdata | .sbRdata => 128 | .sbWstrb => 16
  | .hintD => 32 | .droop => 18 | .skip => 56
  | .qspiIo => 4 | .keyD => 32 | .strapPos => 6 | .strapLbud => 3 | .strapVsel => 2 | .irq => 11
  | _ => 1

/-- Table 14-1: a signal's direction. -/
def Signal.dir : Signal → PinDir
  | .hpValid | .hpWr | .hpAddr | .hpBe | .hpWdata | .sbAready | .sbWready | .sbRvalid | .sbRdata | .sbRlast | .sbRerr | .sbBvalid | .sbBerr
  | .palReq | .hintVld | .hintD | .tileRstN | .avsSdata | .brdAlertN | .pfN | .marginP | .keyVld | .keyD | .tck | .tms | .tdi | .trstN
  | .porstN | .wrstN | .strapPos | .strapMstr | .strapLbud | .strapVsel | .strapNvskip => .inp
  | .qspiIo => .both
  | _ => .out

/-- Table 14-1: the device's signals above and below the per-tile lines, and those lines. -/
def hostSignals : List Signal :=
  [.hpClk, .hpValid, .hpWr, .hpAddr, .hpBe, .hpWdata, .hpResp, .hpRdata, .hpStat, .sbAvalid, .sbAwr, .sbAddr, .sbAlen, .sbAready, .sbWready, .sbWvalid,
   .sbWdata, .sbWstrb, .sbWlast, .sbRvalid, .sbRdata, .sbRlast, .sbRerr, .sbBvalid, .sbBerr]
def tileSignals : List Signal := [.tclk, .palSync, .palRet, .palReq, .hintVld, .hintD, .hintFull, .droop, .skip, .tileRstN]
def boardSignals : List Signal :=
  [.avsClk, .avsMdata, .avsSdata, .brdAlertN, .pfN, .marginP, .qspiSck, .qspiCsN, .qspiIo, .keyVld, .keyD, .keyAck, .tck, .tms, .tdi, .trstN, .tdo,
   .porstN, .wrstN, .strapPos, .strapMstr, .strapLbud, .strapVsel, .strapNvskip, .irq]

/-- R377: a cell of the boundary register: a bit of a signal, of a tile position where the signal is a per-tile one. -/
structure BoundaryCell where
  sig : Signal
  tile : Nat := 0
  bit : Nat := 0
  deriving DecidableEq, Repr

/-- The cells of signals, one for each bit, bit 0 first. -/
def cellsFor (t : Nat) (l : List Signal) : List BoundaryCell := l.flatMap fun s => (List.range s.width).map fun i => ⟨s, t, i⟩

/-- R364, R377: the boundary register: a cell for each bit of each digital signal, the per-tile signals once for each tile position of the build. DESIGN CHOICE
(log 122): in the order of Table 14-1, the bits of an in-out signal having one cell each. -/
def Dev.boundary (d : Dev) : List BoundaryCell :=
  cellsFor 0 hostSignals ++ ((List.range 96).filter d.hasT).flatMap (fun t => cellsFor t tileSignals) ++ cellsFor 0 boardSignals

/-- R50, R210, R225, R251, R364, R369, R376, R381, R382: the level of a pin, where State holds it. -/
def Dev.pinLevel (d : Dev) (x : BoundaryCell) : Option Bool :=
  match x.sig with
  | .hintFull => some (decide (64 ≤ (d.tl x.tile).esc.fifo.length))
  | .droop => some (d.cl x.tile x.bit).loop.droop
  | .skip => some (((d.cl x.tile (x.bit / 4)).bud.skip - 1).testBit (x.bit % 4))
  | .brdAlertN => some (!d.bud.pin)
  | .keyAck => some d.boot.keyAck
  | .porstN => some (!d.boot.porst)
  | .wrstN => some (!d.boot.wrst)
  | .irq => some (d.flt.irq (x.bit + 1))
  | _ => none

/-- R377: what Capture-DR loads into the boundary register's cells, under EXTEST (`ext`) or SAMPLE/PRELOAD: the pins' levels. FREE VALUE (log 122): a level that
State does not hold, and what a cell that drives its pin captures under EXTEST. -/
def Dev.boundaryCapture (ext : Bool) (d : Dev) : List Bool :=
  d.boundary.zipIdx.map fun p =>
    match if ext && p.1.sig.dir != .inp then none else d.pinLevel p.1 with
    | some b => b
    | none => Config.pinFree d.boot.scans p.2

end Sys2Proof.Machine
end

