-- ==== Sys2Proof/Machine/Boot.lean ====
section
/-!
DEFINITION. Sys2Proof/Machine/Boot.lean: cold reset and boot, warm and tile reset, the key, the board stage's link, non-volatile fetches, the reference clock
and the test port (R370 to R384).
-/
namespace Sys2Proof.Machine

def Dev.onBoot (d : Dev) (f : BootDev → BootDev) : Dev := { d with boot := f d.boot }

/-! ### Cold reset and boot (R374, R378, R381, R384) -/

/-- COLD_RESET (R381): every part returns to its cold-reset state; the non-volatile memory keeps its contents, but for an erase that it interrupts (R361). -/
def execColdReset (s : State) : Host.Outcome State Fault Refusal :=
  .next { dev := Dev.resetOf s.dev.build {}, mem := Mem.drop (tornErase s.dev s.mem) 0 nvBase, pending := s.pending }

/-- R374: RDG_NVID as read; DENS is 0 where the memory is not used. -/
def nvidWord (nv : NvFound) : Word :=
  word [(nv.mfr % 2 ^ 8, 24), (nv.dev % 2 ^ 16, 8), (if nv.answers && 24 ≤ nv.dens && nv.dens ≤ 28 then nv.dens else 0, 0)]

/-- COLD_BOOT (R371, R374, R378, R379, R384): PORST_N rises, the PLL locks and stage 1 begins. -/
def coldBoot (st : Straps) (nv : NvFound) (refPresent : Bool) (d : Dev) : Dev :=
  if !d.boot.porst then d
  else
    let d := Dev.resetOf d.build st
    let d := { d with boot := { d.boot with porst := false, booting := true, avsBusy := true, nvid := nvidWord nv }
                      lnk := { d.lnk with acting := st.mstr } }
    if refPresent then d
    else raise 8 9 .device 0 (d.onBoot fun b => { b with clkState := 3, fofs := Config.oscOffset, losses := 1 })

/-- R384 stage 4: the cells that failed their test are lost. DEDUCED (log 37): each is recorded as source LATCH. -/
def cellTests (failed : List (Nat × Nat × Nat)) (d : Dev) : Dev :=
  (failed.filter fun p => d.hasC p.1 p.2.1 && p.2.2 < 8).foldl (fun d p =>
    raiseCell 4 p.1 p.2.1 (some p.2.2) none (loseCell p.1 p.2.1 p.2.2 .failed d)) d

/-- R106: the array self-test begins on every present tile. -/
def bistStart (d : Dev) : Dev := d.mapT fun _ x => if x.present then { x with rem := { x.rem with bist := 1 } } else x

/-- R348: the POWERUP record: 0 after a cold reset, 1 after a warm fast path; RDG_ID. -/
def powerUp (how : Nat) (d : Dev) : Dev := takeRec { code := 1, d0 := nw how, d1 := 0x4B590C03 } d

/-- R384: the cores start on their resident programs and host writes are accepted. A tile in reset starts its Rafter when its reset ends (R383). -/
def coresStart (d : Dev) : Dev :=
  let d := { d with hp := { d.hp with closed := false }, boot := { d.boot with started := true } }
  d.awake.foldl (fun d k => startCore k 0 none d) d.offering

/-- BOOT_STAGE_COMPLETE (R384): the stage under way ends and the next begins. R377: under SELFTEST it is the cell tests that end. -/
def stageDone (m : List Host.Cell) (failed : List (Nat × Nat × Nat)) (d : Dev) : Dev :=
  let next := fun (d : Dev) => d.onBoot fun b => { b with stage := b.stage + 1 }
  if !d.boot.booting then d.on (d.boot.ir == 0x12 && d.seq.phase == 0) (cellTests failed)
  else match d.boot.stage with
    | 0 => next d
    | 1 => next (powerUp 0 (d.on d.nvUsable (logScan m)))
    | 2 => next (coresStart (imageStage m d))
    | 3 => next (bistStart (cellTests failed d))
    | _ => next (d.onBoot fun b => { b with booting := false })

/-! ### Warm reset (R325, R342, R382, R383) -/

/-- WARM_RESET (R382): WRST_N falls. -/
def warmReset (d : Dev) : Dev :=
  if d.boot.porst || !d.boot.started then d
  else
    let d := d.cores.foldl (fun d k => stopCore k d) d
    let d := ringState (dmaStop { d with hp := { d.hp with ren := false, closed := true } })
    d.onBoot fun b => { b with wrst := true, fast := false }

/-- WARM_FAST_PATH (R382): WRST_N rises; the scrub pass over the cores' memories meets corrected and double-bit words, and the route check runs. -/
def warmFast (corrected : Nat) (bad : List EccPlace) (d : Dev) : Dev :=
  d.on d.boot.wrst fun d =>
    let d := d.onBoot fun b => { b with wrst := false, fast := true, startMs := d.clk.ms }
    powerUp 1 (lostCheck (eccWords corrected (bad.filter fun p => match p with | .coreRam _ => true | .coreRom _ => true | _ => false) d))

/-- FAST_PATH_DONE (R321, R382, R383): every core starts on its selection. -/
def fastDone (d : Dev) : Dev :=
  d.on d.boot.fast fun d =>
    let d := { d with hp := { d.hp with closed := false }
                      boot := { d.boot with fast := false, warm := true, bootms := d.clk.ms - d.boot.startMs } }
    d.awake.foldl (fun d k => startAfter k 1 (d.onCore k (Core.holdChange d.clk.now fun x => { x with halted := false }))) d.offering

/-! ### Tile reset (R31, R301, R331, R370, R383) -/

/-- TILE_RESET (R370): TILE_RST_N falls: the Rafter stops with its registers as at reset, and RFT_CTL with them. -/
def tileReset (t : Nat) (d : Dev) : Dev :=
  if d.boot.porst || !d.hasT t then d
  else
    let d := stopCore (.rafter t) (d.onT t fun x => { x with rst := true })
    -- a RAM that proved uncorrectable stays so (R260)
    dmaTileGone t 4 (d.onCore (.rafter t) fun x => { ({ x with halted := false } : Core).fresh x.rcause d.clk.now with on := false, ramBad := x.ramBad })

/-- TILE_RESET_END (R321, R370, R383): the tile leaves reset and its Rafter starts, unless the cores wait for the boot or the fast path. -/
def tileResetEnd (t : Nat) (d : Dev) : Dev :=
  d.on ((d.tl t).rst && d.hasT t) fun d =>
    (d.onT t fun x => { x with rst := false }).on (d.boot.started && !d.boot.wrst && !d.boot.fast) (startAfter (.rafter t) 2)

/-! ### Key (R376) -/

/-- KEY_WORD (R376): a word of the key; KEY_ACK follows the eighth. DESIGN CHOICE (log 120): it stands until the next word or switching boundary. -/
def keyWord (w : Word) (consecutive : Bool) (d : Dev) : Dev :=
  d.onBoot fun b =>
    if b.keyv then { b with keyAck := false }
    else
      let l := if consecutive then b.keyw ++ [w] else [w]
      { b with keyw := l, keyv := l.length == 8, keyAck := l.length == 8 }

/-! ### Board stage (R371) -/

/-- AVS_RETRY (R371): a write that drew no acknowledgement is sent again, at most three times. -/
def avsRetry (d : Dev) : Dev :=
  d.onBoot fun b =>
    if !b.avsBusy then b
    else if b.avsTries < 3 then { b with avsTries := b.avsTries + 1 }
    else { b with avsBusy := false, avsErr := true }

/-- AVS_READBACK (R371): the rail's voltage; three reads more than 20 mV from VSET set ERR. -/
def avsRead (mv : Nat) (d : Dev) : Dev :=
  d.onBoot fun b =>
    let n := if b.vset + 20 < mv || mv + 20 < b.vset then incSat 3 b.avsOff else 0
    { b with vread := mv, avsOff := n, avsErr := b.avsErr || n == 3 }

/-! ### Non-volatile fetch (R375) -/

/-- NV_FETCH_DONE (R375): the fetch waits, like a burst of channel 0, for a flush in progress (R333; DEDUCED, log 110). -/
def nvDone (m : List Host.Cell) (ok : Bool) (d : Dev) : Dev :=
  d.on (!d.boot.nvdone && d.log.flush.isNone) fun d =>
    d.onBoot fun b => { b with nvdone := true, nverr := !ok, nvdata := if ok then readWords m (nvBase + b.nvaddr.toNat) 8 else b.nvdata }

/-! ### Reference clock (R379) -/

/-- REFLOSS (R379): hold-over begins. -/
def refloss (d : Dev) : Dev :=
  d.on (d.boot.clkState == 0 || d.boot.clkState == 4) fun d =>
    raise 8 9 .device 0 (d.onBoot fun b => { b with clkState := 1, losses := incSat 0xFFFF b.losses })

/-- OSCILLATOR_GLIDE_COMPLETE (R379): the root tracks the oscillator. -/
def glideDone (offset : Int) (d : Dev) : Dev :=
  d.onBoot fun b => if b.clkState = 2 then { b with clkState := 3, fofs := offset, glides := incSat 0xFFFF b.glides } else b

/-- REFRET (R379): the lock to the returned reference completes. -/
def refret (d : Dev) : Dev :=
  d.on (d.boot.clkState == 4) fun d =>
    raise 8 10 .device 0 (d.onBoot fun b => { b with clkState := 0, fofs := 0, glides := incSat 0xFFFF b.glides })

/-! ### Test port (R377) -/

/-- An instruction becomes current: CORESTOP and LOOPSTOP end with it. -/
def testIr (i : Nat) (d : Dev) : Dev :=
  let was := d.boot.ir
  let d := d.onBoot fun b => { b with ir := i }
  let d := if was = 0x10 ∧ i ≠ 0x10 then d.cores.foldl (fun d k => d.onCore k (Core.holdChange d.clk.now fun x => { x with stopped := false, wd := 0 })) d
    else if i = 0x10 ∧ was ≠ 0x10 then ridgeStops (d.cores.foldl (fun d k => d.onCore k (Core.holdChange d.clk.now fun x => { x with stopped := true })) d)
    else d
  if was = 0x11 ∧ i ≠ 0x11 then d.mapT fun _ x => { x with rem := { x.rem with stopped := false } }
  else if i = 0x11 ∧ was ≠ 0x11 then d.mapT fun _ x => { x with rem := { x.rem with stopped := true } }
  else d

/-- R377: the codes of Table 14-2. -/
def testListed (i : Nat) : Bool := [0x00, 0x01, 0x02, 0x10, 0x11, 0x12, 0x13, 0x3F].contains i

/-- R377: the instruction that acts: EXTEST acts as BYPASS unless the rails are off, and so does a code that is not listed. -/
def Dev.testActs (d : Dev) : Nat := if (d.boot.ir = 0 && d.seq.phase != 0) || !testListed d.boot.ir then 0x3F else d.boot.ir

/-- R377: what cell `i` of the boundary register drives onto its pin: its bit, while EXTEST acts and the pin is an output or an in-out. -/
def Dev.testDrives (d : Dev) (i : Nat) : Option Bool :=
  match d.boundary[i]? with
  | some x => if d.testActs = 0 ∧ x.sig.dir ≠ .inp then some (d.boot.bound.testBit i) else none
  | none => none

/-- EXTEST and SAMPLE/PRELOAD (R377): with the instruction current, Capture-DR loads the pins and Update-DR leaves `bits`, one for each cell, in the boundary
register, unless EXTEST acts as BYPASS. -/
def boundaryScan (i bits : Nat) (d : Dev) : Dev :=
  let d := testIr i d
  d.on (d.testActs == i) fun d =>
    d.onBoot fun b => { b with bound := bits % 2 ^ d.boundary.length, caught := d.boundaryCapture (i == 0), scans := b.scans + 1 }

/-- BYPASS (R377): its own code, or a code that Table 14-2 does not list. -/
def bypassCode (code : Nat) : Nat := if testListed (code % 64) then 0x3F else code % 64

/-- The number that the bits of a register spell, bit 0 first. -/
def spelled (l : List Bool) : Nat := l.foldr (fun b n => b2n b + 2 * n) 0

/-- R377: what Capture-DR loads into the data register that the instruction selects: the boundary register's cells, IDCODE's, HOSTACC's and BYPASS's; the
others of Table 14-2 name none. -/
def Dev.testCapture (d : Dev) : Option Nat :=
  match d.testActs with
  | 0x01 => some 0x34B59A3F
  | 0x13 => some d.boot.dr
  | 0x3F => some 0
  | 0x00 => some (spelled (d.boundaryCapture true))
  | 0x02 => some (spelled (d.boundaryCapture false))
  | _ => none

/-- SELFTEST (R377): in Run-Test/Idle with the rails off, the cell tests and the array self-test run as in a cold boot (R107). -/
def selftest (d : Dev) : Dev :=
  let d := testIr 0x12 d
  d.on (d.seq.phase == 0) fun d =>
    bistStart (d.mapT fun _ x => if x.present then { x with rem := { x.rem with remaps := [], badSpares := [] } } else x)

/-- HOSTACC (R304, R308, R377): Update-DR makes the access; the data register then holds its data and status. -/
def hostacc (dr : Nat) (m : List Host.Cell) (d : Dev) : List Host.Cell × Dev :=
  let d := testIr 0x13 d
  let wr := dr / 2 ^ 59 % 2
  let a := dr / 2 ^ 41 % 2 ^ 18 * 4
  let v := dr / 2 ^ 9 % 2 ^ 32
  let keep := fun (data st : Nat) (d : Dev) => d.onBoot fun b => { b with dr := wr * 2 ^ 59 + a / 4 * 2 ^ 41 + data * 2 ^ 9 + st * 2 }
  if wr = 1 then
    let r := portWrite .test 15 a (nw v) m d
    (r.2.1, keep v r.1 r.2.2)
  else
    let r := readHost .test true m a d
    (m, keep r.1.toNat 0 r.2)

/-! ### Meanings -/

/-- COLD_BOOT (R384). -/
def execColdBoot (straps : Straps) (nv : NvFound) (refPresent : Bool) (s : State) : Host.Outcome State Fault Refusal :=
  fin s (coldBoot straps nv refPresent s.dev)
/-- BOOT_STAGE_COMPLETE (R384). -/
def execBootStageComplete (failedCells : List (Nat × Nat × Nat)) (s : State) : Host.Outcome State Fault Refusal :=
  fin s (stageDone s.mem failedCells s.dev)
/-- WARM_RESET (R382). -/
def execWarmReset (s : State) : Host.Outcome State Fault Refusal := fin s (warmReset s.dev)
/-- WARM_FAST_PATH (R382). -/
def execWarmFastPath (s : State) (corrected : Nat := 0) (bad : List EccPlace := []) : Host.Outcome State Fault Refusal := fin s (warmFast corrected bad s.dev)
/-- FAST_PATH_DONE (R382). -/
def execFastPathDone (s : State) : Host.Outcome State Fault Refusal := fin s (fastDone s.dev)
/-- TILE_RESET (R370). -/
def execTileReset (t : Nat) (s : State) : Host.Outcome State Fault Refusal := fin s (tileReset t s.dev)
/-- TILE_RESET_END (R370). -/
def execTileResetEnd (t : Nat) (s : State) : Host.Outcome State Fault Refusal := fin s (tileResetEnd t s.dev)
/-- KEY_WORD (R376). -/
def execKeyWord (w : Word) (consecutive : Bool) (s : State) : Host.Outcome State Fault Refusal := fin s (keyWord w consecutive s.dev)
/-- AVS_RETRY (R371). -/
def execAvsRetry (s : State) : Host.Outcome State Fault Refusal := fin s (avsRetry s.dev)
/-- AVSBUS_ACKNOWLEDGE (R371). -/
def execAvsbusAcknowledge (s : State) : Host.Outcome State Fault Refusal := fin s (s.dev.onBoot fun b => { b with avsBusy := false })
/-- AVS_READBACK (R371). -/
def execAvsReadback (mv : Nat) (s : State) : Host.Outcome State Fault Refusal := fin s (avsRead mv s.dev)
/-- NV_FETCH_DONE (R375). -/
def execNvFetchDone (ok : Bool) (s : State) : Host.Outcome State Fault Refusal := fin s (nvDone s.mem ok s.dev)
/-- REFLOSS (R379). -/
def execRefloss (s : State) : Host.Outcome State Fault Refusal := fin s (refloss s.dev)
/-- HOLDOVER_EXPIRY (R379): the glide to the oscillator begins. -/
def execHoldoverExpiry (s : State) : Host.Outcome State Fault Refusal :=
  fin s (s.dev.onBoot fun b => if b.clkState = 1 then { b with clkState := 2 } else b)
/-- OSCILLATOR_GLIDE_COMPLETE (R379). -/
def execOscillatorGlideComplete (offset : Int) (s : State) : Host.Outcome State Fault Refusal := fin s (glideDone offset s.dev)
/-- REFERENCE_RETURN (R379): the glide back begins. -/
def execReferenceReturn (s : State) : Host.Outcome State Fault Refusal :=
  fin s (s.dev.onBoot fun b => if 1 ≤ b.clkState && b.clkState ≤ 3 then { b with clkState := 4 } else b)
/-- REFRET (R379). -/
def execRefret (s : State) : Host.Outcome State Fault Refusal := fin s (refret s.dev)
/-- EXTEST (R377). -/
def execExtest (s : State) (bits : Nat := 0) : Host.Outcome State Fault Refusal := fin s (boundaryScan 0x00 bits s.dev)
/-- IDCODE (R377). -/
def execIdcode (s : State) : Host.Outcome State Fault Refusal := fin s (testIr 0x01 s.dev)
/-- SAMPLE_PRELOAD (R377). -/
def execSamplePreload (s : State) (bits : Nat := 0) : Host.Outcome State Fault Refusal := fin s (boundaryScan 0x02 bits s.dev)
/-- CORESTOP (R286, R377). -/
def execCorestop (s : State) : Host.Outcome State Fault Refusal := fin s (testIr 0x10 s.dev)
/-- LOOPSTOP (R108, R377). -/
def execLoopstop (s : State) : Host.Outcome State Fault Refusal := fin s (testIr 0x11 s.dev)
/-- SELFTEST (R377). -/
def execSelftest (s : State) : Host.Outcome State Fault Refusal := fin s (selftest s.dev)
/-- HOSTACC (R377). -/
def execHostacc (dr : Nat) (s : State) : Host.Outcome State Fault Refusal :=
  let r := hostacc dr s.mem s.dev
  finM s r.1 r.2
/-- BYPASS (R377). -/
def execBypass (s : State) (code : Nat := 0x3F) : Host.Outcome State Fault Refusal := fin s (testIr (bypassCode code) s.dev)

end Sys2Proof.Machine
end

