-- ==== Sys2Proof/Machine/Resident.lean ====
section
/-!
DEFINITION. Sys2Proof/Machine/Resident.lean: what the resident programs of the Ridge and the Rafters do (R202, R215, R225, R250, R323, R324, R389, R390). Their
KX code is not in the manual: each duty is one step of the model, done at the epoch boundary at which the program is due.
-/
namespace Sys2Proof.Machine

/-- A core runs its resident program. -/
def Core.resident (x : Core) : Bool := x.runs && !x.loaded

/-! ### Calibration (R202) -/

def sumQ (l : List Rat) : Rat := l.foldl (· + ·) 0

/-- Entry (i, j) of a covariance; it starts as 1024 times the identity. -/
def covAt (p : List Rat) (i j : Nat) : Rat := if p.isEmpty then (if i = j then 1024 else 0) else p.getD (4 * i + j) 0

/-- A new coefficient in units of 2^-16, within the Q16.16 range. -/
def calClamp (r : Rat) : Int := clampI (-(2 ^ 31)) (2 ^ 31 - 1) (if r.den = 1 then r.num else Config.calWord r)

/-- R202: one step of the least squares: coefficients (2^-16), covariance, features (2^-16), power; none for an outlier, with its error. -/
def calStep (th : List Int) (p : List Rat) (x : List Int) (y : Int) : Rat × Option (List Int × List Rat) :=
  let xs : List Rat := (1 : Rat) :: x.map (fun (v : Int) => (v : Rat) / 65536)
  let ix := List.range 4
  let xi := fun i => xs.getD i 0
  let e : Rat := y - sumQ (ix.map fun i => (at0 th i : Rat) / 65536 * xi i)
  let bound : Rat := max 2000 ((y : Rat) / 4)
  if bound < e ∨ bound < -e then (e, none)
  else
    let lam : Rat := 63 / 64
    let px := ix.map fun i => sumQ (ix.map fun j => covAt p i j * xi j)
    let xp := ix.map fun j => sumQ (ix.map fun i => xi i * covAt p i j)
    let den := lam + sumQ (ix.map fun i => xi i * px.getD i 0)
    let g := fun i => px.getD i 0 / den
    (e, some (ix.map fun i => calClamp ((at0 th i : Rat) + g i * e * 65536),
      ix.flatMap fun i => ix.map fun j => (covAt p i j - g i * xp.getD j 0) / lam))

/-- R202: the resident Rafter program calibrates a cluster. -/
def calibrate (m : List Host.Cell) (t c : Nat) (d : Dev) : Dev :=
  let b := (d.cl t c).bud
  d.on b.valid fun d =>
    match calStep b.theta b.rls b.epx b.epm with
    | (e, none) => takeRec { code := 0x2000 + c, sub := 8, tile := t, d0 := iw (divHE e.num e.den), d1 := iw b.epm } d
    | (_, some r) =>
      (List.range 4).foldl (fun d i => (writeLive m (.rafter t) t (0xD00 + 16 * c + 4 * i) (iw (at0 r.1 i)) d).2) (d.onBud t c fun b => { b with rls := r.2 })

/-! ### Cluster caps (R215) -/

/-- R215: the cap of each cluster of a tile, in 0.1 W; all ones where the tile has none. -/
def clusterShare (x : Tile) : Nat :=
  let n := x.clsOn.countP fun c => (x.clusters.getD c {}).seq.st == .A
  if x.tcap = 0xFFFF then 0xFFFF else max 1 (min 0xFFFE (10 * x.tcap / max 1 n))

/-! ### Ageing (R390) -/

/-- Address of byte `i` of a tile's AGE record. -/
def ageAt (t i : Nat) : Nat := dataBase (.rafter t) + 0x3F80 + i

/-- The record with the monitor readings of one cluster and band folded in. -/
def foldCpm (x : Tile) (t c b : Nat) (m : List Host.Cell) : List Host.Cell :=
  let low := at0 (x.cpm.getD c []) b
  if low < x.cpmGuard then
    Mem.write m (ageAt t (4 * c + b)) (BitVec.ofNat 8 (min 255 ((Mem.read m (ageAt t (4 * c + b))).toNat + (x.cpmGuard - low).toNat)))
  else m

/-- The codes of a core after a further decrement of each band. -/
def agedCodes (m : List Host.Cell) (t k : Nat) (dec : List Nat) : List Byte :=
  (List.range 4).map fun b =>
    let v := (Mem.read m (fmaxBase t + 4 * k + b)).toNat
    BitVec.ofNat 8 (if v ≤ 1 then v else max 1 (v - dec.getD b 0))

/-- R390: the record of one cluster is folded and applied. -/
def ageCluster (t c : Nat) (m : List Host.Cell) (d : Dev) : List Host.Cell × Dev :=
  let x := d.tl t
  let m := (List.range 4).foldl (fun m b => foldCpm x t c b m) m
  let D := fun b => (Mem.read m (ageAt t (4 * c + b))).toNat
  let A := fun b => (Mem.read m (ageAt t (40 + 4 * c + b))).toNat
  let dec := (List.range 4).map fun b => D b - A b
  let r := if dec.all (· == 0) then (m, d) else
    ((x.coresOf c).filter fun k => !x.fmaxBad.contains k).foldl (fun (r : List Host.Cell × Dev) k => fmaxPut t (4 * k) (agedCodes r.1 t k dec) r.1 r.2) (m, d)
  ((List.range 4).foldl (fun m b => Mem.write m (ageAt t (40 + 4 * c + b)) (BitVec.ofNat 8 (D b))) r.1,
   r.2.onT t fun x => { x with cpm := x.cpm.set c [127, 127, 127, 127] })

/-- R390: the L clusters of a tile. -/
def ageTile (t : Nat) (m : List Host.Cell) (d : Dev) : List Host.Cell × Dev :=
  ((d.tl t).clsOn.filter (· < 10)).foldl (fun (r : List Host.Cell × Dev) c => ageCluster t c r.1 r.2) (m, d)

/-- Table 11-6: the resident Rafter program of a tile at an epoch boundary. -/
def rafterEpoch (t : Nat) (m : List Host.Cell) (d : Dev) : List Host.Cell × Dev :=
  let x := d.tl t
  if x.rst || !x.core.resident then (m, d)
  else
    let d := x.clsOn.foldl (fun d c => calibrate m t c d) d
    let d := x.clsOn.foldl (fun d c => (writeLive m (.rafter t) t (0x80 * c + 0x18) (nw (clusterShare x)) d).2) d
    if d.boot.nvimg && x.core.epochs % 10000 == 0 then ageTile t m d else (m, d)

/-! ### Group budgets and tile caps (R215) -/

/-- A tile all of whose clusters are isolated. -/
def Tile.darkAll (x : Tile) : Bool := x.clsOn.all fun c => (x.clusters.getD c {}).isolated

/-- R215: BUD_GRP0. -/
def BudDev.share0 (b : BudDev) : Nat :=
  if b.devcap = 0xFFFFFF then 0xFFFFFF else max 1 (min 0xFFFFFE ((b.devcap - b.fixed) * 65536 / (65536 + b.lossf)))

/-- R215: the slack of a tile, where it was reported within the last 10 epochs. -/
def BudDev.slackOf (b : BudDev) (t : Nat) : Int := let s := b.slack.getD t {}; if s.age ≤ 10 then s.slack else 0

/-- Insertion by rising slack, ties to the tile that came first. -/
def insSlack (p : Nat × Int × Nat) : List (Nat × Int × Nat) → List (Nat × Int × Nat)
  | [] => [p]
  | q :: l => if p.2.1 < q.2.1 then p :: q :: l else q :: insSlack p l

/-- R215: the tile caps of a group of budget `B`: (tile, cap). -/
def groupCaps (b : BudDev) (B : Nat) (ts : List Nat) : List (Nat × Nat) :=
  if B = 0xFFFFFF then ts.map fun t => (t, 0xFFFF)
  else
    let span := fld b.shift 31 16
    let w := fun t => (64 * span : Nat) - (fld b.shift 5 0 : Int) * clampI (-(span : Int)) span (b.slackOf t)
    let W := sumI (ts.map w)
    let l := ts.map fun t => (t, b.slackOf t, ((B : Int) * w t / W).toNat)
    let left := B - (l.map (·.2.2)).foldl (· + ·) 0
    let l := l.foldl (fun a p => insSlack p a) []
    mapI (fun i (p : Nat × Nat) => (p.1, max 1 (min 0xFFFE (if i < left then p.2 + 1 else p.2)))) 0 (l.map fun p => (p.1, p.2.2))

/-- R215: the resident Ridge program sets BUD_GRP0 and every tile's cap; `regrouped` where it has just put every tile into group 0 (Table 11-5). -/
def ridgeCaps (regrouped : Bool) (d : Dev) : Dev :=
  let d := (devWrite .ridge 0x2100 (nw d.bud.share0) d).2
  let ts := d.tilesOn.filter fun t => !(d.tl t).darkAll
  let group := fun t => if regrouped then 0 else (d.mir t).cur.tile.tgrp
  (List.range 64).foldl (fun d g =>
    (groupCaps d.bud (d.bud.grp.getD g 0xFFFFFF) (ts.filter fun t => group t == g)).foldl (fun d p => (writeFar .ridge p.1 0xC08 (nw p.2) 0x1D 0 d).2) d) d

/-- R250: the resident Ridge program acknowledges every pending source at levels 0 to 2. -/
def autoAck (d : Dev) : Dev :=
  d.on (tst d.flt.fcfg 8) fun d =>
    (List.range 11).foldl (fun d i =>
      let n := i + 1
      let v := (List.range 32).foldl (fun (w : Word) k => if d.flt.srcLevel n k ≤ 2 && tst (d.flt.pendWord n) k then setBit w k else w) 0
      d.on (v != 0) fun d => (devWrite .ridge (0x4000 + 0x100 * n) v d).2) d

/-- R225: the resident Ridge program ends an alert hold. -/
def autoRelease (d : Dev) : Dev :=
  d.on (d.bud.hold && !d.bud.pin && d.bud.highSince + 100000000 ≤ d.clk.now && d.alertCount < 3) fun d => (devWrite .ridge 0x202C 1 d).2

/-- Table 11-5: at the first epoch boundary after a start of cause 3 to 6, every tile goes to group 0 and the other groups have no cap. -/
def ridgeRegroup (d : Dev) : Dev :=
  let d := d.tilesOn.foldl (fun d t => (writeFar .ridge t 0xC0C 0 0x1D 0 d).2) d
  ((List.range 64).drop 1).foldl (fun d g => (devWrite .ridge (0x2100 + 4 * g) 0x00FFFFFF d).2) d

/-! ### The load of an image (R389) -/

/-- What the load of the image has come to: memory, block, the tiles failed, the tiles whose store was loaded. -/
structure Load where
  m : List Host.Cell
  d : Dev
  failed : List Nat := []
  stores : List Nat := []

/-- R375, R389: the program has fetched the 32 bytes in which byte `i` of the memory lies. -/
def residentFetch (m : List Host.Cell) (i : Nat) (d : Dev) : Dev :=
  let a := i / 32 * 32
  d.onBoot fun b => { b with nvaddr := nw a, nverr := false, nvdone := true, nvdata := readWords m (nvBase + a) 8 }

/-- The parts of a FUSEE section before and after its region map. -/
def storeParts (o : Nat) (l : List Byte) : List (Nat × List Byte) :=
  [(o, l.take (0xF080 - o)), (max o 0xF180, l.drop (0xF180 - o))].filter fun p => !p.2.isEmpty

/-- R389: what channel 1 moves of a section: the tile space, and the offset and bytes of each descriptor. -/
def Sec.parts (s : Sec) (l : List Byte) : Nat × List (Nat × List Byte) :=
  match s.ty with
  | 0x11 => (7, [(s.doff, l)])
  | 0x10 => (6, storeParts s.doff l)
  | _ => (5, [(0x3F80 + s.doff, l)])

/-- R326, R343, R375: channel 1 has written back a descriptor that moved bytes from non-volatile memory, with its status and, for a BCAST, the tiles refused.
DESIGN CHOICE (log 86): where the resident program keeps its ring is not in the manual, and HEAD and TAIL do not show it. -/
def chan1Done (st : Nat) (refused : Option (List Nat)) (l : List Byte) (d : Dev) : Dev :=
  let d := d.onCh 1 fun c => { c with lastst := st, done := incSat 0xFFFF c.done, notok := if st = 0 then c.notok else incSat 0xFFFF c.notok }
  let d := { d with dma := { d.dma with bref := refused.getD d.dma.bref } }
  ev .ridge 8 (d.onBoot fun b => { b with nvcrc := nw (crc32 l) })

/-- R331, R389: one descriptor: to every present tile as a BCAST, or to one. -/
def loadPart (all : Bool) (ts : List Nat) (sp : Nat) (a : Load) (p : Nat × List Byte) : Load :=
  let refused := (ts.map fun t => (t, tileRefusal a.d sp t)).filter fun x => x.2 != 0
  let go := ts.filter fun t => !refused.any (·.1 == t)
  let r := go.foldl (fun (r : List Host.Cell × Dev × List Nat) t =>
    let x := spaceWrite sp t p.1 p.2 r.1 r.2.1
    (x.1, x.2.1, if x.2.2 then r.2.2 ++ [t] else r.2.2)) (a.m, a.d, [])
  let st := if !refused.isEmpty then lowestRefusal refused else if r.2.2.isEmpty then 0 else 2
  { a with m := r.1, failed := a.failed ++ refused.map Prod.fst ++ r.2.2
           d := chan1Done st (if all then some (refused.map Prod.fst) else none) (if all || !go.isEmpty then p.2 else []) r.2.1 }

/-- R389: one section moved through channel 1, and its CRC compared. -/
def loadSec (a : Load) (s : Sec) : Load :=
  let l := s.bytes a.m
  let ts := s.tiles a.d
  let p := s.parts l
  if ts.isEmpty then a
  else
    p.2.foldl (loadPart s.all ts p.1)
      { a with failed := if crc32 l = s.crc then a.failed else a.failed ++ ts, stores := if s.ty = 0x10 then a.stores ++ ts else a.stores }

/-- R389: every slot of a FUSEE section whose header KIND is not 0 is committed; the headers are fetched from the memory. -/
def loadCommits (t : Nat) (a : Load) (s : Sec) : Load :=
  let l := s.bytes a.m
  (List.range 24).foldl (fun a n =>
    let o := slotOff n
    if o < s.doff ∨ s.doff + s.len ≤ o then a
    else
      let a := { a with d := residentFetch a.m (s.off + (o - s.doff)) a.d }
      if (l.getD (o - s.doff) 0).toNat = 0 then a
      else
        let ok := commitOk a.m t n
        { a with failed := if ok then a.failed else a.failed ++ [t]
                 d := a.d.onTFus t fun y => { y with status := if ok then 0 else 1, valid := if ok then y.valid.set n true else y.valid } }) a

/-- R389: FUS_MAPW for every map byte of a FUSEE section that is not 0xFF; the bytes are fetched from the memory, the last of them last. -/
def loadMap (t : Nat) (a : Load) (s : Sec) : Load :=
  let l := s.bytes a.m
  let last := min 0xF180 (s.doff + s.len)
  let a := if last ≤ max 0xF080 s.doff then a else { a with d := residentFetch a.m (s.off + (last - 1 - s.doff)) a.d }
  (List.range 256).foldl (fun a i =>
    let o := 0xF080 + i
    let v := (l.getD (o - s.doff) 0xFF).toNat
    if o < s.doff ∨ s.doff + s.len ≤ o ∨ v = 0xFF then a
    else
      let st := if 24 ≤ v ∧ v ≠ 0x1F then 1 else mapStatus a.m (a.d.tl t) t v (i / 64) (i % 64)
      let d := a.d.onTFus t fun y => { y with status := st }
      if st = 0 then { a with d := d, m := Mem.write a.m (storeBase t + o) (BitVec.ofNat 8 (if v = 0x1F then 0xFF else v)) }
      else { a with d := d, failed := a.failed ++ [t] }) a

/-- R389: the codes of Table 5-6 for every core of a failed tile. -/
def defaultCodes (t : Nat) (m : List Host.Cell) (d : Dev) : List Host.Cell × Dev :=
  fmaxPut t 0 ((List.range 43008).map fun o => fmaxDefault (o % 4)) m d

/-- A tile that takes no write of the Ridge: in reset, or unreachable. -/
def Dev.shutT (d : Dev) (t : Nat) : Bool := (d.tl t).rst || d.lostT t

/-- R136, R389: commits, then maps, of the stores loaded into a tile; a failed tile takes the default codes. -/
def loadTile (secs : List Sec) (a : Load) (t : Nat) : Load :=
  let mine := secs.filter fun s => s.ty == 0x10 && (s.tiles a.d).contains t
  let a := if a.d.shutT t then a else mine.foldl (loadMap t) (mine.foldl (loadCommits t) a)
  if a.failed.contains t then
    let r := if a.d.shutT t then (a.m, a.d) else defaultCodes t a.m a.d
    { a with m := r.1, d := r.2.onBoot fun b => { b with failedTiles := b.failedTiles ++ [t] } }
  else { a with d := a.d.onBoot fun b => { b with loadedTiles := if a.stores.contains t then b.loadedTiles ++ [t] else b.loadedTiles } }

/-- R389: the load: the directory is fetched, the sections are moved, FMAX, FUSEE and AGE in that order, and then each tile's store is committed and mapped. -/
def loadImage (m : List Host.Cell) (d : Dev) : List Host.Cell × Dev :=
  let secs := imgSecs m
  let d := residentFetch m (31 + 16 * imgCount m) (d.onBoot fun b => { b with loadedTiles := [], failedTiles := [] })
  let a := ([0x11, 0x10, 0x12].flatMap fun ty => secs.filter (·.ty == ty)).foldl loadSec { m := m, d := d }
  let a := d.tilesOn.foldl (loadTile secs) a
  (a.m, a.d.onBoot fun b => { b with tfail := b.failedTiles.length })

/-- Table 11-5, first row: once every present tile's array self-test has ended, the load and START. -/
def coldStart (m : List Host.Cell) (d : Dev) : List Host.Cell × Dev :=
  if !d.boot.startDue || !(d.tilesOn.all fun t => 2 ≤ (d.mir t).cur.tile.rem.bist) then (m, d)
  else
    let r := if d.boot.nvimg then loadImage m d else (m, d)
    let d := r.2.onBoot fun b => { b with startDue := false }
    (r.1, if d.boot.straps.vsel = 3 then d else (devWrite .ridge 0x6000 1 d).2)

/-- Table 11-5, second and third rows: RUN on every tile whose store was loaded. -/
def giveRun (d : Dev) : Dev :=
  d.on (d.boot.runDue && d.seq.railsGood) fun d =>
    (d.boot.loadedTiles.filter fun t => d.hasT t && !(d.mir t).cur.tile.fus.run).foldl (fun d t => (writeFar .ridge t 0xA00 1 0x1D 0 d).2)
      (d.onBoot fun b => { b with runDue := false })

/-- Table 11-5: the resident Ridge program at an epoch boundary. -/
def ridgeEpoch (m : List Host.Cell) (d : Dev) : List Host.Cell × Dev :=
  if !d.ridge.resident then (m, d)
  else
    let first := d.ridge.epochs == 1 && 3 ≤ d.ridge.rcause
    let d := autoRelease (autoAck (ridgeCaps first (d.on first ridgeRegroup)))
    let r := coldStart m d
    (r.1, giveRun r.2)

end Sys2Proof.Machine
end

