-- ==== Sys2Proof/Machine/Boundaries.lean ====
section
/-!
DEFINITION. Sys2Proof/Machine/Boundaries.lean: the outer, tick, epoch and millisecond boundaries of the Balance clocks (R12, R34) and the scrubber's passes
(R260, R261). Each boundary command is the next one of its kind: its instant is its count times its length.
-/
namespace Sys2Proof.Machine

/-- R92, R97, R99, R104: what the samples of every tile have still to bring by `ns`. -/
def catchAll (ns : Nat) (d : Dev) : Dev := catchUp ns d.tilesOn d

/-- OUTER_BOUNDARY (R125, R159, R305, R401). -/
def outerBoundary (m : List Host.Cell) (missed : List Nat) (d : Dev) : Dev :=
  let n := d.clk.outer + 1
  let d := catchAll (384 * n) d
  let d := { d with clk := { d.clk with outer := n, now := max d.clk.now (384 * n) } }
  evAll 2 (formMirrors (lostCheck (outerTiles m missed d)))

/-- Table 10-8: event TIMER at the first tick at which TICK has reached TCMP. -/
def tickTimer (tick : Nat) (k : CoreId) (d : Dev) : Dev :=
  let x := d.core k
  if x.timer && !(nw tick - x.tcmp).msb then ev k 5 (d.onCore k fun x => { x with timer := false }) else d

/-- TICK_BOUNDARY (R200 to R214, R254, R280, R286). -/
def tickBoundary (m : List Host.Cell) (uv : Nat) (d : Dev) : Dev :=
  let n := d.clk.tick + 1
  let d := catchAll (1000 * n) d
  let d := { d with clk := { d.clk with tick := n, now := max d.clk.now (1000 * n) } }
  let d := (tickPlant m uv d).onLnk LinkDev.tick
  let d := d.cores.foldl (fun d k => sendOut k (d.onCore k Core.tickDog)) d
  evAll 0 (d.cores.foldl (fun d k => tickTimer n k d) d)

/-- R219: PMEAN of the epoch just ended. -/
def epochMean (d : Dev) : Dev :=
  let b := d.bud
  { d with bud := { b with pmean := if b.pcnt = 0 then b.pmean else shown 24 b.psum (1000 * b.pcnt), psum := 0, pcnt := 0
                           slack := b.slack.map fun (s : Slack) => { s with age := incSat 1023 s.age } } }

/-- EPOCH_BOUNDARY (R201, R215, R220, R222, R323, R324): the hardware's part, then the programs'. -/
def epochBoundary (m : List Host.Cell) (d : Dev) : List Host.Cell × Dev :=
  let n := d.clk.epoch + 1
  let d := catchAll (100000 * n) d
  let d := { d with clk := { d.clk with epoch := n, now := max d.clk.now (100000 * n) } }
  let d := linkEpoch (epochMean (epochLatch d))
  let d := evAll 1 (d.cores.foldl (fun d k => d.onCore k fun x => if x.runs then { x with epochs := x.epochs + 1 } else x) d)
  let r := d.tilesOn.foldl (fun (r : List Host.Cell × Dev) t => rafterEpoch t r.1 r.2) (m, d.offering)
  ridgeEpoch r.1 r.2

/-- MILLISECOND_BOUNDARY (R347, R354). -/
def msBoundary (d : Dev) : Dev :=
  let n := d.clk.ms + 1
  let d := catchAll (1000000 * n) d
  let l := d.log
  let fill := fun (k : Nat) => min (1000 * l.burst) (k + l.rate)
  { d with
    clk := { d.clk with ms := n, now := max d.clk.now (1000000 * n) }
    log := { l with buckets := l.buckets.map (fun (b : Bucket) => { b with tokens := fill b.tokens }), base := fill l.base
                    optime := (l.optime + 1) % 2 ^ 40, hbeat := l.hbeat + 1 } }

/-! ### Scrubbing (R260, R261) -/

/-- SCRUB_PASS (R260, R261): corrected words, double-bit words, and whether the pass overran its period by more than half. The words are those that the
scrubber and the functional reads met since the pass before; with EN 0 there is no pass, and they are those of the functional reads alone (R266; log 38). -/
def scrubPass (corrected : Nat) (bad : List EccPlace) (late : Bool) (d : Dev) : Dev :=
  let d := eccWords corrected bad d
  d.on (tst d.flt.scrub 0) fun d =>
    let d := d.on late (raise 8 11 .device 0)
    d.onFlt fun f => { f with passes := incSat 0xFFFF f.passes }

/-! ### Meanings -/

/-- PERIOD_BOUNDARY (R43, R72, R73, R92, R96, R149, R210). -/
def execPeriodBoundary (s : State) : Host.Outcome State Fault Refusal := fin s (period (catchAll (48 * (s.dev.clk.per + 1)) s.dev))

/-- SWITCHING_BOUNDARY (R45, R46, R48, R92, R166 to R168, R192, R193). -/
def execSwitchingBoundary (rd : List CellReading) (s : State) : Host.Outcome State Fault Refusal :=
  fin s (switching rd (catchAll (6 * (s.dev.clk.sw + 1)) s.dev))

/-- OUTER_BOUNDARY (R125). -/
def execOuterBoundary (missed : List Nat) (s : State) : Host.Outcome State Fault Refusal := fin s (outerBoundary s.mem missed s.dev)

/-- TICK_BOUNDARY (R208). -/
def execTickBoundary (marginMicrovolts : Nat) (s : State) : Host.Outcome State Fault Refusal := fin s (tickBoundary s.mem marginMicrovolts s.dev)

/-- EPOCH_BOUNDARY (R201). -/
def execEpochBoundary (s : State) : Host.Outcome State Fault Refusal :=
  let r := epochBoundary s.mem s.dev
  finM s r.1 r.2

/-- MILLISECOND_BOUNDARY (R354). -/
def execMillisecondBoundary (s : State) : Host.Outcome State Fault Refusal := fin s (msBoundary s.dev)

/-- SCRUB_PASS (R261). -/
def execScrubPass (corrected : Nat) (bad : List EccPlace) (late : Bool) (s : State) : Host.Outcome State Fault Refusal :=
  fin s (scrubPass corrected bad late s.dev)

end Sys2Proof.Machine
end

