-- ==== Sys2Proof/Machine/Dispatch.lean ====
section
/-!
DEFINITION. Sys2Proof/Machine/Dispatch.lean: the meaning of every command, one arm each.
-/
namespace Sys2Proof.Machine

/-- The effect of a command on everything but the queue of waiting commands. -/
def exec (i : Instr) (s : State) : Host.Outcome State Fault Refusal :=
  match i with
  | .switchingBoundary rd => Sys2Proof.Machine.execSwitchingBoundary rd s
  | .pulseStart t c r p => Sys2Proof.Machine.execPulseStart t c r p s
  | .cycleLimit t c r p => Sys2Proof.Machine.execCycleLimit t c r p s
  | .hiccup t c r p => Sys2Proof.Machine.execHiccup t c r p s
  | .hiccupRetry t c r ns => Sys2Proof.Machine.execHiccupRetry t c r ns s
  | .retryCountReset t c r ns => Sys2Proof.Machine.execRetryCountReset t c r ns s
  | .uvlo t c r => Sys2Proof.Machine.execUvlo t c r s
  | .uvloRestart t c r => Sys2Proof.Machine.execUvloRestart t c r s
  | .short t c r p stuckClosed => Sys2Proof.Machine.execShort t c r p stuckClosed s
  | .overshootTruncation t c r => Sys2Proof.Machine.execOvershootTruncation t c r s
  | .droopAssert t c r ns => Sys2Proof.Machine.execDroopAssert t c r ns s
  | .droopDeassert t c ns => Sys2Proof.Machine.execDroopDeassert t c ns s
  | .droopHoldoffEnd t c ns => Sys2Proof.Machine.execDroopHoldoffEnd t c ns s
  | .periodBoundary => Sys2Proof.Machine.execPeriodBoundary s
  | .fallbackDutyWrite t c r => Sys2Proof.Machine.execFallbackDutyWrite t c r s
  | .clusterSample t c errs => Sys2Proof.Machine.execClusterSample t c errs s
  | .voteRepeat t c errs => Sys2Proof.Machine.execVoteRepeat t c errs s
  | .handover t c => Sys2Proof.Machine.execHandover t c s
  | .loopStall t c => Sys2Proof.Machine.execLoopStall t c s
  | .returnCluster w t c => Sys2Proof.Machine.execReturnCluster w t c s
  | .halt w t on => Sys2Proof.Machine.execHalt w t on s
  | .dual w t on => Sys2Proof.Machine.execDual w t on s
  | .arraySelftestDone t failing => Sys2Proof.Machine.execArraySelftestDone t failing s
  | .outerBoundary missed => Sys2Proof.Machine.execOuterBoundary missed s
  | .shadowMirror t => Sys2Proof.Machine.execShadowMirror t s
  | .shadowLatchExpiry rdr t ns => Sys2Proof.Machine.execShadowLatchExpiry rdr t ns s
  | .tickBoundary marginMicrovolts => Sys2Proof.Machine.execTickBoundary marginMicrovolts s
  | .marginPPeriod high => Sys2Proof.Machine.execMarginPPeriod high s
  | .marginPLoss => Sys2Proof.Machine.execMarginPLoss s
  | .epochBoundary => Sys2Proof.Machine.execEpochBoundary s
  | .hintWord t w ns => Sys2Proof.Machine.execHintWord t w ns s
  | .hint t ns => Sys2Proof.Machine.execHint t ns s
  | .quietWindowMarker t ns => Sys2Proof.Machine.execQuietWindowMarker t ns s
  | .slackReport t ns => Sys2Proof.Machine.execSlackReport t ns s
  | .nextEventTime t ns => Sys2Proof.Machine.execNextEventTime t ns s
  | .cancel t ns => Sys2Proof.Machine.execCancel t ns s
  | .forecastScore t id ns => Sys2Proof.Machine.execForecastScore t id ns s
  | .quietWindowStart t c => Sys2Proof.Machine.execQuietWindowStart t c s
  | .quietWindowEnd t c => Sys2Proof.Machine.execQuietWindowEnd t c s
  | .opreq t w => Sys2Proof.Machine.execOpreq t w s
  | .freq t w => Sys2Proof.Machine.execFreq t w s
  | .fack t w => Sys2Proof.Machine.execFack t w s
  | .cpm t w => Sys2Proof.Machine.execCpm t w s
  | .returnSlot t => Sys2Proof.Machine.execReturnSlot t s
  | .fackTimeout t tnum ns => Sys2Proof.Machine.execFackTimeout t tnum ns s
  | .admissionDeferExpiry t c ns => Sys2Proof.Machine.execAdmissionDeferExpiry t c ns s
  | .start w => Sys2Proof.Machine.execStart w s
  | .stop w => Sys2Proof.Machine.execStop w s
  | .seqClspWrite w t c v => Sys2Proof.Machine.execSeqClspWrite w t c v s
  | .seqCllimWrite w t c v => Sys2Proof.Machine.execSeqCllimWrite w t c v s
  | .seqClpsWrite w t c v => Sys2Proof.Machine.execSeqClpsWrite w t c v s
  | .seqClgrWrite w t c v => Sys2Proof.Machine.execSeqClgrWrite w t c v s
  | .cpmClear w t clr => Sys2Proof.Machine.execCpmClear w t clr s
  | .capWrite w t c v => Sys2Proof.Machine.execCapWrite w t c v s
  | .devlimWrite w v => Sys2Proof.Machine.execDevlimWrite w v s
  | .localWrite w v => Sys2Proof.Machine.execLocalWrite w v s
  | .groupBudgetWrite w g v => Sys2Proof.Machine.execGroupBudgetWrite w g v s
  | .boardAlert ns => Sys2Proof.Machine.execBoardAlert ns s
  | .alertRelease w => Sys2Proof.Machine.execAlertRelease w s
  | .linkTrained side width => Sys2Proof.Machine.execLinkTrained side width s
  | .linkTrainRetry side => Sys2Proof.Machine.execLinkTrainRetry side s
  | .linkBlockTimeout side => Sys2Proof.Machine.execLinkBlockTimeout side s
  | .retrain w => Sys2Proof.Machine.execRetrain w s
  | .forget w pos => Sys2Proof.Machine.execForget w pos s
  | .epoch side frame => Sys2Proof.Machine.execEpoch side frame s
  | .report side frame => Sys2Proof.Machine.execReport side frame s
  | .alloc side frame => Sys2Proof.Machine.execAlloc side frame s
  | .collectionClose => Sys2Proof.Machine.execCollectionClose s
  | .heartbeatLoss => Sys2Proof.Machine.execHeartbeatLoss s
  | .thermalRead raw => Sys2Proof.Machine.execThermalRead raw s
  | .thermalEvaluation => Sys2Proof.Machine.execThermalEvaluation s
  | .thmRelease w t c => Sys2Proof.Machine.execThmRelease w t c s
  | .thmRestore w t c => Sys2Proof.Machine.execThmRestore w t c s
  | .faultAck w n v => Sys2Proof.Machine.execFaultAck w n v s
  | .safeEnter w => Sys2Proof.Machine.execSafeEnter w s
  | .safeRelease w => Sys2Proof.Machine.execSafeRelease w s
  | .scrubPass corrected bad late => Sys2Proof.Machine.execScrubPass corrected bad late s
  | .add k a b c => Sys2Proof.Machine.execAdd k a b c s
  | .sub k a b c => Sys2Proof.Machine.execSub k a b c s
  | .and k a b c => Sys2Proof.Machine.execAnd k a b c s
  | .or k a b c => Sys2Proof.Machine.execOr k a b c s
  | .xor k a b c => Sys2Proof.Machine.execXor k a b c s
  | .shl k a b c => Sys2Proof.Machine.execShl k a b c s
  | .shr k a b c => Sys2Proof.Machine.execShr k a b c s
  | .sra k a b c => Sys2Proof.Machine.execSra k a b c s
  | .mul k a b c => Sys2Proof.Machine.execMul k a b c s
  | .mulq k a b c => Sys2Proof.Machine.execMulq k a b c s
  | .clamp k a b c => Sys2Proof.Machine.execClamp k a b c s
  | .addi k a b imm18 => Sys2Proof.Machine.execAddi k a b imm18 s
  | .andi k a b imm18 => Sys2Proof.Machine.execAndi k a b imm18 s
  | .ori k a b imm18 => Sys2Proof.Machine.execOri k a b imm18 s
  | .xori k a b imm18 => Sys2Proof.Machine.execXori k a b imm18 s
  | .lui k a imm18 => Sys2Proof.Machine.execLui k a imm18 s
  | .shli k a b sh => Sys2Proof.Machine.execShli k a b sh s
  | .shri k a b sh => Sys2Proof.Machine.execShri k a b sh s
  | .srai k a b sh => Sys2Proof.Machine.execSrai k a b sh s
  | .ldw k a b imm18 => Sys2Proof.Machine.execLdw k a b imm18 s
  | .ldh k a b imm18 => Sys2Proof.Machine.execLdh k a b imm18 s
  | .ldhu k a b imm18 => Sys2Proof.Machine.execLdhu k a b imm18 s
  | .ldb k a b imm18 => Sys2Proof.Machine.execLdb k a b imm18 s
  | .ldbu k a b imm18 => Sys2Proof.Machine.execLdbu k a b imm18 s
  | .stw k a b imm18 => Sys2Proof.Machine.execStw k a b imm18 s
  | .sth k a b imm18 => Sys2Proof.Machine.execSth k a b imm18 s
  | .stb k a b imm18 => Sys2Proof.Machine.execStb k a b imm18 s
  | .branch k cond imm18 => Sys2Proof.Machine.execBranch k cond imm18 s
  | .jal k a imm18 => Sys2Proof.Machine.execJal k a imm18 s
  | .jr k a b imm14 => Sys2Proof.Machine.execJr k a b imm14 s
  | .rete k => Sys2Proof.Machine.execRete k s
  | .wait k a b c dl => Sys2Proof.Machine.execWait k a b c dl s
  | .waitComplete k cycles => Sys2Proof.Machine.execWaitComplete k cycles s
  | .arm k n => Sys2Proof.Machine.execArm k n s
  | .disarm k n => Sys2Proof.Machine.execDisarm k n s
  | .raise k n => Sys2Proof.Machine.execRaise k n s
  | .mfs k a n => Sys2Proof.Machine.execMfs k a n s
  | .mts k b n => Sys2Proof.Machine.execMts k b n s
  | .undefinedEncoding k w => Sys2Proof.Machine.execUndefinedEncoding k w s
  | .eventEntry k => Sys2Proof.Machine.execEventEntry k s
  | .watchdogExpiry k => Sys2Proof.Machine.execWatchdogExpiry k s
  | .setp k b c imm14 => Sys2Proof.Machine.execSetp k b c imm14 s
  | .pstate k b imm14 => Sys2Proof.Machine.execPstate k b imm14 s
  | .capset k b c imm14 => Sys2Proof.Machine.execCapset k b c imm14 s
  | .fmaxw k b c imm14 => Sys2Proof.Machine.execFmaxw k b c imm14 s
  | .tblsel k b imm14 => Sys2Proof.Machine.execTblsel k b imm14 s
  | .qry k a b imm14 => Sys2Proof.Machine.execQry k a b imm14 s
  | .post k b c imm14 => Sys2Proof.Machine.execPost k b c imm14 s
  | .send k b c imm14 => Sys2Proof.Machine.execSend k b c imm14 s
  | .recv k a b imm14 => Sys2Proof.Machine.execRecv k a b imm14 s
  | .trig k b imm14 => Sys2Proof.Machine.execTrig k b imm14 s
  | .grant k b imm14 => Sys2Proof.Machine.execGrant k b imm14 s
  | .operationArrival src t => Sys2Proof.Machine.execOperationArrival src t s
  | .lateRefusal dst => Sys2Proof.Machine.execLateRefusal dst s
  | .messageDelivery src t => Sys2Proof.Machine.execMessageDelivery src t s
  | .hostWrite addr be v => Sys2Proof.Machine.execHostWrite addr be v s
  | .shstampRead rdr t => Sys2Proof.Machine.execShstampRead rdr t s
  | .rcRead rdr addr => Sys2Proof.Machine.execRcRead rdr addr s
  | .wideRead rdr addr => Sys2Proof.Machine.execWideRead rdr addr s
  | .hlrefRead rdr => Sys2Proof.Machine.execHlrefRead rdr s
  | .nop => Sys2Proof.Machine.execNop s
  | .cmdSetp => Sys2Proof.Machine.execCmdSetp s
  | .cmdPstate => Sys2Proof.Machine.execCmdPstate s
  | .cmdCapset => Sys2Proof.Machine.execCmdCapset s
  | .cmdFmaxw => Sys2Proof.Machine.execCmdFmaxw s
  | .cmdTblsel => Sys2Proof.Machine.execCmdTblsel s
  | .cmdQry => Sys2Proof.Machine.execCmdQry s
  | .cmdTrig => Sys2Proof.Machine.execCmdTrig s
  | .cmdGrant => Sys2Proof.Machine.execCmdGrant s
  | .write => Sys2Proof.Machine.execWrite s
  | .read => Sys2Proof.Machine.execRead s
  | .fence => Sys2Proof.Machine.execFence s
  | .fenceComplete => Sys2Proof.Machine.execFenceComplete s
  | .waitt => Sys2Proof.Machine.execWaitt s
  | .waittComplete => Sys2Proof.Machine.execWaittComplete s
  | .ping => Sys2Proof.Machine.execPing s
  | .userCommand => Sys2Proof.Machine.execUserCommand s
  | .unknownOpcode => Sys2Proof.Machine.execUnknownOpcode s
  | .programCommandDone v => Sys2Proof.Machine.execProgramCommandDone v s
  | .programCommandTimeout => Sys2Proof.Machine.execProgramCommandTimeout s
  | .commandRingFetch w0 w1 w2 w3 => Sys2Proof.Machine.execCommandRingFetch w0 w1 w2 w3 s
  | .commandRingEnable w on => Sys2Proof.Machine.execCommandRingEnable w on s
  | .rhalt w on => Sys2Proof.Machine.execRhalt w on s
  | .rstart w => Sys2Proof.Machine.execRstart w s
  | .fstartall w => Sys2Proof.Machine.execFstartall w s
  | .fhaltall w => Sys2Proof.Machine.execFhaltall w s
  | .frelall w => Sys2Proof.Machine.execFrelall w s
  | .rafterHalt w t on => Sys2Proof.Machine.execRafterHalt w t on s
  | .rafterStart w t => Sys2Proof.Machine.execRafterStart w t s
  | .loadCheck k => Sys2Proof.Machine.execLoadCheck k s
  | .fusCommit w t slot => Sys2Proof.Machine.execFusCommit w t slot s
  | .fusInvalidate w t slot => Sys2Proof.Machine.execFusInvalidate w t slot s
  | .fusMapw w t v => Sys2Proof.Machine.execFusMapw w t v s
  | .fusCommandComplete t => Sys2Proof.Machine.execFusCommandComplete t s
  | .run w t on => Sys2Proof.Machine.execRun w t on s
  | .fusClctlWrite w t c v => Sys2Proof.Machine.execFusClctlWrite w t c v s
  | .armTrace w t => Sys2Proof.Machine.execArmTrace w t s
  | .stopTrace w t => Sys2Proof.Machine.execStopTrace w t s
  | .forceTrace w t => Sys2Proof.Machine.execForceTrace w t s
  | .armall w => Sys2Proof.Machine.execArmall w s
  | .forceall w => Sys2Proof.Machine.execForceall w s
  | .traceCrossTrigger t => Sys2Proof.Machine.execTraceCrossTrigger t s
  | .dmaEnable w n on => Sys2Proof.Machine.execDmaEnable w n on s
  | .dmaTailWrite w n v => Sys2Proof.Machine.execDmaTailWrite w n v s
  | .descriptorFetch n words => Sys2Proof.Machine.execDescriptorFetch n words s
  | .sourceBurst n data bad => Sys2Proof.Machine.execSourceBurst n data bad s
  | .destinationBurst n => Sys2Proof.Machine.execDestinationBurst n s
  | .descriptorWriteback n => Sys2Proof.Machine.execDescriptorWriteback n s
  | .abort w n => Sys2Proof.Machine.execAbort w n s
  | .resume w n => Sys2Proof.Machine.execResume w n s
  | .skip w n => Sys2Proof.Machine.execSkip w n s
  | .busError n addr => Sys2Proof.Machine.execBusError n addr s
  | .nvTimeout n => Sys2Proof.Machine.execNvTimeout n s
  | .nvFetch w v => Sys2Proof.Machine.execNvFetch w v s
  | .nvFetchDone ok => Sys2Proof.Machine.execNvFetchDone ok s
  | .flushPage ok => Sys2Proof.Machine.execFlushPage ok s
  | .optimeSecond => Sys2Proof.Machine.execOptimeSecond s
  | .millisecondBoundary => Sys2Proof.Machine.execMillisecondBoundary s
  | .heartbeat => Sys2Proof.Machine.execHeartbeat s
  | .flush w => Sys2Proof.Machine.execFlush w s
  | .freeze w => Sys2Proof.Machine.execFreeze w s
  | .thaw w => Sys2Proof.Machine.execThaw w s
  | .freezeExpiry => Sys2Proof.Machine.execFreezeExpiry s
  | .nonce w => Sys2Proof.Machine.execNonce w s
  | .nonceExpiry => Sys2Proof.Machine.execNonceExpiry s
  | .clear w => Sys2Proof.Machine.execClear w s
  | .clearEraseDone => Sys2Proof.Machine.execClearEraseDone s
  | .powerFail => Sys2Proof.Machine.execPowerFail s
  | .coldReset => Sys2Proof.Machine.execColdReset s
  | .coldBoot straps nv refPresent => Sys2Proof.Machine.execColdBoot straps nv refPresent s
  | .bootStageComplete failedCells => Sys2Proof.Machine.execBootStageComplete failedCells s
  | .warmReset => Sys2Proof.Machine.execWarmReset s
  | .warmFastPath corrected bad => Sys2Proof.Machine.execWarmFastPath s corrected bad
  | .fastPathDone => Sys2Proof.Machine.execFastPathDone s
  | .tileReset t => Sys2Proof.Machine.execTileReset t s
  | .tileResetEnd t => Sys2Proof.Machine.execTileResetEnd t s
  | .keyWord w consecutive => Sys2Proof.Machine.execKeyWord w consecutive s
  | .avsSet w v => Sys2Proof.Machine.execAvsSet w v s
  | .avsRetry => Sys2Proof.Machine.execAvsRetry s
  | .avsReadback mv => Sys2Proof.Machine.execAvsReadback mv s
  | .refloss => Sys2Proof.Machine.execRefloss s
  | .holdoverExpiry => Sys2Proof.Machine.execHoldoverExpiry s
  | .referenceReturn => Sys2Proof.Machine.execReferenceReturn s
  | .refret => Sys2Proof.Machine.execRefret s
  | .extest bits => Sys2Proof.Machine.execExtest s bits
  | .idcode => Sys2Proof.Machine.execIdcode s
  | .samplePreload bits => Sys2Proof.Machine.execSamplePreload s bits
  | .corestop => Sys2Proof.Machine.execCorestop s
  | .loopstop => Sys2Proof.Machine.execLoopstop s
  | .selftest => Sys2Proof.Machine.execSelftest s
  | .hostacc dr => Sys2Proof.Machine.execHostacc dr s
  | .bypass code => Sys2Proof.Machine.execBypass s code
  | .flitCrcError t port again => Sys2Proof.Machine.execFlitCrcError t port s again
  | .portFramingLoss t port => Sys2Proof.Machine.execPortFramingLoss t port s
  | .purlinRetry w t => Sys2Proof.Machine.execPurlinRetry w t s
  | .portRetrained t port => Sys2Proof.Machine.execPortRetrained t port s
  | .oscillatorGlideComplete offset => Sys2Proof.Machine.execOscillatorGlideComplete offset s
  | .linkFrameCrcError side => Sys2Proof.Machine.execLinkFrameCrcError side s
  | .malformedRequestFrame t w => Sys2Proof.Machine.execMalformedRequestFrame t w s
  | .bootstrapComplete t c => Sys2Proof.Machine.execBootstrapComplete t c s
  | .cellPowerUpComplete t c => Sys2Proof.Machine.execCellPowerUpComplete t c s
  | .avsbusAcknowledge => Sys2Proof.Machine.execAvsbusAcknowledge s
  | .brdAlertNHigh ns => Sys2Proof.Machine.execBrdAlertNHigh ns s

end Sys2Proof.Machine
end

