-- ==== Sys2Proof/Machine/Step.lean ====
section
/-!
DEFINITION. Sys2Proof/Machine/Step.lean: the step: the command at the front of the queue acts. An empty queue leaves the block as it is (log 40): what time
brings comes as the boundary and expiry commands of the table.
-/
namespace Sys2Proof.Machine

/-- One step of the block. -/
def step (s : State) : Host.Outcome State Fault Refusal :=
  match s.pending with
  | [] => .next s
  | i :: l => exec i { s with pending := l }

/-- The command that a word of the table spells, put in front of the queue; the table gives no row any bits, so none (log 41). -/
def State.withFetchWord (s : State) (nbits w : Nat) : State :=
  match decodeTableWord nbits w with
  | some i => { s with pending := i :: s.pending }
  | none => s

end Sys2Proof.Machine
end

