-- ==== Sys2Proof/Safety.lean ====
section
/-!
DEFINITION. Sys2Proof/Safety.lean: what holds of the block between commands, and which commands may write its byte memories.
-/
namespace Sys2Proof.Machine

/-- What holds between commands: memory in canonical form, and the model's lists of fault handling and of records offered empty. -/
abbrev State.Inv (s : State) : Prop := Memory.wf s.mem = true ∧ s.dev.flt.todo = [] ∧ s.dev.log.offers = none

/-- A run of `n` steps never leaves the states in which `p` holds. -/
def Safe (p : State → Prop) : Nat → State → Prop
  | 0, s => p s
  | n + 1, s => p s ∧ match step s with | .next t => Safe p n t | _ => False

/-- The commands whose effect may reach a byte memory. Every other command leaves every byte as it was. -/
def writesMem : Instr → Bool
  | .stw .. | .sth .. | .stb .. | .undefinedEncoding .. | .recv .. | .fmaxw .. | .operationArrival .. | .hostWrite .. | .write | .hostacc .. => true
  | .fusCommandComplete .. | .destinationBurst .. | .descriptorWriteback .. | .commandRingFetch .. => true
  | .flushPage .. | .clearEraseDone | .epochBoundary | .coldReset => true
  | _ => false

/-! ### What closing a command may add

Whatever a command does, handling the faults it raises (R244 to R248), taking records (R346), making program events pending (R280) and queuing
changed limits (R161) may follow in the same step. `hard` is the block without the parts these may change, each of them put to its reset value. -/

/-- Fault handling may cancel a cell's pending sheds (R67, R246). -/
def Cell.hard (x : Cell) : Cell := { x with shed := .steady, shedRun := 0 }

/-- It may move a cluster to another state (R25, R177), which leaves its slewed reference, the words written to its registers and what is in force of
them. -/
def ClSeq.hard (q : ClSeq) : ClSeq :=
  { ({} : ClSeq) with ref := q.ref, cllim := q.cllim, clcfg := q.clcfg, cllimE := q.cllimE, clcfgE := q.clcfgE, bounds := q.bounds, grants := q.grants, clgr := q.clgr
                      clgrE := q.clgrE, clps := q.clps, force := q.force, fstate := q.fstate, flast := q.flast, lateAt := q.lateAt }

/-- It may isolate a cluster, end its windows and its ladder, set its event bits, mark it (R244, R246) and choose its feedforward band for a new target
(R159). -/
def Cluster.hard (k : Cluster) : Cluster :=
  { k with
    isolated := false, cells := k.cells.map Cell.hard, seq := k.seq.hard
    esc := { k.esc with wins := [], guardOn := false, guardMove := false, nextTok := none, fband := 0 }
    bud := { k.bud with ladder := {} }
    loop := { k.loop with cellev := 0 }, fus := { k.fus with plev := 0, degraded := false } }

/-- It may set event bits, DUAL (R244), pending program events and the queues of a tile's port, take a cluster out of its edges, and
let a withheld trust change take effect (R149). -/
def Tile.hard (x : Tile) : Tile :=
  { x with
    clusters := x.clusters.map Cluster.hard, noFeed := false, core := { x.core with evpend := 0 }
    esc := { x.esc with edges := [], past := [], ev := 0, trust := 0, defer := 0 }
    pal := { x.pal with forced := [], lowered := [], rest := [], value := [], awaits := [], own := 0 }
    rem := { x.rem with mmev := 0, ctrl := setBit x.rem.ctrl 0 }, fus := { x.fus with banderr := false, wlive := false } }

/-- What taking a record and starting a flush leave of the recorder. -/
def LogDev.hard (l : LogDev) : LogDev :=
  { l with buf := [], seq := 0, buckets := [], frzlost := 0, frzN := 0, drop := 0, dropN := 0, lostDue := false, frzTaken := 0, rlcnt := 0, ev := 0,
           flush := none, again := false, frzHeld := false, port := 0, portR := 0, offers := none }

/-- The settings of the fault unit. -/
def FaultDev.hard (f : FaultDev) : FaultDev :=
  { f with pend := [], count := List.replicate 11 0, degraded := false, safe := false, safeSub := 0, safeSrc := 0, gen := 0, isoTile := 0, isoCluster := 0
           todo := [], tdeg := [] }

/-- The block without the parts that the closing of a command may change. -/
def Dev.hard (d : Dev) : Dev :=
  { d with
    tiles := d.tiles.map Tile.hard, flt := d.flt.hard, log := d.log.hard, ridge := { d.ridge with evpend := 0 }
    seq := { d.seq with ev := 0, next := 0 }, bud := { d.bud with ev := 0 }, lnk := { d.lnk with ev := 0 }
    thm := { d.thm with ev := 0 }, pur := { d.pur with gev := 0 } }

/-- The block without the queues of the tiles' ports, in which changed limits are sent (R161, R183). -/
def Dev.butPallets (d : Dev) : Dev := { d with tiles := d.tiles.map fun x => { x with pal := {} } }

/-- A fault of a source in a scope instance is pending (R248). -/
def Dev.pends (d : Dev) (sub src : Nat) (sc : Scope) : Prop := d.flt.pend.any (·.is sub src sc) = true

/-- `e` is `d` after fault handling, records, events and limits alone: the rest stands, and no pending fault is lost. -/
structure Dev.Aside (d e : Dev) : Prop where
  hard : e.hard = d.hard
  pends : ∀ sub src sc, d.pends sub src sc → e.pends sub src sc
  safe : d.flt.safe = true → e.flt.safe = true

/-! ### Words of the statements -/

/-- Command `i` leaves the block `d`, and memory and the queue as they were. -/
def State.gives (s : State) (i : Instr) (d : Dev) : Prop := exec i s = .next { s with dev := d }

/-- Command `i` leaves the block `d` but for what its closing adds, with these faults pending, and memory and the queue as they were. -/
def State.leads (s : State) (i : Instr) (d : Dev) (faults : List (Nat × Nat × Scope)) : Prop :=
  ∃ t, exec i s = .next t ∧ t.mem = s.mem ∧ t.pending = s.pending ∧ d.Aside t.dev ∧ ∀ f ∈ faults, t.dev.pends f.1 f.2.1 f.2.2

/-- Command `i` leaves memory and the queue as they were, and a block of which `p` holds. -/
def State.makes (s : State) (i : Instr) (p : Dev → Prop) : Prop :=
  ∃ t, exec i s = .next t ∧ t.mem = s.mem ∧ t.pending = s.pending ∧ p t.dev

/-- R272, R308, R377: the writer reaches the device registers: the Ridge, the boot logic, and the host and test ports while they are open. -/
def Dev.reached (d : Dev) (w : Writer) : Prop := match w with | .rafter _ => False | .ridge | .boot => True | .host | .test => d.hp.closed = false

/-- R308, R365: the block after a write at `a` by `w` that ended with status `st`: the write status of the ports, and the host port's response. -/
def Dev.answered (d : Dev) (w : Writer) (a st : Nat) : Dev :=
  let h := { d.hp with wstatAddr := a, wstat := st, rej := if st = 0 then d.hp.rej else min 255 (d.hp.rej + 1) }
  match w with
  | .host => { d with hp := { h with stat := st } }
  | .test => { d with hp := h }
  | _ => d

/-- R272, R388: the writer acts on a tile's registers at once: the boot logic, and the tile's own Rafter. -/
def actsLive (w : Writer) (t : Nat) : Prop := w = .boot ∨ w = .rafter t

/-- R24: the authority class of such a writer. -/
def liveClass (w : Writer) : Nat := if w = .boot then 7 else 9

/-- The state with one core changed. -/
def State.onCore (s : State) (k : CoreId) (f : Core → Core) : State := { s with dev := s.dev.onCore k f }

/-- R277: result `r` in g[a], Z and N from it, C and V as given, `n` cycles, the next instruction. -/
def Core.result (x : Core) (a : Nat) (r : Word) (c v : Bool) (n : Nat) : Core :=
  { x.wr a r with z := r == 0, n := r.msb, c := c, v := v, pc := x.pc + 4, cycle := x.cycle + n }

/-- R276: an instruction of op `op` completes with status `st`, one cycle, the next instruction. -/
def Core.complete (x : Core) (op st : Nat) : Core :=
  { x with
    e := decide (st ≠ 0), errOp := op, errStatus := st, fails := if st = 0 then x.fails else min 0xFFFF (x.fails + 1), pc := x.pc + 4, cycle := x.cycle + 1 }

/-- R277: the sum of two signed words leaves the signed 32-bit range. -/
def outside (x : Int) : Bool := decide (x < -2 ^ 31 ∨ 2 ^ 31 ≤ x)

/-- R168: the block with the clusters named by `es` on a way up: one whose output is on below code 0 begins anew there. -/
def Dev.entering (d : Dev) (t : Nat) (es : Nat → Bool) : Dev :=
  d.onT t fun x => x.mapC fun c k => { k with loop := { k.loop with entry := k.loop.entry || (es c && k.loop.outOn && decide (k.seq.ref < 600000)) } }

/-- The core whose instruction a command is, for the instructions that need their core ready. -/
def kxCore : Instr → Option CoreId
  | .add k .. | .sub k .. | .and k .. | .or k .. | .xor k .. | .shl k .. | .shr k .. | .sra k .. | .mul k .. | .mulq k .. | .clamp k .. => some k
  | .addi k .. | .andi k .. | .ori k .. | .xori k .. | .lui k .. | .shli k .. | .shri k .. | .srai k .. => some k
  | .ldw k .. | .ldh k .. | .ldhu k .. | .ldb k .. | .ldbu k .. | .stw k .. | .sth k .. | .stb k .. => some k
  | .branch k .. | .jal k .. | .jr k .. | .rete k | .wait k .. | .arm k _ | .disarm k _ | .raise k _ | .mfs k .. | .mts k .. => some k
  | .undefinedEncoding k _ | .setp k .. | .pstate k .. | .capset k .. | .fmaxw k .. | .tblsel k .. | .qry k .. | .post k .. => some k
  | .send k .. | .recv k .. | .trig k .. | .grant k .. => some k
  | _ => none

/-- R273, R303: a core right after a start on its resident program, with the halts and the outcome of the latest load check that a start keeps; a
halt's cycles count from the start on. -/
def Core.restarted (x : Core) (cause now : Nat) : Core :=
  { on := true, halted := x.halted, stopped := x.stopped, dead := x.dead, chk := x.chk, rcause := cause, dirty := x.dirty && (x.halted || x.stopped)
    haltAt := if x.halted || x.stopped then now else 0 }

/-- R40, R71, R92, R97: no duty word exceeds 767: those in force, those about to be written, those of the latest sample, and those a sample that waits for
its repeat keeps. -/
def Dev.dutiesInRange (d : Dev) : Prop :=
  (∀ t c r, ((d.cl t c).cell r).duty ≤ 767 ∧ (∀ w, ((d.cl t c).cell r).fword = some w → w ≤ 767) ∧
    ∀ n w, ((d.cl t c).cell r).wnext = some (n, w) → w ≤ 767) ∧
  (∀ t c, ∀ w ∈ (d.cl t c).loop.lastW, w ≤ 767) ∧
  ∀ t, ∀ j ∈ (d.tl t).rem.queue, (∀ w ∈ j.prev, w ≤ 767) ∧ ∀ b ∈ j.lims, 0 ≤ b.1 ∧ b.1 ≤ 767 ∧ 0 ≤ b.2 ∧ b.2 ≤ 767

/-- R322, Table 10-12: a core that the host halts at `now`; one already halted stays as it is. -/
def Core.haltedAt (x : Core) (now : Nat) : Core :=
  if x.halted then x else { x with halted := true, dirty := false, haltAt := if x.stopped then x.haltAt else now }

/-- R286, R322, Table 10-12: a halted core that the host releases at `now`: its watchdog at 0, and, where the test engineer does not hold it, the cycles
of the halt counted. -/
def Core.releasedAt (x : Core) (now : Nat) : Core :=
  if x.stopped then { x with halted := false, wd := 0 }
  else { x with halted := false, wd := 0, haltAt := 0, dirty := false, cycle := x.cycle + (now - x.haltAt)
                waiting := x.waiting.map fun w => { w with since := w.since + (now - x.haltAt) } }

end Sys2Proof.Machine
end

