-- ==== Sys2Proof/Certificates/Slice0/Obligations.lean ====
section
/-!
DEFINITION. Sys2Proof/Certificates/Slice0/Obligations.lean: the statements about the block, for the provers.
-/
open Sys2Proof Sys2Proof.Machine

/-! ### Queue, reset, invariants -/

/-- A step takes the command at the front of the queue and runs it with the rest of the queue; an empty queue leaves the block as it is (log 40). -/
def Obligations.StepRunsFront : Prop :=
  ∀ (s : State) (c : Instr) (l : List Instr),
    step { s with pending := c :: l } = exec c { s with pending := l } ∧ step { s with pending := [] } = .next { s with pending := [] }

/-- Every command of the table answers a next state, leaves the queue as it finds it, and leaves nothing on the model's work list. The commands that stand for
what the block does by itself complete with their own effect where it is due: a fall-back word written, a handover, a stall (R71, R89, R259), the array's
self-test (R106), a FACK that does not come (R182), power-ups (R190, R191), a watchdog (R286), a load check (R320), a Fusee command (R114), triggers (R134),
a descriptor, its bursts and its write-back (R330 to R332), errors (R338), a fetch (R375), and the recorder's events (R350 to R362).
That a command whose condition does not hold is a completed command without effect, and not a refusal, is the model's choice (logs 92, 41). -/
def Obligations.EveryCommandCompletes : Prop :=
  (∀ (i : Instr) (s : State), ∃ t, exec i s = .next t ∧ t.pending = s.pending ∧ t.dev.flt.todo = [] ∧ t.dev.log.offers = none) ∧
  ∀ (s : State) (w : Writer) (k : CoreId) (t c r n a : Nat) (l : List Nat) (ws : List Word) (ok : Bool), s.Inv →
    let d := s.dev
    let x := d.ch n
    let log := d.log
    let own := fun (i : Instr) (p : Dev → Prop) => ∃ u, exec i s = .next u ∧ u.pending = s.pending ∧ p u.dev
    (∀ v, (d.cl t c).loop.fb = true → ((d.cl t c).cell r).fword = some v → own (.fallbackDutyWrite t c r) fun u => ((u.cl t c).cell r).duty = v) ∧
    (∀ q, (d.cl t c).loop.handDue = some q → q.2 < 48 * d.clk.per → own (.handover t c) fun u => (u.cl t c).loop.fb = true ∧ (u.cl t c).loop.handed = true) ∧
    (d.hasC t c = true → ((d.cl t c).isolated = false ∨ (d.cl t c).loop.outOn = true) → (d.cl t c).loop.fb = false → (d.cl t c).loop.handed = false →
      own (.loopStall t c) fun u =>
      u.pends 2 16 (.cluster t c) ∧ (u.cl t c).loop.handDue.isSome = true) ∧
    (d.hasT t = true → own (.arraySelftestDone t l) fun u => (u.tl t).rem.bist = (if l = [] then 2 else 3) ∧ (l ≠ [] → u.pends 2 7 (.tile t))) ∧
    (∀ y ∈ (d.tl t).pal.awaits, (∀ z ∈ (d.tl t).pal.awaits, z.tnum = y.tnum → z = y) → y.sent + 1000 * fld d.seq.cfg 21 16 ≤ a →
      own (.fackTimeout t y.tnum a) fun u => y ∉ (u.tl t).pal.awaits ∧ u.pends 5 1 (.cluster t y.c)) ∧
    ((d.cl t c).seq.chg = .waiting → (d.cl t c).seq.track = false → (d.cl t c).seq.qtr = false → domOf c ≠ .L →
      (d.cl t c).seq.wakeAt + 1000 * fld d.seq.adm 7 0 ≤ a → (d.tl t).ramping < fld d.seq.cfg 26 24 →
      own (.admissionDeferExpiry t c a) fun u => u.pends 5 4 (.cluster t c)) ∧
    ((d.cl t c).seq.chg = .powering → own (.cellPowerUpComplete t c) fun u => (u.cl t c).seq.chg = .bootstrap) ∧
    ((d.cl t c).seq.chg = .bootstrap → (d.cl t c).seq.track = false → own (.bootstrapComplete t c) fun u => (u.cl t c).seq.chg = .rising ∧
      (u.cl t c).loop.outOn = true ∧ (u.cl t c).seq.ref = 0) ∧
    (d.hasCore k = true → (d.core k).wdDue = true → own (.watchdogExpiry k) fun u => (u.core k).on = true ∧ (u.core k).rcause = 3 ∧
      (u.core k).loaded = false ∧ (u.core k).wdDue = false) ∧
    (∀ y, d.hasCore k = true → (d.core k).checking = some y → own (.loadCheck k) fun u => (u.core k).checking = none ∧ (u.core k).on = true) ∧
    (d.reached w → own (.rhalt w true) (fun u => u.ridge.halted = true) ∧ own (.rhalt w false) (fun u => u.ridge.halted = false) ∧
      own (.rstart w) (fun u => u.ridge.halted = false ∧ u.ridge.rcause = 6) ∧
      (d.hasT t = true → (d.tl t).rst = false → own (.fhaltall w) (fun u => (u.tl t).core.halted = true) ∧
        own (.frelall w) (fun u => (u.tl t).core.halted = false) ∧
        own (.fstartall w) (fun u => (u.tl t).core.halted = false ∧ (u.tl t).core.rcause = 6)) ∧
      (d.hasT t = true → own (.armall w) (fun u => (u.tl t).trace.st = 1 ∧ (u.tl t).trace.recs = []) ∧
        ((d.tl t).trace.st = 1 → own (.forceall w) fun u => (u.tl t).trace.st = 2 ∧ (u.tl t).trace.fired.isSome = true))) ∧
    ((d.tl t).fus.cmd.isSome = true → own (.fusCommandComplete t) fun u => (u.tl t).fus.cmd = none) ∧
    (t ∈ d.xtrig → tst (d.tl t).trace.cfg 7 = true → (d.tl t).trace.st = 1 → own (.traceCrossTrigger t) fun u =>
      (u.tl t).trace.st = 2 ∧ (u.tl t).trace.fired.isSome = true) ∧
    (1 ≤ n → n < 8 → n < d.dma.ch.length → x.en = true → x.st = 2 → x.desc = none → x.head ≠ x.tail → x.rloc = false →
      tst (ws.getD 0 0) 31 = true → descBad { x.clear with desc := some ws } = false → own (.descriptorFetch n ws) fun u => (u.ch n).desc = some ws) ∧
    (n < d.dma.ch.length → x.st = 2 → x.desc.isSome = true → x.wb = false → x.rd < x.len → x.slots.length < x.maxslot → (∀ b ∈ x.slots, b.data ≠ []) →
      (d.dma.ch.map fun c => c.slots.length).foldl (· + ·) 0 < 64 → x.ssp = 0 → ∀ b : List Byte, b.length = x.burst x.rd →
      own (.sourceBurst n b false) fun u => (u.ch n).slots = x.slots ++ [{ off := x.rd, data := b }] ∧ (u.ch n).rd = x.rd + x.burst x.rd) ∧
    (∀ b y, n < d.dma.ch.length → x.st = 2 → x.desc.isSome = true → x.wb = false → x.slots = b :: y → b.bad = false → b.data ≠ [] → x.dsp = 0 → x.bcast = false →
      own (.destinationBurst n) fun u => (u.ch n).slots = y ∧ (u.ch n).wr = b.off + b.data.length) ∧
    (n < d.dma.ch.length → x.st = 2 → x.desc.isSome = true → x.wb = true → own (.descriptorWriteback n) fun u =>
      (u.ch n).desc = none ∧ (u.ch n).head = (x.head + 1) % 2 ^ x.log2n ∧ (u.ch n).lastst = x.endStatus) ∧
    (1 ≤ n → n < d.dma.ch.length → x.st = 2 → x.desc.isSome = true → x.wb = false → x.abt = false →
      (x.ssp = 0 ∨ x.dsp = 0 → own (.busError n a) fun u => (u.ch n).st = 4 ∧ u.pends 10 0 .device) ∧
      (x.ssp = 1 ∨ x.dsp = 1 → own (.nvTimeout n) fun u => (u.ch n).st = 4 ∧ u.pends 10 0 .device)) ∧
    (d.boot.nvdone = false → log.flush = none → own (.nvFetchDone ok) fun u => u.boot.nvdone = true ∧ u.boot.nverr = !ok) ∧
    (log.flush.isSome = true → own (.flushPage false) fun u => u.log.nvok = false ∧ u.pends 11 1 .device) ∧
    (∀ m, log.flush = some m → 0 < m → log.wptr + 8 ≤ 131071 → log.wptr % 8 = 0 → m ≤ log.buf.countP (·.pend) → own (.flushPage true) fun u =>
      u.log.nvok = true ∧ u.log.wptr = log.wptr + min m 8) ∧
    (log.optime % 1000 = 0 → 24 ≤ fld d.boot.nvid 7 0 → log.frozen = false → log.clearing = false → log.full = false → log.flush.isSome = true →
      own .optimeSecond fun u => u.log.again = true) ∧
    (fld log.cfg 31 24 ≠ 0 → 3600000 * fld log.cfg 31 24 ≤ log.hbeat → own .heartbeat fun u => u.log.hbeat = 0) ∧
    (log.frozen = true → 10000 ≤ log.since log.frzAt → own .freezeExpiry fun u => u.log.frozen = false) ∧
    (∀ m v, log.nonce = some v → log.nonceAt = some m → 60000 ≤ log.since m → own .nonceExpiry fun u => u.log.nonce = none) ∧
    (log.clearing = true → log.erased = false → own .clearEraseDone fun u => u.log.wptr = 1) ∧
    own .powerFail fun u => u.log.frozen = false ∧ u.log.pf = true ∧ (d.ridge.on = true → tst u.ridge.evpend 13 = true)

/-- The invariant holds after reset. -/
def Obligations.ResetInv : Prop := State.reset.Inv

/-- Every step keeps the invariant: memory in canonical form, the lists of fault handling and of records offered empty. -/
def Obligations.StepKeepsInv : Prop := ∀ s t : State, s.Inv → step s = .next t → t.Inv

/-- A command that is not one of those that store leaves every byte of every memory as it was. -/
def Obligations.MemoryFrame : Prop :=
  ∀ (i : Instr) (s t : State), writesMem i = false → exec i s = .next t → t.mem = s.mem ∧ ∀ a, Mem.read t.mem a = Mem.read s.mem a

/-! ### KX integer instructions (R273 to R279) -/

/-- R273: g0 reads 0 and discards writes; another register reads what was written to it, and a write leaves every other register. -/
def Obligations.GeneralRegisters : Prop :=
  ∀ (x : Core) (i j : Nat) (v : Word),
    x.rd (16 * j) = 0 ∧ x.wr (16 * j) v = x ∧ (i % 16 ≠ 0 → (x.wr i v).rd i = v) ∧ (i % 16 ≠ j % 16 → (x.wr i v).rd j = x.rd j)

/-- R277: ADD, ADDI, SUB, MUL, MULQ, CLAMP and LUI: result, Z, N, C, V, pc and cycle count. CLAMP with crossed bounds completes with RANGE and changes nothing but
ERR; otherwise E and ERR tell status 0. Nothing else changes. -/
def Obligations.SumsAndProducts : Prop :=
  (∀ (s : State) (k : CoreId) (a b c imm : Nat), s.Inv → s.dev.ready k = true →
    exec (.add k a b c) s = .next (s.onCore k fun x =>
      x.result a (x.rd b + x.rd c) (decide (2 ^ 32 ≤ (x.rd b).toNat + (x.rd c).toNat)) (outside ((x.rd b).toInt + (x.rd c).toInt)) 1) ∧
    exec (.addi k a b imm) s = .next (s.onCore k fun x =>
      x.result a (x.rd b + sext18 imm) (decide (2 ^ 32 ≤ (x.rd b).toNat + (sext18 imm).toNat)) (outside ((x.rd b).toInt + (sext18 imm).toInt)) 1) ∧
    exec (.sub k a b c) s = .next (s.onCore k fun x =>
      x.result a (x.rd b - x.rd c) (decide ((x.rd c).toNat ≤ (x.rd b).toNat)) (outside ((x.rd b).toInt - (x.rd c).toInt)) 1)) ∧
  (∀ (s : State) (k : CoreId) (a b c imm : Nat), s.Inv → s.dev.ready k = true →
    exec (.mul k a b c) s = .next (s.onCore k fun x =>
      x.result a (BitVec.ofInt 32 ((x.rd b).toInt * (x.rd c).toInt)) false (outside ((x.rd b).toInt * (x.rd c).toInt)) 3) ∧
    exec (.mulq k a b c) s = .next (s.onCore k fun x =>
      let r := divHE ((x.rd b).toInt * (x.rd c).toInt) 65536
      x.result a (BitVec.ofInt 32 (max (-2 ^ 31) (min (2 ^ 31 - 1) r))) false (outside r) 4) ∧
    exec (.lui k a imm) s = .next (s.onCore k fun x => { x.wr a (BitVec.ofNat 32 (imm % 2 ^ 18 * 2 ^ 14)) with pc := x.pc + 4, cycle := x.cycle + 1 }) ∧
    exec (.clamp k a b c) s = .next (s.onCore k fun x =>
      if (x.rd c).toInt < (x.rd b).toInt then x.complete 0x0B 1
      else
        let r := BitVec.ofInt 32 (min (max (x.rd a).toInt (x.rd b).toInt) (x.rd c).toInt)
        { x.result a r false (r != x.rd a) 1 with e := false, errOp := 0x0B, errStatus := 0 }))

/-- R277: AND, OR, XOR and their immediate forms, and the shifts by the low five bits of a register or by an immediate; nothing else changes. -/
def Obligations.LogicAndShifts : Prop :=
  (∀ (s : State) (k : CoreId) (a b c imm : Nat), s.Inv → s.dev.ready k = true →
    exec (.and k a b c) s = .next (s.onCore k fun x => x.result a (x.rd b &&& x.rd c) false false 1) ∧
    exec (.or k a b c) s = .next (s.onCore k fun x => x.result a (x.rd b ||| x.rd c) false false 1) ∧
    exec (.xor k a b c) s = .next (s.onCore k fun x => x.result a (x.rd b ^^^ x.rd c) false false 1) ∧
    exec (.andi k a b imm) s = .next (s.onCore k fun x => x.result a (x.rd b &&& zext18 imm) false false 1) ∧
    exec (.ori k a b imm) s = .next (s.onCore k fun x => x.result a (x.rd b ||| zext18 imm) false false 1) ∧
    exec (.xori k a b imm) s = .next (s.onCore k fun x => x.result a (x.rd b ^^^ zext18 imm) false false 1)) ∧
  (∀ (s : State) (k : CoreId) (a b c sh : Nat), s.Inv → s.dev.ready k = true → sh < 32 →
    exec (.shl k a b c) s = .next (s.onCore k fun x => x.result a (x.rd b <<< ((x.rd c).toNat % 32)) false false 1) ∧
    exec (.shr k a b c) s = .next (s.onCore k fun x => x.result a (x.rd b >>> ((x.rd c).toNat % 32)) false false 1) ∧
    exec (.sra k a b c) s = .next (s.onCore k fun x => x.result a ((x.rd b).sshiftRight ((x.rd c).toNat % 32)) false false 1) ∧
    exec (.shli k a b sh) s = .next (s.onCore k fun x => x.result a (x.rd b <<< sh) false false 1) ∧
    exec (.shri k a b sh) s = .next (s.onCore k fun x => x.result a (x.rd b >>> sh) false false 1) ∧
    exec (.srai k a b sh) s = .next (s.onCore k fun x => x.result a ((x.rd b).sshiftRight sh) false false 1))

/-- R278: B on the conditions of Table 10-7, the reserved one UNKNOWN; JAL; JR; RETE (R283). No target is checked. Nothing else changes. -/
def Obligations.BranchesAndJumps : Prop :=
  ∀ (s : State) (k : CoreId) (cond a b imm : Nat), s.Inv → s.dev.ready k = true →
    (cond < 15 → exec (.branch k cond imm) s = .next (s.onCore k fun x =>
      let taken := [true, x.z, !x.z, x.n != x.v, x.n == x.v, !x.z && x.n == x.v, x.z || x.n != x.v, !x.c, x.c, x.n, !x.n, x.v, !x.v, x.e, !x.e].getD cond false
      { x with pc := if taken then x.pc + 4 * sext18 imm else x.pc + 4, cycle := x.cycle + 1 })) ∧
    exec (.branch k 15 imm) s = .next (s.onCore k fun y => y.complete 0x20 9) ∧
    exec (.jal k a imm) s = .next (s.onCore k fun y => { y.wr a (y.pc + 4) with pc := y.pc + 4 * sext18 imm, cycle := y.cycle + 1 }) ∧
    exec (.jr k a b imm) s = .next (s.onCore k fun y =>
      { y.wr a (y.pc + 4) with pc := (y.rd b + 4 * sext14 imm) &&& 0xFFFFFFFC, cycle := y.cycle + 1 }) ∧
    ((s.dev.core k).active = true → exec (.rete k) s = .next (s.onCore k fun x =>
      { x with
        pc := x.epc, z := tst x.eflags 0, n := tst x.eflags 1, c := tst x.eflags 2, v := tst x.eflags 3, e := tst x.eflags 4
        errStatus := fld x.eflags 15 8, errOp := fld x.eflags 21 16, active := false, cycle := x.cycle + 1 })) ∧
    ((s.dev.core k).active = false → exec (.rete k) s = .next (s.onCore k fun x => x.complete 0x23 2))

/-- R270, R274, R281, R282: a defined word at PC runs as the instruction that its fields name; an undefined encoding (a reserved op, a field marked 0 that is not, a reserved condition, an immediate of a device operation
beyond the bits that Table 10-10 names for it) completes with UNKNOWN, changes nothing
else, and PC advances, and so does a fetch outside instruction memory, which returns 0; an instruction of a core that does not run, that waits,
or that is to enter an event first changes nothing.
That this command runs a defined word, and that an instruction of a core that is not ready changes nothing, are the model's readings (log 84);
that the bits of imm14 that Table 10-10 does not name are marked 0 is too (log 35). -/
def Obligations.UndefinedAndNotReady : Prop :=
  (∀ (w : Word),
    let op := w.toNat / 2 ^ 26
    let a := w.toNat / 2 ^ 22 % 16
    let b := w.toNat / 2 ^ 18 % 16
    let c := w.toNat / 2 ^ 14 % 16
    (op = 0 ∨ (1 ≤ op ∧ op ≤ 0x0B ∧ w.toNat % 2 ^ 14 ≠ 0) ∨ (op = 0x14 ∧ b ≠ 0) ∨ (0x15 ≤ op ∧ op ≤ 0x17 ∧ w.toNat % 2 ^ 18 / 32 ≠ 0) ∨ (op = 0x20 ∧ (b ≠ 0 ∨ a = 15)) ∨
      (op = 0x21 ∧ b ≠ 0) ∨ (op = 0x22 ∧ c ≠ 0) ∨ (op = 0x23 ∧ w.toNat % 2 ^ 26 ≠ 0) → undefinedWord w = true) ∧
    ((1 ≤ op ∧ op ≤ 0x0B ∧ w.toNat % 2 ^ 14 = 0) ∨ (0x10 ≤ op ∧ op ≤ 0x13) ∨ (0x18 ≤ op ∧ op ≤ 0x1F) ∨ (op = 0x20 ∧ b = 0 ∧ a ≠ 15) ∨ w.toNat = 0x23 * 2 ^ 26 →
      undefinedWord w = false) ∧
    (0x30 ≤ op → op ≤ 0x3A → (undefinedWord w = true ↔ [64, 16, 1, 1, 256, 256, 16384, 4096, 16, 1, 1024].getD (op - 0x30) 1 ≤ w.toNat % 2 ^ 14))) ∧
  ∀ (s : State) (k : CoreId), s.Inv →
    (∀ w, s.dev.ready k = true → inCode k (s.dev.core k).pc = true →
      (undefinedWord w = true → exec (.undefinedEncoding k w) s = .next (s.onCore k fun x => x.complete (w.toNat / 2 ^ 26) 9)) ∧
      (undefinedWord w = false → ∃ i, decodeKx k w = some i ∧ kxCore i = some k ∧ exec (.undefinedEncoding k w) s = exec i s) ∧
      let a := w.toNat / 2 ^ 22 % 16
      let b := w.toNat / 2 ^ 18 % 16
      let c := w.toNat / 2 ^ 14 % 16
      let i14 := w.toNat % 2 ^ 14
      let i18 := w.toNat % 2 ^ 18
      let ops := [(0x01, Instr.add k a b c), (0x02, .sub k a b c), (0x03, .and k a b c), (0x04, .or k a b c), (0x05, .xor k a b c), (0x06, .shl k a b c),
        (0x07, .shr k a b c), (0x08, .sra k a b c), (0x09, .mul k a b c), (0x0A, .mulq k a b c), (0x0B, .clamp k a b c), (0x10, .addi k a b i18),
        (0x11, .andi k a b i18), (0x12, .ori k a b i18), (0x13, .xori k a b i18), (0x14, .lui k a i18), (0x15, .shli k a b i18), (0x16, .shri k a b i18),
        (0x17, .srai k a b i18), (0x18, .ldw k a b i18), (0x19, .ldh k a b i18), (0x1A, .ldhu k a b i18), (0x1B, .ldb k a b i18), (0x1C, .ldbu k a b i18),
        (0x1D, .stw k a b i18), (0x1E, .sth k a b i18), (0x1F, .stb k a b i18), (0x20, .branch k a i18), (0x21, .jal k a i18), (0x22, .jr k a b i14),
        (0x23, .rete k), (0x30, .setp k b c i14), (0x31, .pstate k b i14), (0x32, .capset k b c i14), (0x33, .fmaxw k b c i14), (0x34, .tblsel k b i14),
        (0x35, .qry k a b i14), (0x36, .post k b c i14), (0x37, .send k b c i14), (0x38, .recv k a b i14), (0x39, .trig k b i14), (0x3A, .grant k b i14)]
      ∀ n i, (n, i) ∈ ops → w.toNat / 2 ^ 26 = n → undefinedWord w = false → exec (.undefinedEncoding k w) s = exec i s) ∧
    (∀ w, s.dev.ready k = true → inCode k (s.dev.core k).pc = false → exec (.undefinedEncoding k w) s = .next (s.onCore k fun x => x.complete 0 9)) ∧
    (∀ i, kxCore i = some k → s.dev.ready k = false → exec i s = .next s)

/-- R271, R272, R277, Table 10-2: loads at ea = g[b] + sext(imm18), extended, into g[a], from a core's data RAM and from a Rafter's Fusee store and Fmax
store, and word loads from register windows: the Ridge's reads the host map, a Rafter's its own tile's registers, live, their read-clear fields going to 0.
Stores to data RAM: status OK, the stored bytes read back, every other byte and register stands. A word stored to a register window is a write of that
register, by the Ridge (to a tile's through its mirror) or the Rafter, and completes with the write's status; one by which a core restarts itself leaves it as R273 starts it. Stores to the Fusee store write bytes outside
live slots and the map and take the slot's valid mark away (R114); in a live slot, with FUSWLIVE, or in the map nothing is written and the status is STATE; the
reserved end takes no byte. -/
def Obligations.LoadsAndStores : Prop :=
  (∀ (s : State) (k : CoreId) (t a b imm base : Nat), s.Inv → s.dev.ready k = true →
    let ea := ((s.dev.core k).rd b + sext18 imm).toNat
    let byte := fun i => (Mem.read s.mem (base + i)).toNat
    let loaded := fun op (v : Word) => Host.Outcome.next (φ := Fault) (ρ := Refusal) (s.onCore k fun x => (x.wr a v).complete op 0)
    (ea < dataSize k ∧ base = dataBase k + ea) ∨ (k = .rafter t ∧ 0x200000 ≤ ea ∧ ea < 0x210000 ∧ base = storeBase t + (ea - 0x200000)) ∨
      (k = .rafter t ∧ 0x300000 ≤ ea ∧ ea < 0x30A800 ∧ base = fmaxBase t + (ea - 0x300000)) →
    (ea % 4 = 0 → exec (.ldw k a b imm) s = loaded 0x18 (BitVec.ofNat 32 (byte 0 + 2 ^ 8 * byte 1 + 2 ^ 16 * byte 2 + 2 ^ 24 * byte 3))) ∧
    (ea % 2 = 0 → exec (.ldh k a b imm) s = loaded 0x19 ((BitVec.ofNat 16 (byte 0 + 2 ^ 8 * byte 1)).signExtend 32)) ∧
    (ea % 2 = 0 → exec (.ldhu k a b imm) s = loaded 0x1A (BitVec.ofNat 32 (byte 0 + 2 ^ 8 * byte 1))) ∧
    exec (.ldb k a b imm) s = loaded 0x1B ((BitVec.ofNat 8 (byte 0)).signExtend 32) ∧
    exec (.ldbu k a b imm) s = loaded 0x1C (BitVec.ofNat 32 (byte 0))) ∧
  (∀ (s : State) (k : CoreId) (a b imm : Nat), s.Inv → s.dev.ready k = true →
    let ea := ((s.dev.core k).rd b + sext18 imm).toNat
    let v := (s.dev.core k).rd a
    let stored := fun (i : Instr) (op n : Nat) => ∃ t, exec i s = .next t ∧
      t.dev.butPallets = (s.dev.onCore k fun x => x.complete op 0).butPallets ∧ t.pending = s.pending ∧
      (∀ j, j < n → Mem.read t.mem (dataBase k + ea + j) = BitVec.ofNat 8 (v.toNat / 2 ^ (8 * j))) ∧
      ∀ q, q < dataBase k + ea ∨ dataBase k + ea + n ≤ q → Mem.read t.mem q = Mem.read s.mem q
    ea < dataSize k →
    (ea % 4 = 0 → stored (.stw k a b imm) 0x1D 4) ∧ (ea % 2 = 0 → stored (.sth k a b imm) 0x1E 2) ∧ stored (.stb k a b imm) 0x1F 1) ∧
  (∀ (s : State) (a b imm : Nat), s.Inv → s.dev.ready .ridge = true →
    let d := s.dev
    let ea := (d.ridge.rd b + sext18 imm).toNat
    let v := d.ridge.rd a
    let at' := ea - 0x100000
    let t := (at' - 0x10000) / 0x1000
    let off := at' % 0x1000
    let k := tileChecks (shadowView d t) 8 t off v
    let st := if windowReg off = false then 1 else { k with absent := k.absent || boolAt d.pur.lost t }.first
    let f : Flying := { src := .ridge, tile := t, cluster := offCluster off, op := 0x1D, seq := 0, kind := .regw off v, no := d.issued }
    ea % 4 = 0 → 0x100000 ≤ ea → ea < 0x170000 →
    (let r := readHost .ridge true s.mem at' d
     exec (.ldw .ridge a b imm) s = .next { s with dev := r.2.onCore .ridge fun x => (x.wr a r.1).complete 0x18 0 }) ∧
    (at' < 0x10000 → at' ≠ 0x08 ∨ tst v 2 = false ∨ (devWrite .ridge at' v d).1 ≠ 0 → ∃ u, exec (.stw .ridge a b imm) s = .next u ∧ u.mem = s.mem ∧
      ((devWrite .ridge at' v d).2.onCore .ridge fun x => x.complete 0x1D (devWrite .ridge at' v d).1).Aside u.dev) ∧
    (at' = 0x08 → tst v 2 = true → (devWrite .ridge at' v d).1 = 0 → ∃ u, exec (.stw .ridge a b imm) s = .next u ∧ u.mem = s.mem ∧
      (devWrite .ridge at' v d).2.Aside u.dev ∧ (d.selLoaded .ridge = false → u.dev.ridge.pc = 0x10000 ∧ u.dev.ridge.cycle = 0 ∧ u.dev.ridge.errOp = 0 ∧
        u.dev.ridge.errStatus = 0 ∧ u.dev.ridge.rcause = 6)) ∧
    (0x10000 ≤ at' → exec (.stw .ridge a b imm) s = .next { s with dev :=
      (if st = 0 then { d with air := d.air ++ [f], issued := d.issued + 1 } else d).onCore .ridge fun x => x.complete 0x1D st })) ∧
  (∀ (s : State) (t a b imm : Nat), s.Inv → s.dev.ready (.rafter t) = true →
    let d := s.dev
    let k := CoreId.rafter t
    let ea := ((d.core k).rd b + sext18 imm).toNat
    let v := (d.core k).rd a
    (ea % 4 = 0 → 0x100000 ≤ ea → ea < 0x101000 →
      let off := ea - 0x100000
      let w := windowWord (liveView s.mem d t) t off
      let st := if windowReg off = false then 1 else (tileChecks (liveView s.mem d t) 9 t off v).first
      exec (.ldw k a b imm) s = .next { s with dev :=
        ((rcFields off).foldl (fun d p => rcSub t off p.1 (fld w p.1 p.2) d) d).onCore k fun x => (x.wr a w).complete 0x18 0 } ∧
      (st ≠ 0 → exec (.stw k a b imm) s = .next (s.onCore k fun x => x.complete 0x1D st)) ∧
      (st = 0 → off ≠ 0xFE0 ∨ tst v 1 = false → ∃ u, exec (.stw k a b imm) s = .next u ∧ u.mem = s.mem ∧
        ((tilePut s.mem 9 t off v d).onCore k fun x => x.complete 0x1D 0).Aside u.dev) ∧
      (st = 0 → off = 0xFE0 → tst v 1 = true → ∃ u, exec (.stw k a b imm) s = .next u ∧ u.mem = s.mem ∧ (tilePut s.mem 9 t off v d).Aside u.dev ∧
        (d.selLoaded k = false → (u.dev.core k).pc = 0x10000 ∧ (u.dev.core k).cycle = 0 ∧ (u.dev.core k).errOp = 0 ∧ (u.dev.core k).errStatus = 0 ∧
          (u.dev.core k).rcause = 6))) ∧
    (0x200000 ≤ ea → ea < 0x210000 →
      let o := ea - 0x200000
      let live := ∃ n, slotAt o = some n ∧ slotLive s.mem (d.tl t) t n = true
      let all := [(Instr.stw k a b imm, 0x1D, 4), (.sth k a b imm, 0x1E, 2), (.stb k a b imm, 0x1F, 1)]
      ∀ i op n, (i, op, n) ∈ all → ea % n = 0 →
        (live → ∃ u, exec i s = .next u ∧ u.mem = s.mem ∧ (d.onCore k fun x => x.complete op 2).Aside u.dev ∧ u.dev.pends 3 7 (.tile t)) ∧
        (0xF080 ≤ o → o < 0xF180 → exec i s = .next (s.onCore k fun x => x.complete op 2)) ∧
        (0xF440 ≤ o → exec i s = .next (s.onCore k fun x => x.complete op 0)) ∧
        (¬ live → o < 0xF080 ∨ (0xF180 ≤ o ∧ o < 0xF440) → ∃ u, exec i s = .next u ∧ u.pending = s.pending ∧
          u.dev.butPallets = ((d.onTFus t fun y => { y with
            badOffs := y.badOffs.filter (· != o / 4 * 4), valid := match slotAt o with | some n => y.valid.set n false | none => y.valid }).onCore k
            fun x => x.complete op 0).butPallets ∧
          (∀ j, j < n → Mem.read u.mem (storeBase t + o + j) = BitVec.ofNat 8 (v.toNat / 2 ^ (8 * j))) ∧
          ∀ q, q < storeBase t + o ∨ storeBase t + o + n ≤ q → Mem.read u.mem q = Mem.read s.mem q)))

/-- R271, R277: a load or store at a misaligned address completes with ALIGN, one outside Table 10-2 with RANGE, one of a byte or half in a register window
with ALIGN; a store to the Fmax store completes with STATE. Nothing else changes. That ALIGN comes before RANGE is the model's reading (log 33). -/
def Obligations.LoadStoreRefusals : Prop :=
  ∀ (s : State) (k : CoreId) (a b imm : Nat), s.Inv → s.dev.ready k = true →
    let ea := ((s.dev.core k).rd b + sext18 imm).toNat
    let all := [(Instr.ldw k a b imm, 0x18, 4), (.ldh k a b imm, 0x19, 2), (.ldhu k a b imm, 0x1A, 2), (.ldb k a b imm, 0x1B, 1), (.ldbu k a b imm, 0x1C, 1),
      (.stw k a b imm, 0x1D, 4), (.sth k a b imm, 0x1E, 2), (.stb k a b imm, 0x1F, 1)]
    ∀ i op n, (i, op, n) ∈ all →
      (ea % n ≠ 0 → exec i s = .next (s.onCore k fun x => x.complete op 6)) ∧
      (ea % n = 0 → placeOf k ea = .nowhere → exec i s = .next (s.onCore k fun x => x.complete op 1)) ∧
      (ea % n = 0 → n ≠ 4 → (∃ w, placeOf k ea = .window w) → exec i s = .next (s.onCore k fun x => x.complete op 6)) ∧
      (ea % n = 0 → 0x1D ≤ op → (∃ o, placeOf k ea = .fmax o) → exec i s = .next (s.onCore k fun x => x.complete op 2))

/-! ### KX events, WAIT, special registers, watchdog (R280 to R287) -/

/-- R281: where a core that runs has an event to enter (ACTIVE at 0, the lowest event both pending and armed), EVENT_ENTRY saves pc, flags and ERR, sets EVCAUSE
and ACTIVE, clears the pending bit of an edge event and goes to EVBASE + 4 n; otherwise it changes nothing. RETE (R283, stated in
BranchesAndJumps) right after an entry gives the core back as it was, but for the pending bit, a WAIT that was left, and the cycle count.
That CYCLE also counts the cycles waited in a WAIT that is left is the model's reading (log 84). -/
def Obligations.EventEntryAndReturn : Prop :=
  ∀ (s : State) (k : CoreId) (n : Nat), s.Inv → s.dev.hasCore k = true →
    let y := s.dev.core k
    let due := s.dev.pendOf k &&& y.evmask
    let waited := match y.waiting with | some w => s.dev.clk.now - w.since | none => 0
    let enters := y.active = false ∧ due.toNat.testBit n = true ∧ ∀ j, j < n → due.toNat.testBit j = false
    (y.runs = true → enters → exec (.eventEntry k) s = .next (s.onCore k fun x =>
      { x with
        epc := x.pc
        eflags := word [(x.errOp, 16), (x.errStatus, 8), (b2n x.z + 2 * b2n x.n + 4 * b2n x.c + 8 * b2n x.v + 16 * b2n x.e, 0)]
        cause := n, active := true, waiting := none, pc := x.evbase + BitVec.ofNat 32 (4 * n)
        evpend := if n = 3 ∨ n = 4 ∨ n = 6 ∨ n = 7 then x.evpend else x.evpend &&& ~~~(BitVec.ofNat 32 (2 ^ n)), cycle := x.cycle + 2 + waited })) ∧
    (y.runs = false ∨ y.active = true ∨ due = 0 → exec (.eventEntry k) s = .next s) ∧
    (y.runs = true → enters → y.errOp < 64 → y.errStatus < 256 →
      ∃ u t, exec (.eventEntry k) s = .next u ∧ exec (.rete k) u = .next t ∧ t.mem = s.mem ∧
        ({ t.dev.core k with evpend := 0, epc := 0, eflags := 0, cause := 0 } : Core) =
          { y with evpend := 0, epc := 0, eflags := 0, cause := 0, active := false, waiting := none, cycle := y.cycle + 3 + waited })

/-- R280, R284: ARM, DISARM and RAISE (events 16 to 31 only) of an event that the core has; RANGE for another, UNKNOWN for a number of more than five bits.
The op number in ERR is a free value (log 5). -/
def Obligations.EventArming : Prop :=
  ∀ (s : State) (k : CoreId) (n : Nat), s.Inv → s.dev.ready k = true →
    let op := fun i => (Config.opNumber i).toNat
    (n < 32 → evOn k n = true →
      exec (.arm k n) s = .next (s.onCore k fun x => { x with evmask := setBit x.evmask n }.complete (op .arm) 0) ∧
      exec (.disarm k n) s = .next (s.onCore k fun x => { x with evmask := x.evmask &&& ~~~(BitVec.ofNat 32 (2 ^ n)) }.complete (op .disarm) 0) ∧
      (16 ≤ n → exec (.raise k n) s = .next (s.onCore k fun x => { x with evpend := setBit x.evpend n }.complete (op .raise) 0)) ∧
      (n < 16 → exec (.raise k n) s = .next (s.onCore k fun x => x.complete (op .raise) 1))) ∧
    (n < 32 → evOn k n = false → exec (.arm k n) s = .next (s.onCore k fun x => x.complete (op .arm) 1) ∧
      exec (.disarm k n) s = .next (s.onCore k fun x => x.complete (op .disarm) 1) ∧ exec (.raise k n) s = .next (s.onCore k fun x => x.complete (op .raise) 1)) ∧
    (32 ≤ n → exec (.arm k n) s = .next (s.onCore k fun x => x.complete (op .arm) 9) ∧
      exec (.disarm k n) s = .next (s.onCore k fun x => x.complete (op .disarm) 9) ∧ exec (.raise k n) s = .next (s.onCore k fun x => x.complete (op .raise) 9))

/-- R282: WAIT with no mask and no deadline completes with STATE; with an event of its mask pending, with the lowest such event; at its deadline with 32;
otherwise it waits, and WAIT_COMPLETE ends it in the same two ways, counting the cycles waited. The op number in ERR is a free value (log 5). -/
def Obligations.WaitAndItsEnd : Prop :=
  ∀ (s : State) (k : CoreId) (a b c n cy : Nat) (dl : Bool), s.Inv →
    let x := s.dev.core k
    let op := (Config.opNumber .wait).toNat
    let hit := fun (mask : Word) => (s.dev.pendOf k &&& mask).toNat.testBit n = true ∧ ∀ j, j < n → (s.dev.pendOf k &&& mask).toNat.testBit j = false
    let past := fun (t : Word) => 0 ≤ (BitVec.ofNat 32 s.dev.clk.tick - t).toInt
    (s.dev.ready k = true →
      (x.rd b = 0 → dl = false → exec (.wait k a b c dl) s = .next (s.onCore k fun x => x.complete op 2)) ∧
      (hit (x.rd b) → exec (.wait k a b c dl) s = .next (s.onCore k fun x => (x.wr a (BitVec.ofNat 32 n)).complete op 0)) ∧
      (s.dev.pendOf k &&& x.rd b = 0 → dl = true → past (x.rd c) → exec (.wait k a b c dl) s = .next (s.onCore k fun x => (x.wr a 32).complete op 0)) ∧
      (s.dev.pendOf k &&& x.rd b = 0 → (dl = true ∧ ¬ past (x.rd c)) ∨ (dl = false ∧ x.rd b ≠ 0) →
        exec (.wait k a b c dl) s = .next (s.onCore k fun x =>
          { x with waiting := some { a := a, mask := x.rd b, deadline := if dl then some (x.rd c) else none, since := s.dev.clk.now } }))) ∧
    (s.dev.hasCore k = true → x.runs = true → s.dev.entryDue k = none → ∀ y, x.waiting = some y →
      (hit y.mask → exec (.waitComplete k cy) s = .next (s.onCore k fun x =>
        { ({ x with waiting := none }.wr y.a (BitVec.ofNat 32 n)).complete op 0 with cycle := x.cycle + 1 + cy })) ∧
      (s.dev.pendOf k &&& y.mask = 0 → (∃ t, y.deadline = some t ∧ past t) → exec (.waitComplete k cy) s = .next (s.onCore k fun x =>
        { ({ x with waiting := none }.wr y.a 32).complete op 0 with cycle := x.cycle + 1 + cy })))

/-- R285 to R287, Table 10-12: MFS reads a special register into g[a], clearing its RC fields; MTS writes one; a read-only one completes with STATE, a field out of
range with RANGE, a number that the table does not give with UNKNOWN; 0x5A to WDKICK kicks, another value expires the watchdog. The op number in ERR is a free value (log 5); the order of WDOG's checks is the model's (log 34). -/
def Obligations.SpecialRegisters : Prop :=
  (∀ (s : State) (k : CoreId) (a n : Nat), s.Inv → s.dev.ready k = true →
    let x := s.dev.core k
    let op := (Config.opNumber .mfs).toNat
    let read := fun (n : Nat) (w : Word) (f : Core → Core) => exec (.mfs k a n) s = .next (s.onCore k fun x => ((f x).wr a w).complete op 0)
    read 0x00 (match k with | .ridge => 0x8000007F | .rafter t => BitVec.ofNat 32 t) id ∧ read 0x01 (BitVec.ofNat 32 s.dev.clk.tick) id ∧
    read 0x02 (BitVec.ofNat 32 s.dev.clk.epoch) id ∧
    read 0x03 (word [(x.fails, 16), (x.errOp, 8), (x.errStatus, 0)]) (fun x => { x with fails := 0 }) ∧ read 0x04 x.evmask id ∧
    read 0x05 (s.dev.pendOf k) id ∧ read 0x06 (word [(b2n x.active, 8), (x.cause, 0)]) id ∧ read 0x07 x.epc id ∧ read 0x08 x.eflags id ∧
    read 0x09 x.evbase id ∧ read 0x0A (word [(1, 31), (x.period, 0)]) id ∧ read 0x0B 0 id ∧ read 0x0C x.tcmp id ∧
    read 0x0D (match x.lref with
      | [] => 0
      | r :: l => word [(r.cluster, 23), (r.tile, 16), (b2n !l.isEmpty, 14), (r.op, 8), (r.status, 0)]) (fun x => { x with lref := x.lref.tail }) ∧
    read 0x0E (BitVec.ofNat 32 (b2n x.z + 2 * b2n x.n + 4 * b2n x.c + 8 * b2n x.v + 16 * b2n x.e)) id ∧ read 0x0F (BitVec.ofNat 32 x.cycle) id ∧
    read 0x10 (word [(x.lrlost, 24), (x.inq.length, 16), (8 - x.outq.length, 8), (x.lref.length, 0)]) (fun x => { x with lrlost := 0 }) ∧
    read 0x11 (BitVec.ofNat 32 x.rcause) id ∧
    (0x11 < n → exec (.mfs k a n) s = .next (s.onCore k fun x => x.complete op 9))) ∧
  (∀ (s : State) (k : CoreId) (b n : Nat), s.Inv → s.dev.ready k = true →
    let w := (s.dev.core k).rd b
    let op := (Config.opNumber .mts).toNat
    let put := fun (n : Nat) (f : Core → Core) => exec (.mts k b n) s = .next (s.onCore k fun x => (f x).complete op 0)
    put 0x05 (fun x => { x with evpend := x.evpend &&& ~~~w }) ∧ put 0x07 (fun x => { x with epc := w &&& 0xFFFFFFFC }) ∧
    put 0x08 (fun x => { x with eflags := w &&& 0x003FFF1F }) ∧ put 0x0C (fun x => { x with tcmp := w, timer := true }) ∧
    (vectorOk k w = true → put 0x09 fun x => { x with evbase := w &&& 0xFFFFFF80 }) ∧
    (tst w 31 = true → 16 ≤ fld w 15 0 → put 0x0A fun x => { x with period := fld w 15 0 }) ∧
    (fld w 7 0 = 0x5A → put 0x0B fun x => { x with wd := 0, periodE := x.period }) ∧
    (fld w 7 0 ≠ 0x5A → put 0x0B fun x => { x with wdDue := true }) ∧
    exec (.mts k b 0x0E) s = .next (s.onCore k fun x =>
      { x with z := tst w 0, n := tst w 1, c := tst w 2, v := tst w 3, e := tst w 4, pc := x.pc + 4, cycle := x.cycle + 1 }) ∧
    (vectorOk k w = false → exec (.mts k b 0x09) s = .next (s.onCore k fun x => x.complete op 1)) ∧
    (tst w 31 = false → exec (.mts k b 0x0A) s = .next (s.onCore k fun x => x.complete op 2)) ∧
    (tst w 31 = true → fld w 15 0 < 16 → exec (.mts k b 0x0A) s = .next (s.onCore k fun x => x.complete op 1)) ∧
    (n ∈ [0x00, 0x01, 0x02, 0x03, 0x06, 0x0D, 0x0F, 0x10, 0x11] → exec (.mts k b n) s = .next (s.onCore k fun x => x.complete op 2)) ∧
    (0x11 < n → exec (.mts k b n) s = .next (s.onCore k fun x => x.complete op 9)) ∧
    ∃ e, (∀ j, j < 32 → tst e j = (tst w j && evOn k j)) ∧ put 0x04 fun x => { x with evmask := e })


/-- R32, R286, R320, R321: a watchdog that is due restarts its core on the resident program with CAUSE 3 and raises WDRDG or WDRFT; a load check that passes
starts the loaded image at its entry, one that fails starts the resident program with CAUSE 4 and raises LDRDG or LDRFT. A core with neither due stands.
That a halt outlives the restart is the model's reading (log 66). -/
def Obligations.WatchdogAndLoadCheck : Prop :=
  ∀ (s : State) (k : CoreId), s.Inv → s.dev.hasCore k = true →
    let x := s.dev.core k
    let soft := fun (y : Core) => ({ y with evpend := 0 } : Core)
    (x.wdDue = true → ∃ t, exec (.watchdogExpiry k) s = .next t ∧ soft (t.dev.core k) = x.restarted 3 s.dev.clk.now ∧
      t.dev.pends 8 (if k = .ridge then 0 else 1) (coreScope k) ∧ t.mem = s.mem) ∧
    (x.wdDue = false → exec (.watchdogExpiry k) s = .next s) ∧
    (∀ cause, x.checking = some cause → loadOutcome s.mem k = 1 → ∃ t, exec (.loadCheck k) s = .next t ∧ t.mem = s.mem ∧
      soft (t.dev.core k) = { x.restarted cause s.dev.clk.now with
        chk := 1, loaded := true, pc := BitVec.ofNat 32 (headerWord s.mem k 3), tag := BitVec.ofNat 32 (headerWord s.mem k 5) }) ∧
    (x.checking.isSome = true → loadOutcome s.mem k ≠ 1 → ∃ t, exec (.loadCheck k) s = .next t ∧ t.mem = s.mem ∧
      soft (t.dev.core k) = { x.restarted 4 s.dev.clk.now with chk := loadOutcome s.mem k } ∧ t.dev.pends 8 (if k = .ridge then 2 else 3) (coreScope k)) ∧
    (x.checking = none → exec (.loadCheck k) s = .next s)

/-! ### Device operations and messages (R288 to R301) -/

/-- R288, R289, R290, R294: the Ridge's device operations on a tile: checked against the mirror, sent over Purlin and OK, or completed with the status of the
first check that fails; a handle that breaks Table 10-9, a handle of the other scope on a tile that answers, or an operand whose bits marked 0 are not 0 (SETP
c[31:10], CAPSET c[31:16]) is RANGE, and an immediate with such bits is UNKNOWN. A TRIG of tile 0x7F goes to every tile. Nothing else changes.
Which imm14 bits are marked 0 (log 35), and that a TRIG of every tile goes to those present, reached and not in reset (log 31), are the model's readings. -/
def Obligations.RidgeOperationsSent : Prop :=
  ∀ (s : State) (b c imm : Nat), s.Inv → s.dev.ready .ridge = true →
    let d := s.dev
    let h := d.ridge.rd b
    let v := d.ridge.rd c
    let sent := fun (i : Instr) (op : Nat) (kind : OpKind) =>
      let f : Flying := { src := .ridge, tile := hTile h, cluster := if op = 0x33 then 0 else hCl h, op := op, seq := 0, kind := kind }
      let k := opChecks (shadowView d (hTile h)) f
      let st := { k with absent := k.absent || boolAt d.pur.lost (hTile h) }.first
      exec i s = .next ({ s with dev := if st = 0 then { d with air := d.air ++ [{ f with no := d.issued }], issued := d.issued + 1 } else d }.onCore .ridge
        fun x => x.complete op st)
    let unknown := fun (i : Instr) (op : Nat) => exec i s = .next (s.onCore .ridge fun x => x.complete op 9)
    (handleOk .ridge false h = true →
      (hT h = false → imm < 64 → v.toNat < 1024 → sent (.setp .ridge b c imm) 0x30 (.setp v.toNat imm)) ∧
      (hT h = false → imm < 16 → sent (.pstate .ridge b imm) 0x31 (.regw (0x80 * hCl h + 0x0C) (BitVec.ofNat 32 (16 * imm)))) ∧
      (hT h = false → v.toNat < 2 ^ 16 → sent (.capset .ridge b c 0) 0x32 (.regw (0x80 * hCl h + 0x18) v)) ∧
      (hT h = true → v.toNat < 2 ^ 16 → sent (.capset .ridge b c 0) 0x32 (.regw 0xC08 v)) ∧
      (hT h = false → imm < 256 → sent (.tblsel .ridge b imm) 0x34 (.regw (0x80 * hCl h + 0x74) (BitVec.ofNat 32 (imm % 64 + 256 * (imm / 64))))) ∧
      (hT h = true → sent (.trig .ridge b 0) 0x39 .trig) ∧
      (hT h = false → imm < 1024 → sent (.grant .ridge b imm) 0x3A (.regw (0x80 * hCl h + 0x14) (BitVec.ofNat 32 (imm % 4 + 256 * (imm / 4)))))) ∧
    (fld h 31 23 = 0 → fld h 15 14 = 0 → hTile h < 96 → sent (.fmaxw .ridge b c 0) 0x33 (.fmaxw (fld h 13 0) v)) ∧
    let ends := fun (i : Instr) (op st : Nat) => exec i s = .next (s.onCore .ridge fun x => x.complete op st)
    let marked := fld h 31 24 ≠ 0 ∨ fld h 15 5 ≠ 0 ∨ 18 ≤ fld h 4 0 ∨ (tst h 23 = true ∧ fld h 4 0 ≠ 0)
    let bad := marked ∨ 96 ≤ fld h 22 16
    let answers := (shadowView d (hTile h)).d.answersT (hTile h) = true ∧ boolAt d.pur.lost (hTile h) = false
    let plain := [(Instr.setp .ridge b c imm, 0x30, 64), (.pstate .ridge b imm, 0x31, 16), (.tblsel .ridge b imm, 0x34, 256), (.grant .ridge b imm, 0x3A, 1024)]
    (∀ i op n, (i, op, n) ∈ plain → imm < n → (bad → ends i op 1) ∧
      (¬ bad → tst h 23 = true → v.toNat < 1024 → (answers → ends i op 1) ∧ (¬ answers → ends i op 3))) ∧
    (bad → ends (.capset .ridge b c 0) 0x32 1) ∧
    (1024 ≤ v.toNat → imm < 64 → ends (.setp .ridge b c imm) 0x30 1) ∧ (2 ^ 16 ≤ v.toNat → ends (.capset .ridge b c 0) 0x32 1) ∧
    (¬ bad → tst h 23 = false → (answers → (shadowView d (hTile h)).d.live (hTile h) (hCl h) = true → ends (.trig .ridge b 0) 0x39 1) ∧
      (¬ answers ∨ (shadowView d (hTile h)).d.live (hTile h) (hCl h) = false → ends (.trig .ridge b 0) 0x39 3)) ∧
    (fld h 31 23 ≠ 0 ∨ fld h 15 14 ≠ 0 ∨ 96 ≤ fld h 22 16 → ends (.fmaxw .ridge b c 0) 0x33 1) ∧
    (marked ∨ (96 ≤ fld h 22 16 ∧ ¬ (fld h 22 16 = 0x7F ∧ tst h 23 = true)) → ends (.trig .ridge b 0) 0x39 1) ∧
    (h = 0x00FF0000 →
      let sent := d.tilesOn.filter fun t => !boolAt d.pur.lost t && !((shadowView d t).d.tl t).rst
      exec (.trig .ridge b 0) s = .next ({ s with dev := { d with
        air := d.air ++ sent.zipIdx.map fun (p : Nat × Nat) => ({ src := .ridge, tile := p.1, cluster := 0, op := 0x39, seq := 0, kind := .trig, no := d.issued + p.2 } : Flying)
        issued := d.issued + sent.length } }.onCore .ridge fun x => x.complete 0x39 0)) ∧
    (64 ≤ imm → imm < 2 ^ 14 → unknown (.setp .ridge b c imm) 0x30) ∧ (16 ≤ imm → imm < 2 ^ 14 → unknown (.pstate .ridge b imm) 0x31) ∧
    (0 < imm → unknown (.capset .ridge b c imm) 0x32) ∧ (0 < imm → unknown (.fmaxw .ridge b c imm) 0x33) ∧
    (256 ≤ imm → unknown (.tblsel .ridge b imm) 0x34) ∧ (0 < imm → unknown (.trig .ridge b imm) 0x39) ∧ (1024 ≤ imm → unknown (.grant .ridge b imm) 0x3A)

/-- R272, R288 to R291: a Rafter's device operations act at once on its own tile, as the register writes they stand for, with status OK; or they complete
with the status of the first check that fails, and nothing else changes. A handle that breaks Table 10-9, names another tile, or is of the other scope on a
tile that answers, is RANGE, and so is an operand whose bits marked 0 are not 0 (SETP c[31:10], CAPSET c[31:16]). -/
def Obligations.RafterOperationsAct : Prop :=
  ∀ (s : State) (t b c imm : Nat), s.Inv → s.dev.ready (.rafter t) = true → t < 96 →
    let d := s.dev
    let h := (d.core (.rafter t)).rd b
    let v := (d.core (.rafter t)).rd c
    let acts := fun (i : Instr) (op : Nat) (kind : OpKind) (m' : List Host.Cell) (d' : Dev) =>
      let f : Flying := { src := .rafter t, tile := t, cluster := if op = 0x33 then 0 else hCl h, op := op, seq := 0, kind := kind }
      let st := (opChecks (liveView s.mem d t) f).first
      (st ≠ 0 → exec i s = .next (s.onCore (.rafter t) fun x => x.complete op st)) ∧
      (st = 0 → ∃ u, exec i s = .next u ∧ u.mem = m' ∧ (d'.onCore (.rafter t) fun x => x.complete op 0).Aside u.dev)
    let reg := fun off w => tilePut s.mem 9 t off w d
    (handleOk (.rafter t) false h = true →
      (hT h = false → imm < 64 → v.toNat < 1024 → acts (.setp (.rafter t) b c imm) 0x30 (.setp v.toNat imm) s.mem
        { d.onSeq t (hCl h) fun q => { q with queue := q.queue.filter (fun x => x.cls != 9) ++
            [{ cls := 9, kind := .setpoint, code := v.toNat, slew := imm, no := d.seq.next }] } with seq := { d.seq with next := d.seq.next + 1 } }) ∧
      (hT h = false → imm < 16 → acts (.pstate (.rafter t) b imm) 0x31 (.regw (0x80 * hCl h + 0x0C) (BitVec.ofNat 32 (16 * imm))) s.mem
        (reg (0x80 * hCl h + 0x0C) (BitVec.ofNat 32 (16 * imm)))) ∧
      (hT h = false → v.toNat < 2 ^ 16 → acts (.capset (.rafter t) b c 0) 0x32 (.regw (0x80 * hCl h + 0x18) v) s.mem (reg (0x80 * hCl h + 0x18) v)) ∧
      (hT h = true → v.toNat < 2 ^ 16 → acts (.capset (.rafter t) b c 0) 0x32 (.regw 0xC08 v) s.mem (reg 0xC08 v)) ∧
      (hT h = false → imm < 256 → acts (.tblsel (.rafter t) b imm) 0x34 (.regw (0x80 * hCl h + 0x74) (BitVec.ofNat 32 (imm % 64 + 256 * (imm / 64)))) s.mem
        (reg (0x80 * hCl h + 0x74) (BitVec.ofNat 32 (imm % 64 + 256 * (imm / 64))))) ∧
      (hT h = true → acts (.trig (.rafter t) b 0) 0x39 .trig s.mem (trcFire t true d)) ∧
      (hT h = false → imm < 1024 → acts (.grant (.rafter t) b imm) 0x3A (.regw (0x80 * hCl h + 0x14) (BitVec.ofNat 32 (imm % 4 + 256 * (imm / 4)))) s.mem
        (reg (0x80 * hCl h + 0x14) (BitVec.ofNat 32 (imm % 4 + 256 * (imm / 4)))))) ∧
    let ends := fun (i : Instr) (op st : Nat) => exec i s = .next (s.onCore (.rafter t) fun x => x.complete op st)
    let far := fld h 22 16 ≠ t ∧ fld h 22 16 ≠ 0x7F
    let bad := fld h 31 24 ≠ 0 ∨ fld h 15 5 ≠ 0 ∨ 18 ≤ fld h 4 0 ∨ (tst h 23 = true ∧ fld h 4 0 ≠ 0) ∨ far
    let plain := [(Instr.setp (.rafter t) b c imm, 0x30, 64), (.pstate (.rafter t) b imm, 0x31, 16), (.tblsel (.rafter t) b imm, 0x34, 256),
      (.grant (.rafter t) b imm, 0x3A, 1024)]
    (∀ i op n, (i, op, n) ∈ plain → imm < n → (bad → ends i op 1) ∧
      (¬ bad → tst h 23 = true → v.toNat < 1024 → (d.answersT t = true → ends i op 1) ∧ (d.answersT t = false → ends i op 3))) ∧
    (bad → ends (.capset (.rafter t) b c 0) 0x32 1 ∧ ends (.trig (.rafter t) b 0) 0x39 1) ∧
    (1024 ≤ v.toNat → imm < 64 → ends (.setp (.rafter t) b c imm) 0x30 1) ∧ (2 ^ 16 ≤ v.toNat → ends (.capset (.rafter t) b c 0) 0x32 1) ∧
    (¬ bad → tst h 23 = false → (d.answersT t = true → d.live t (hCl h) = true → ends (.trig (.rafter t) b 0) 0x39 1) ∧
      (d.answersT t = false ∨ d.live t (hCl h) = false → ends (.trig (.rafter t) b 0) 0x39 3)) ∧
    (fld h 31 23 ≠ 0 ∨ fld h 15 14 ≠ 0 ∨ far → ends (.fmaxw (.rafter t) b c 0) 0x33 1) ∧
    (fld h 31 23 = 0 → fld h 15 14 = 0 → hTile h = t ∨ hTile h = 0x7F → acts (.fmaxw (.rafter t) b c 0) 0x33 (.fmaxw (fld h 13 0) v)
      (fmaxPut t (4 * fld h 13 0) (wordBytes v) s.mem d).1 (fmaxPut t (4 * fld h 13 0) (wordBytes v) s.mem d).2)

/-- R274, R292, R293: QRY gives the value of its kind of Table 10-11 in g[a], from the mirrors for the Ridge and live for a Rafter; a kind that is reserved, or of
another scope than the handle's, is RANGE. POST takes a record of the program's code and words; RANGE outside 0x2000 to 0x3FFF. Nothing else changes.
A power shown in W is rounded as the free value Config.inUnits has it (log 3). That a QRY with an immediate of 256 and above is UNKNOWN is the model's reading (log 35). -/
def Obligations.QueryAndPost : Prop :=
  ∀ (s : State) (k : CoreId) (a b c imm : Nat), s.Inv → s.dev.ready k = true →
    let h := (s.dev.core k).rd b
    let r := opQry (coreWriter k) h (BitVec.ofNat 32 imm) s.mem s.dev
    (imm < 256 → exec (.qry k a b imm) s = .next (s.onCore k fun x => (if r.1 = 0 then x.wr a r.2 else x).complete 0x35 r.1)) ∧
    (256 ≤ imm → exec (.qry k a b imm) s = .next (s.onCore k fun x => x.complete 0x35 9)) ∧
    let gets := fun (kind : Nat) (w : Word) => exec (.qry k a b kind) s = .next (s.onCore k fun x => (x.wr a w).complete 0x35 0)
    let watts := fun (p : Int) => BitVec.ofNat 32 (if p % 1000 = 0 then (p / 1000).toNat else Config.inUnits p 1000)
    let range := fun (l : List Nat) => ∀ kind, kind < 256 → kind ∉ l → exec (.qry k a b kind) s = .next (s.onCore k fun x => x.complete 0x35 1)
    (∀ t, t < 96 → k = .ridge ∨ k = .rafter t →
      let v := match k with | .ridge => shadowView s.dev t | .rafter _ => liveView s.mem s.dev t
      let n := fun (x : Nat) => BitVec.ofNat 32 x
      (∀ cl, cl < 18 → h = n (65536 * t + cl) → v.d.answersT t = true → v.d.live t cl = true →
        let y := v.d.cl t cl
        let reg := fun off => windowWord v t (0x80 * cl + off)
        gets 0x00 (n y.seq.whole) ∧ gets 0x01 (n y.seq.atarget) ∧ gets 0x02 (reg 0x0C) ∧ gets 0x03 (BitVec.ofInt 32 y.fus.icl) ∧
        gets 0x04 (BitVec.ofInt 32 y.bud.pm) ∧ gets 0x05 (BitVec.ofInt 32 y.bud.pe) ∧ gets 0x06 (BitVec.ofInt 32 y.thm.eff) ∧ gets 0x07 (reg 0x70) ∧
        gets 0x08 (reg 0x50) ∧ gets 0x09 (reg 0x1C) ∧ gets 0x0A (reg 0x3C) ∧ gets 0x0B (reg 0x60) ∧ range (List.range 12)) ∧
      (h = n (65536 * t + 2 ^ 23) → v.d.answersT t = true → gets 0x20 (watts (v.d.tl t).power) ∧ gets 0x21 (windowWord v t 0xB04) ∧
        gets 0x22 (windowWord v t 0x904) ∧ range [0x20, 0x21, 0x22])) ∧
    (k = .ridge → h = 0x00FF0000 → gets 0x40 (watts s.dev.bud.pdev) ∧ gets 0x41 (devWord s.dev 0x500C) ∧
      gets 0x42 (BitVec.ofNat 32 s.dev.bud.devcap) ∧ gets 0x43 (devWord s.dev 0x3010) ∧ gets 0x44 (devWord s.dev 0x4014) ∧
      range [0x40, 0x41, 0x42, 0x43, 0x44]) ∧
    (imm < 0x2000 ∨ 0x4000 ≤ imm → exec (.post k b c imm) s = .next (s.onCore k fun x => x.complete 0x36 1)) ∧
    (0x2000 ≤ imm → imm < 0x4000 → ∃ t, exec (.post k b c imm) s = .next t ∧ t.mem = s.mem ∧
      ((takeRec { code := imm, sub := 8, tile := coreTile k, d0 := h, d1 := (s.dev.core k).rd c } s.dev).onCore k fun x => x.complete 0x36 0).Aside t.dev ∧
      (1000 ≤ (s.dev.log.bucket imm).tokens → s.dev.log.frzFull = false → s.dev.log.pendFull = false → s.dev.log.npend < 63 →
        s.dev.log.pf = false →
        t.dev.log.buf = (if s.dev.log.buf.length < 2048 then s.dev.log.buf
          else if s.dev.log.nvok = true ∧ s.dev.log.full = false then s.dev.log.buf.eraseP fun y => !y.pend else s.dev.log.buf.tail) ++
          [{ code := imm, sub := 8, tile := coreTile k, d0 := h, d1 := (s.dev.core k).rd c,
             pcc := s.dev.log.pcc, optime := s.dev.log.optime, seq := s.dev.log.seq }]))

/-- R297, R300: SEND queues the message with its words from data RAM, or completes with its status; RECV takes the oldest message, at most MAX words of it
to data RAM and its header to g[a], or completes with STATE where the queue is empty. Every byte outside the words copied stands.
The order of the checks is the model's reading (logs 84, 93). -/
def Obligations.SendAndReceive : Prop :=
  ∀ (s : State) (k : CoreId) (a b c imm : Nat), s.Inv → s.dev.ready k = true →
    let x := s.dev.core k
    let dst := x.rd b
    let ad := (x.rd c).toNat
    let len := imm % 16
    let st := sendStatus k dst ad len s.dev
    let msg : Msg := { src := k, dst := if tst dst 31 then none else some (hTile dst), bcast := k == .ridge && !tst dst 31 && hTile dst == 0x7F
                       tag := imm / 16, words := readWords s.mem (dataBase k + ad) len, no := s.dev.issued }
    (imm < 4096 → st = 0 → exec (.send k b c imm) s = .next { s with dev :=
      { s.dev.onCore k (fun x => { x with outq := x.outq ++ [msg] }.complete 0x37 0) with issued := s.dev.issued + 1 } }) ∧
    (imm < 4096 → st ≠ 0 → exec (.send k b c imm) s = .next (s.onCore k fun x => x.complete 0x37 st)) ∧
    (len = 0 ∨ 8 < len → fld dst 30 23 = 0 → fld dst 15 0 = 0 → tst dst 31 = true → k ≠ .ridge → st = 1) ∧
    (1 ≤ len → len ≤ 8 → fld dst 30 23 = 0 → fld dst 15 0 = 0 → tst dst 31 = true → k ≠ .ridge → ad % 4 = 0 → ad + 4 * len ≤ dataSize k →
      (x.outq.length < 8 → st = 0) ∧ (8 ≤ x.outq.length → st = 8)) ∧
    (imm < 16 → 1 ≤ imm → imm ≤ 8 → (x.rd b).toNat % 4 = 0 →
      (x.inq = [] → (x.rd b).toNat < dataSize k → exec (.recv k a b imm) s = .next (s.onCore k fun x => x.complete 0x38 2)) ∧
      (∀ y l, x.inq = y :: l → (x.rd b).toNat < dataSize k → (x.rd b).toNat + 4 * min imm y.words.length ≤ dataSize k →
        ∃ t, exec (.recv k a b imm) s = .next t ∧ t.pending = s.pending ∧
          t.dev.butPallets = (s.dev.onCore k fun x => ({ x with inq := l }.wr a y.header).complete 0x38 0).butPallets ∧
          readWords t.mem (dataBase k + (x.rd b).toNat) (min imm y.words.length) = y.words.take imm ∧
          ∀ q, q < dataBase k + (x.rd b).toNat ∨ dataBase k + (x.rd b).toNat + 4 * min imm y.words.length ≤ q → Mem.read t.mem q = Mem.read s.mem q))

/-- R294, R295, R298, R299, R301, R309: a message, in transit or waiting in its core's queue, arrives at its destination or draws a late refusal; a broadcast,
behind every earlier message of the core to a tile, arrives at once at every Rafter that can take it, and draws no refusal; a late refusal enters the queue of
the writer it returns to, or is counted as lost; an operation that arrives is checked again and acts, or is given back with the status of the check that fails.
That messages leave in transit and from the queue alike (log 104), and that a broadcast arrives everywhere in one command (log 68), are the model's choices. -/
def Obligations.PurlinDeliveries : Prop :=
  ∀ (s : State), s.Inv →
    (∀ k into m, (s.dev.wire.filter (·.src == k) ++ (s.dev.core k).outq).find? (fun m => (m.bcast && into.isSome) || (!m.bcast && m.dst == into)) = some m →
      m.bcast = false → m.src = k → s.dev.first (coreWriter k) into m.no = true →
      let dst := match into with | none => CoreId.ridge | some n => .rafter n
      let d := { s.dev with wire := s.dev.wire.filter fun y => y.no != m.no }.onCore k fun x => { x with outq := x.outq.filter fun y => y.no != m.no }
      (d.deliverTo dst = 0 → exec (.messageDelivery k into) s = .next { s with dev := d.onCore dst fun x => { x with inq := x.inq ++ [m] } }) ∧
      (d.deliverTo dst ≠ 0 → exec (.messageDelivery k into) s = .next { s with dev := { d with back := d.back ++
        [(coreWriter k, { status := d.deliverTo dst, op := 0x37, tile := m.dst.getD 0x7F, cluster := 0, seq := 0 })] } })) ∧
    (∀ k t m, (s.dev.wire.filter (·.src == k) ++ (s.dev.core k).outq).find? (fun m => m.bcast || (!m.bcast && m.dst == some t)) = some m →
      m.bcast = true → m.src = k → s.dev.first (coreWriter k) none m.no = true →
      (∀ y ∈ s.dev.wire.filter (·.src == k) ++ (s.dev.core k).outq, y.no < m.no → y.dst = none) →
      let d := { s.dev with wire := s.dev.wire.filter fun y => y.no != m.no }.onCore k fun x => { x with outq := x.outq.filter fun y => y.no != m.no }
      s.gives (.messageDelivery k (some t)) (d.mapT fun t x =>
        if x.present && !x.rst && d.deliverTo (.rafter t) == 0 then { x with core := { x.core with inq := x.core.inq ++ [m] } } else x)) ∧
    (∀ k r, s.dev.back.find? (·.1 == coreWriter k) = some (coreWriter k, r) → (s.dev.core k).on = true →
      exec (.lateRefusal (coreWriter k)) s = .next { s with dev := { s.dev with back := s.dev.back.eraseP (·.1 == coreWriter k) }.onCore k fun x =>
        if x.lref.length < 8 then { x with lref := x.lref ++ [r] } else { x with lrlost := min 255 (x.lrlost + 1) } }) ∧
    (∀ r, s.dev.back.find? (·.1 == .host) = some (.host, r) → s.dev.hp.hlref.length < 8 →
      exec (.lateRefusal .host) s = .next { s with dev := { s.dev with
        back := s.dev.back.eraseP (·.1 == .host), hp := { s.dev.hp with hlref := s.dev.hp.hlref ++ [r], fenced := min 255 (s.dev.hp.fenced + 1) } } }) ∧
    (∀ src t f, s.dev.air.find? (fun f => f.src == src && f.tile == t) = some f → s.dev.noMsgBefore src t f.no = true → (∀ o h l n, f.kind ≠ .sub o h l n) →
      let d := { s.dev with air := s.dev.air.filter fun g => g.no != f.no }
      let k := opChecks (liveView s.mem d t) f
      let st := { k with absent := k.absent || boolAt d.pur.lost t }.arrival
      (st = 0 → ∃ u, exec (.operationArrival src t) s = .next u ∧ u.mem = (opPut f s.mem d).1 ∧ (opPut f s.mem d).2.Aside u.dev) ∧
      (st ≠ 0 → exec (.operationArrival src t) s = .next { s with dev := { d with back := d.back ++
        [(src, { status := st, op := f.op, tile := t, cluster := f.cluster, seq := f.seq })] } }))

/-! ### Regulator cells (chapter 2) -/

/-- R40 to R44, R49, R53: a pulse starts with the on-time of its duty word, the one in force or the one written before its start, and trim; a cycle limit ends it, be it the last one of a phase that has been
shed or a second one of a period, marks the period once and, on the first period limited, sets CLIMIT; overshoot truncation ends every pulse of the cell and sets OVTRUNC. A cell that cannot starts and truncates nothing. Nothing else changes. Duty word 0 under
a trim and the one CLIMIT of a run are the model's readings (logs 15, 16). -/
def Obligations.PulsesAndTruncation : Prop :=
  ∀ (s : State) (t c r p : Nat), s.Inv →
    let k := s.dev.cl t c
    let x := k.cell r
    let y := x.phases.getD p {}
    let at' := 768 * s.dev.clk.sw + 192 * p + 24 * r
    let duty := match x.wnext with | some (w, v) => if 128 * w < at' then v else x.duty | none => x.duty
    (x.mode = .run → x.trunc = false → s.gives (.pulseStart t c r p) (s.dev.onR t c r fun x => x.onPh p fun y =>
      { y with pulse := if y.active = false ∨ duty = 0 then 0 else (max 0 (min 767 (((min 767 duty : Nat) : Int) + y.trim))).toNat })) ∧
    (x.mode ≠ .run ∨ x.trunc = true → s.gives (.pulseStart t c r p) s.dev) ∧
    (y.active = true ∨ y.pulse ≠ 0 → s.leads (.cycleLimit t c r p)
      (s.dev.onR t c r fun x => x.onPh p fun y => { y with pulse := 0, atLimit := true, limRun := if y.atLimit then y.limRun else y.limRun + 1 })
      (if y.limRun = 0 then [(1, 2, .cluster t c)] else [])) ∧
    (y.active = false → y.pulse = 0 → s.gives (.cycleLimit t c r p) s.dev) ∧
    (k.loop.outOn = true → k.loop.pgood = true → x.mode = .run → x.blank = 0 → s.leads (.overshootTruncation t c r)
      (s.dev.onC t c fun k => { k with
        cells := k.cells.modify r fun x => { x with phases := x.phases.map fun y => { y with pulse := 0 }, overT := true, trunc := true }
        loop := { k.loop with ovcnt := if k.cells.any (·.trunc) then k.loop.ovcnt else min 0xFFFF (k.loop.ovcnt + 1) } })
      (if x.overT then [] else [(1, 1, .cluster t c)])) ∧
    (k.loop.outOn = false ∨ k.loop.pgood = false ∨ x.mode ≠ .run ∨ 0 < x.blank → s.gives (.overshootTruncation t c r) s.dev)

/-- R54, R55, R57, R63, R65: a cell whose phase was at limit for NLIM periods hiccups with HICCUP, or latches off with LATCH once its retries are used, and the
cluster goes dark at five regulators lost (R255); 200 µs later the cell restarts with the preset duty and counts a retry, or is in lockout where its
input is low (R58); 10 ms after a hiccup the count returns to 0 in a cell that runs. Nothing else changes.
The preset duty at an input reading of 0 (log 14), and that time in lockout counts toward the 10 ms (log 111), are the model's. -/
def Obligations.HiccupsAndRetries : Prop :=
  ∀ (s : State) (t c r p ns : Nat), s.Inv → t < s.dev.tiles.length → c < (s.dev.tl t).clusters.length → r < (s.dev.cl t c).cells.length →
    let d := s.dev
    let k := d.cl t c
    let x := k.cell r
    let lost := fun (k : Cluster) => if 5 ≤ k.nLost then { k with dark := true } else k
    let stopped := fun (x : Cell) (m : CellMode) =>
      ({ x with phases := x.phases.map (fun y => { y with active := false, pulse := 0, limRun := 0, atLimit := false }), overT := false, under := false
                trunc := false, shed := .steady, shedRun := 0, mode := m, hicAt := d.clk.now } : Cell)
    let h := d.onC t c fun k => { k with cells := k.cells.modify r fun x => stopped x .hiccup, loop := { k.loop with addAll := true } }
    let l := d.onC t c fun k => lost { k with loop := { k.loop with addAll := true }, cells := k.cells.modify r fun x =>
      let x := stopped x .latched
      { x with phases := x.phases.map fun y => { y with avail := false } } }
    let at' := { d with clk := { d.clk with now := max d.clk.now ns } }
    (x.mode = .run → fld k.loop.occfgE 7 0 ≤ (x.phases.getD p {}).limRun →
      (x.retries < fld k.loop.occfgE 10 8 → s.leads (.hiccup t c r p) (trcEvent t c 6 h) [(1, 3, .cluster t c)]) ∧
      (fld k.loop.occfgE 10 8 ≤ x.retries → s.leads (.hiccup t c r p) (trcEvent t c 6 l)
        ((1, 4, .cluster t c) :: if (l.cl t c).dark && !k.dark then [(1, 16, .cluster t c)] else []))) ∧
    (x.mode ≠ .run ∨ (x.phases.getD p {}).limRun < fld k.loop.occfgE 7 0 → s.gives (.hiccup t c r p) d) ∧
    (x.mode = .hiccup → x.hicAt + 200000 ≤ ns → x.low = true →
      s.gives (.hiccupRetry t c r ns) (at'.onR t c r fun x => { x with mode := .uvlo, low := false, retries := x.retries + 1 })) ∧
    (x.mode = .hiccup → x.hicAt + 200000 ≤ ns → x.low = false → s.gives (.hiccupRetry t c r ns) (at'.onR t c r fun x =>
      let x := (x.latchAt ns).wordBy ns
      let x := { x with mode := .run, blank := 8, cu := List.replicate 3 (4 * (x.preset : Int)), ce := [0, 0, 0], retries := x.retries + 1 }
      if k.loop.outOn then { x with phases := x.phases.map (fun y => { y with active := y.avail, trim := 0, limRun := 0, atLimit := false })
                                    duty := x.preset, fpre := some x.preset, shed := .steady, shedRun := 0 } else x)) ∧
    (x.mode ≠ .hiccup ∨ ns < x.hicAt + 200000 → s.gives (.hiccupRetry t c r ns) at') ∧
    (x.mode = .run → x.hicAt + 10000000 ≤ ns → s.gives (.retryCountReset t c r ns) (at'.onR t c r fun x => { x with retries := 0 })) ∧
    (x.mode ≠ .run ∨ ns < x.hicAt + 10000000 → s.gives (.retryCountReset t c r ns) at')

/-- R58, R59, R62, R63, R65: under-voltage lockout stops a running cell with UVLO, is noted with UVLO in a hiccup's off-time, and ends with a restart; a shorted
phase is disconnected with SHORT and PHDISC, a cell left with two phases or fewer is lost, and with its switch stuck closed the cell latches off with LATCH
too. Nothing else changes. -/
def Obligations.LockoutAndShorts : Prop :=
  ∀ (s : State) (t c r p : Nat), s.Inv → t < s.dev.tiles.length → c < (s.dev.tl t).clusters.length → r < (s.dev.cl t c).cells.length →
    let d := s.dev
    let k := d.cl t c
    let x := k.cell r
    let stopped := fun (x : Cell) =>
      ({ x with phases := x.phases.map (fun y => { y with active := false, pulse := 0, limRun := 0, atLimit := false }), overT := false, under := false
                trunc := false, shed := .steady, shedRun := 0 } : Cell)
    let lose := fun (x : Cell) (m : CellMode) =>
      ({ x with phases := x.phases.map (fun y => { y with avail := false, active := false, pulse := 0, limRun := 0, atLimit := false }), overT := false
                under := false, trunc := false, shed := .steady, shedRun := 0, mode := m } : Cell)
    let lost := fun (m : CellMode) (k : Cluster) =>
      let k : Cluster := { k with cells := k.cells.modify r (lose · m), loop := { k.loop with addAll := true } }
      if 5 ≤ k.nLost then { k with dark := true } else k
    let opened := fun (k : Cluster) => ({ k with cells := k.cells.modify r fun x =>
      { x with phases := x.phases.modify p fun y => { y with avail := false, active := false, pulse := 0, limRun := 0, atLimit := false } } } : Cluster)
    (x.mode = .run → d.hasC t c = true → s.leads (.uvlo t c r)
      (d.onC t c fun k => { k with loop := { k.loop with addAll := true }, cells := k.cells.modify r fun x => { stopped x with mode := .uvlo } })
      [(1, 7, .cluster t c)]) ∧
    (x.mode = .hiccup → x.low = false → d.hasC t c = true → s.leads (.uvlo t c r) (d.onR t c r fun x => { x with low := true }) [(1, 7, .cluster t c)]) ∧
    (x.mode ≠ .run ∧ (x.mode = .hiccup → x.low = true) ∨ d.hasC t c = false → s.gives (.uvlo t c r) d) ∧
    (x.mode = .uvlo → s.gives (.uvloRestart t c r) (d.onR t c r fun x =>
      let x := (x.latchAt d.clk.now).wordBy d.clk.now
      let x := { x with mode := .run, blank := 8, cu := List.replicate 3 (4 * (x.preset : Int)), ce := [0, 0, 0] }
      if k.loop.outOn then { x with phases := x.phases.map (fun y => { y with active := y.avail, trim := 0, limRun := 0, atLimit := false })
                                    duty := x.preset, fpre := some x.preset, shed := .steady, shedRun := 0 } else x)) ∧
    (x.mode ≠ .uvlo → s.gives (.uvloRestart t c r) (d.onR t c r fun x => { x with low := false })) ∧
    ((x.phases.getD p {}).avail = true → x.mode ≠ .latched → x.mode ≠ .failed → p < x.phases.length → d.hasC t c = true →
      s.leads (.short t c r p true) (trcEvent t c 6 (d.onC t c (lost .latched))) [(1, 6, .cluster t c), (1, 5, .cluster t c), (1, 4, .cluster t c)] ∧
      s.leads (.short t c r p false)
        (trcEvent t c 6 (d.onC t c fun k => if ((opened k).cell r).nAvail ≤ 2 then lost .failed (opened k) else opened k))
        [(1, 6, .cluster t c), (1, 5, .cluster t c)]) ∧
    ((x.phases.getD p {}).avail = false ∨ x.mode = .latched ∨ x.mode = .failed ∨ d.hasC t c = false → ∀ b, s.gives (.short t c r p b) d)

/-- R50, R52, R63, R156: an undershoot comparator that trips asserts the droop flag with DROOP and counts it; the flag clears no sooner than 6 ns later and the
hold-off runs for 200 ns more. Nothing else changes. -/
def Obligations.DroopFlag : Prop :=
  ∀ (s : State) (t c r ns : Nat), s.Inv →
    let d := { s.dev with clk := { s.dev.clk with now := max s.dev.clk.now ns } }
    let k := d.cl t c
    let x := k.cell r
    (k.loop.outOn = true → k.loop.pgood = true → x.mode = .run → x.blank = 0 → x.undOut = false →
      (k.loop.droop = false → s.leads (.droopAssert t c r ns) (trcEvent t c 1 (d.onC t c fun k => { k with
        cells := k.cells.modify r fun x => { x with under := true }
        loop := { k.loop with droop := true, droopAt := ns, holdoff := false, drpcnt := min 0xFFFF (k.loop.drpcnt + 1), addAll := true
                              droops := (ns :: k.loop.droops).take 64 } })) [(1, 0, .cluster t c)]) ∧
      (k.loop.droop = true → s.gives (.droopAssert t c r ns) (d.onR t c r fun x => { x with under := true }))) ∧
    (k.loop.outOn = false ∨ k.loop.pgood = false ∨ x.mode ≠ .run ∨ 0 < x.blank ∨ x.undOut = true → s.gives (.droopAssert t c r ns) d) ∧
    (k.loop.droop = true → k.loop.droopAt + 6 ≤ ns → s.gives (.droopDeassert t c ns) (d.onC t c fun k => { k with
      cells := k.cells.map fun x => { x with under := false }, loop := { k.loop with droop := false, droopEnd := ns, holdoff := true } })) ∧
    (k.loop.droop = false ∨ ns < k.loop.droopAt + 6 → s.gives (.droopDeassert t c ns) d) ∧
    (k.loop.holdoff = true → k.loop.droop = false → k.loop.droopEnd + 200 ≤ ns → s.gives (.droopHoldoffEnd t c ns) (d.onLoop t c fun l =>
      { l with holdoff := false })) ∧
    (k.loop.holdoff = false ∨ k.loop.droop = true ∨ ns < k.loop.droopEnd + 200 → s.gives (.droopHoldoffEnd t c ns) d)

/-- R71, R72, R91, R101, R103, R106, R246, R259: the fall-back word takes effect; a hand-over that is due passes the cluster to its fall-back compensators, a
word of the Remontoire whose write instant has come being in force and a later one not written; a stalled loop, an isolated K cluster's that regulates in B1
among them, sets LOOPSTALL and is handed over; the array self-test remaps failing lanes, each to the lowest spare left, and leaves failing spares out, with BIST where any
failed; with REMAPEN 0 it tells the last failing lane in LOOP_LOCATE. Nothing else changes.
When a hand-over takes effect, and that a word still to be written then is not, are the model's readings (logs 43, 44); so is where a failing lane is told (log 97). -/
def Obligations.FallbackAndHandover : Prop :=
  ∀ (s : State) (t c r : Nat) (failing : List Nat), s.Inv →
    let d := s.dev
    let k := d.cl t c
    s.gives (.fallbackDutyWrite t c r) (d.onR t c r fun x => match x.fword with
      | some w => { x with fword := none, duty := if k.loop.fb then w else x.duty } | none => x) ∧
    (∀ cause ns, k.loop.handDue = some (cause, ns) → ns < 48 * d.clk.per → s.leads (.handover t c) (d.onC t c fun k => { k with
      loop := { k.loop with handDue := none, handed := true, retDue := false, hold := false, fb := true, entry := k.loop.entry || !k.loop.fb
                            entryLeft := if k.loop.fb then k.loop.entryLeft else 0, lastW := if k.loop.fb then k.loop.lastW else [] }
      cells := k.cells.map fun x => if k.loop.fb then x else { x with
        wnext := none, duty := match x.wnext with | some (w, v) => if w ≤ 48 * d.clk.per then v else x.duty | none => x.duty } }) []) ∧
    ((∀ cause ns, k.loop.handDue = some (cause, ns) → 48 * d.clk.per ≤ ns) → s.gives (.handover t c) d) ∧
    let rules := d.hasC t c = true ∧ (k.isolated = false ∨ k.loop.outOn = true) ∧ k.loop.fb = false
    (rules → s.leads (.loopStall t c) (d.onLoop t c fun l =>
      if l.handed then l else { l with handDue := some (l.handDue.getD (5, d.clk.now)) }) [(2, 16, .cluster t c)]) ∧
    (¬ rules → s.gives (.loopStall t c) d) ∧
    (d.hasT t = true → s.gives (.arraySelftestDone t []) (d.onRem t fun r => { r with badSpares := [], bist := 2 })) ∧
    let bad := failing.filter fun l => 992 ≤ l && l < 1024
    let lanes := failing.filter fun l => l < 992
    let free := ({ (d.tl t).rem with badSpares := bad } : Rem).freeSpares
    let named := fun (lane : Nat) => let first := if lane < 480 then lane else if lane < 512 then lane - 480 else (lane - 512 + 239) % 480
      word [(if lane < 480 then 0 else if lane < 512 then 2 else 1, 30), (first / 160, 20), (first % 160, 12), (lane, 0)]
    (d.hasT t = true → failing ≠ [] → tst (d.tl t).rem.ctrlE 1 = false → s.leads (.arraySelftestDone t failing)
      (d.onRem t fun r => { r with badSpares := bad, bist := 3, locate := (lanes.getLast?.map named).getD r.locate }) [(2, 7, .tile t)]) ∧
    (d.hasT t = true → failing ≠ [] → tst (d.tl t).rem.ctrlE 1 = true → lanes.length ≤ free.length → s.leads (.arraySelftestDone t failing)
      (d.onRem t fun r => { r with badSpares := bad, bist := 3, remaps := r.remaps ++ lanes.zip free }) [(2, 7, .tile t)]) ∧
    (d.hasT t = true → tst (d.tl t).rem.ctrlE 1 = true → free.length < lanes.length → s.makes (.arraySelftestDone t failing) fun u =>
      (u.tl t).rem.bist = 3 ∧ (u.tl t).rem.remaps = (d.tl t).rem.remaps ++ lanes.zip free ∧ u.pends 2 7 (.tile t) ∧ u.pends 2 5 (.tile t)) ∧
    (d.hasT t = false → s.gives (.arraySelftestDone t failing) d)

/-- R82, R83, R86, R89 to R92, R120, R130: the words of one sample. The state-space law gives innovation, correction, control and prediction, each the exact
sum rounded half to even and saturated or clamped, with a missing regulator's words 0. A sample of an L or S cluster with no lane error, no edge and no change
due runs that law on what its slot start latches (at an entry with the prior state from the measurements; for eight samples within ±16 of the word in force)
and writes its duty words 40 ns after the slot start, leaving those in force until then; one of a K or M cluster does the same with the law of R89. While the
fall-back writes a K or M cluster's words the history follows them. -/
def Obligations.StateSpaceLaw : Prop :=
  (∀ (F : Nat) (x : SampleIn), x.f.length = 4 →
    let o := runSample F x fun a => a.word [] .M0
    let sat := fun (v : Int) => max (-32768) (min 32767 v)
    let sum := fun (n : Nat) (f : Nat → Int) => sumI ((List.range n).map f)
    let gone := fun (i : Nat) => x.miss.getD (i % 8) true = true
    let cC := fun i j => coefAt F (20 * i + j)
    let cL := fun i j => coefAt F (320 + (16 * i + j))
    let cK := fun i j => coefAt F (640 + (20 * i + j))
    let cA := fun i j => coefAt F (800 + (20 * i + j))
    let cB := fun i j => coefAt F (1120 + (12 * i + j))
    (∀ i, i < 16 → at0 o.nu i = if 8 ≤ i ∧ x.rep.getD (i - 8) false = true then 0
      else sat (divHE (at0 x.y i * 32768 - if gone i then 0 else sum 20 fun j => cC i j * at0 x.xp j) 32768)) ∧
    (∀ i, i < 20 → at0 o.xc i = sat (divHE (at0 x.xp i * 32768 + if 8 ≤ i ∧ i < 16 ∧ gone i then 0 else sum 16 fun j => cL i j * at0 o.nu j) 32768)) ∧
    (∀ i, i < 8 → (gone i → at0 o.d i = 0 ∧ at0 o.w i = 0) ∧
      (¬ gone i → (x.lim.getD i (0, 767)).1 ≤ (x.lim.getD i (0, 767)).2 →
        at0 o.d i = max (x.lim.getD i (0, 767)).1 (min (x.lim.getD i (0, 767)).2 (divHE (at0 x.beta i * 32768 + sum 20 fun j => cK i j * at0 o.xc j) 131072)) ∧
        at0 o.w i = sat (4 * at0 o.d i - at0 x.beta i))) ∧
    (∀ q, q < 4 → at0 o.w (8 + q) = at0 x.f q) ∧
    (∀ i, i < 16 → at0 o.xp i = if 8 ≤ i ∧ gone i then 0
      else sat (divHE ((sum 20 fun j => cA i j * at0 o.xc j) + sum 12 fun j => cB i j * at0 o.w j) 32768)) ∧
    (∀ q, q < 4 → at0 o.xp (16 + q) = sat (divHE (at0 o.xc (16 + q) * 32768 + sum 12 fun j => cB (16 + q) j * at0 o.w j) 32768))) ∧
  ∀ (s : State) (t c : Nat), s.Inv → s.dev.hasC t c = true → c < 18 →
    let d := s.dev
    let k := d.cl t c
    let S := 48 * d.clk.per + 3 * (if c < 16 then c else c - 2)
    let sat := fun (v : Int) => max (-32768) (min 32767 v)
    -- the cells as the slot start finds them
    let cell := fun (r : Nat) => ((k.cell r).latchAt S).wordBy S
    let gone := fun (r : Nat) => (k.cell r).mode ≠ .run
    let slot := k.fus.slotFor c (min 2 (k.cells.countP fun x => x.mode != .run))
    let still := k.cells.length = 8 ∧ k.loop.outOn = true ∧ k.seq.move = none ∧ k.seq.held = [] ∧ k.seq.queue = [] ∧ k.seq.cur = none ∧ k.seq.chg = .none ∧
      (d.tl t).rem.acts = [] ∧ (d.tl t).esc.edges = []
    let computes := still ∧ k.loop.fb = false ∧ 600000 ≤ k.seq.ref ∧ k.fus.due = none ∧ k.fus.rel = none ∧ tst k.fus.clctl 8 = false ∧ tst k.fus.clctlE 8 = false ∧
      (d.tl t).fus.run = true ∧ (d.tl t).fus.runDue = false ∧ slot ≠ 0x3F ∧ (∀ j ∈ (d.tl t).rem.queue, j.c ≠ c)
    (computes → c < 14 → k.loop.carry.length = 4 → k.loop.xp.length = 20 →
      let f := k.loop.carry.map sat
      let y := (List.range 8).map (fun r => if gone r then (0 : Int) else sat (4 * ((cell r).vcode : Int) - (k.cell r).rho)) ++
        (List.range 8).map fun r => if gone r then 0 else sat (divHE (cell r).cur 4)
      let base := fun (i : Nat) => if k.loop.entry then (if i < 16 then at0 y i else sat (divHE (at0 y (8 + 2 * (i - 16)) + at0 y (9 + 2 * (i - 16))) 2)) else at0 k.loop.xp i
      let x : SampleIn := {
        c := c, y := y, f := f, beta := k.cells.map (·.beta), miss := k.cells.map (·.mode != .run), rep := k.cells.map fun x => decide (0 < x.senseRep)
        xp := (List.range 20).map fun i => if 16 ≤ i then sat (base i + at0 f (i - 16)) else if 8 ≤ i ∧ gone (i - 8) then 0 else base i
        lim := (List.range 8).map fun r => if k.loop.entry = true ∨ 0 < k.loop.entryLeft then (max 0 (((cell r).duty : Int) - 16), min 767 (((cell r).duty : Int) + 16))
          else (0, 767) }
      let o := runSample (coefField s.mem t slot) x fun a => a.word [] .M0
      s.makes (.clusterSample t c []) fun u =>
        let l := (u.cl t c).loop
        (∀ r, r < 8 → ((u.cl t c).cell r).wnext = some (S + 40, (at0 o.d r).toNat) ∧ ((u.cl t c).cell r).duty = (cell r).duty) ∧
        l.xp = o.xp ∧ l.y = y ∧ l.nu = o.nu ∧ l.xc = o.xc ∧ l.d = o.d ∧ l.wv = o.w ∧ l.entry = false ∧
        l.entryLeft = (if k.loop.entry then 7 else k.loop.entryLeft - 1) ∧ l.lastW = o.d.map Int.toNat ∧ (S + 47, .innov c y o.nu) ∈ (u.tl t).rem.acts) ∧
    (14 ≤ c →
      let co := fun (j : Nat) => sgn 18 (Mem.readW s.mem (storeBase t + 0xF000 + 0x20 * (slot - 20) + 4 + 4 * j)).toNat
      let e0 := fun (r : Nat) => if gone r then (0 : Int) else sat ((k.cell r).rho - 4 * ((cell r).vcode : Int))
      let u0 := fun (r : Nat) => let x := k.cell r
        if gone r then (0 : Int) else max 0 (min 3068 (divHE (co 0 * at0 x.cu 0 + co 1 * at0 x.cu 1 + co 2 * at0 x.cu 2 + co 3 * e0 r + co 4 * at0 x.ce 0 +
          co 5 * at0 x.ce 1 + co 6 * at0 x.ce 2) 32768))
      (computes → s.makes (.clusterSample t c []) fun u => ∀ r, r < 8 → let z := (u.cl t c).cell r
        z.wnext = some (S + 40, (divHE (u0 r) 4).toNat) ∧ z.duty = (cell r).duty ∧ z.cu = (u0 r :: (k.cell r).cu).take 3 ∧ z.ce = (e0 r :: (k.cell r).ce).take 3) ∧
      (still → k.fus.due = none → k.loop.fb = true → (d.tl t).fus.run = false → s.makes (.clusterSample t c []) fun u => ∀ r, r < 8 → let z := (u.cl t c).cell r
        z.cu = ((if gone r then 0 else 4 * ((cell r).duty : Int)) :: (k.cell r).cu).take 3 ∧ z.ce = (e0 r :: (k.cell r).ce).take 3))

/-- R40, R54, R72, R82, R86, R89, R92, R168: no command gives a duty word above 767, in force, about to be written or kept for a repeat, where none stood. -/
def Obligations.DutyWordsInRange : Prop :=
  ∀ (s t : State) (i : Instr), s.dev.dutiesInRange → exec i s = .next t → t.dev.dutiesInRange

/-- R22, R65 to R69, R85, R97 to R102, R104, R178 to R181: a sample takes up the comparator, limit, shed, set-point-bound and state settings written and counts one in the sequence; it counts the
repeats that have completed and the mismatches whose compare points have come. A cluster not in the floor plan has no sample. A repeat whose turn it is stays
in the queue until 47 ns after its slot start, when it is complete; where the cluster has gone to the fall-back or off, its repeat leaves the queue
uncounted. One whose turn it is not, or for which nothing waits, is the ordinary sample. A repeat writes the words on which two of M0, M1 and M2 agree, or those
of the sample before where some word finds no two; its verdict comes with the instant at which it completes, and is Table 3-11's: the event, and the lanes
remapped or charged (R100 to R102). At a sample a regulator adds phases, or announces, keeps, cancels or executes a shed (Table 2-7, R65 to R69); and its cluster takes up a
waiting set-point transition, at the bound where its code lies outside the span, and begins it upwards, downwards or with no movement, or counts a sample of settling
and at the eighth grants (R178 to R181).
Which slot a waiting repeat takes, and what drops it (log 46), that a sample of a cluster in the fall-back or off is one all the same (log 43), that two
bases of the clock do not check each other (log 39), from which words the first results went on (log 96), which lanes a verdict names once (log 97), that the third
charge uses up the lane's charges (log 112), and when a verdict takes effect (log 138) are the model's readings. -/
def Obligations.SamplesAndRepeats : Prop :=
  ∀ (s : State) (t c : Nat) (e : List LaneDelta), s.Inv →
    let d := s.dev
    let r := (d.tl t).rem
    let S := 48 * d.clk.per + 3 * (if c < 16 then c else c - 2)
    let done := fun (j : VoteJob) => ∃ e, j.fin = some e ∧ e ≤ S
    let counted := fun (u : Dev) => (u.tl t).rem.votes = min 0xFFFF (r.votes + r.queue.countP fun q => match q.fin with | some e => decide (e ≤ S) | none => false) ∧
      (u.tl t).rem.mismatch = min 0xFFFF (r.mismatch + r.mmDue.countP fun n => decide (n ≤ S))
    let taken := fun (u : Dev) => (u.cl t c).loop.seq = ((d.cl t c).loop.seq + 1) % 4096 ∧ (u.cl t c).loop.cmpcfgE = (d.cl t c).loop.cmpcfg ∧
      (u.cl t c).loop.occfgE = (d.cl t c).loop.occfg ∧ (u.cl t c).loop.shedcfgE = (d.cl t c).loop.shedcfg ∧
      (u.cl t c).seq.cllimE = (d.cl t c).seq.cllim ∧ (u.cl t c).seq.clcfgE = (d.cl t c).seq.clcfg ∧ u.clk = { d.clk with now := max d.clk.now S } ∧
      ((d.cl t c).quiet = false → (u.cl t c).fus.clctlE = (d.cl t c).fus.clctl) ∧ counted u
    let turn := fun (j : VoteJob) => r.queue.find? (fun j => j.c == c && j.fin.isNone) = some j ∧
      (j.own = true ∨ ∀ q ∈ r.queue, q.c ≠ c → S < q.seen ∨ done q ∨ q.own = false ∧ q.fin = none)
    let kept := r.queue.filter fun q => match q.fin with | some e => decide (S < e) | none => true
    let k := d.cl t c
    let x := d.tl t
    let three := fun (l : List VItem) => ∃ v ∈ l, v.isWord = true ∧ v.a0 ≠ v.a1 ∧ v.a0 ≠ v.a2 ∧ v.a1 ≠ v.a2
    let fell := k.loop.outOn = false ∨ (k.loop.fb = true ∧ (x.fus.run = false ∨ x.fus.runDue = true ∨ r.bist = 1 ∨ r.halted = true ∨
      (k.loop.handed = true ∧ k.loop.retDue = false)))
    (d.hasC t c = true → s.makes (.clusterSample t c e) taken) ∧ (d.hasC t c = false → s.gives (.clusterSample t c e) d) ∧
    (d.hasC t c = true → ∀ j, turn j → s.makes (.voteRepeat t c e) taken ∧
      (k.loop.fb = false → k.loop.outOn = true → k.seq.move = none → k.seq.held = [] → k.seq.queue = [] → k.seq.cur = none → k.seq.chg = .none →
        s.makes (.voteRepeat t c e) fun u =>
          (u.tl t).rem.queue = kept.map fun q => if q.c = c then { q with fin := some (S + 47) } else if S < q.seen then { q with own := false } else q) ∧
      (fell → s.makes (.voteRepeat t c e) fun u => (u.tl t).rem.queue = kept.filter fun q => !(q.c == c && q.fin.isNone)) ∧
      -- the words that the repeat writes, and the verdict that is to come
      (r.acts = [] → x.esc.edges = [] → k.loop.fb = false → k.loop.outOn = true → k.cells.length = 8 → k.seq.move = none → k.seq.held = [] → k.seq.queue = [] →
        k.seq.cur = none → k.seq.chg = .none →
        let pick := fun (a : Acc) => if a.word e .M1 = a.word e .M2 then a.word e .M1 else a.word e .M0
        let o := runSample (coefField s.mem t j.slot) j.input pick
        let accs := if c < 14 then o.accs.flatten else compAccs (compSet s.mem t j.slot) k.cells j.y j.miss
        let its := (accs.map fun a => a.items e j.errs).flatten
        s.makes (.voteRepeat t c e) fun u => (S + 47, .verdict c S its) ∈ (u.tl t).rem.acts ∧
          (three its → ∀ r, r < 8 → ((u.cl t c).cell r).wnext = some (S + 40, j.prev.getD r 0)) ∧
          (¬ three its → c < 14 → (u.cl t c).loop.xp = o.xp ∧ ∀ r, r < 8 → ((u.cl t c).cell r).wnext = some (S + 40, (at0 o.d r).toNat)) ∧
          (¬ three its → 14 ≤ c → ∀ r, r < 8 → ((u.cl t c).cell r).wnext = some (S + 40, (divHE (at0 (accs.map pick) r) 4).toNat)))) ∧
    ((∀ j, ¬ turn j) → exec (.voteRepeat t c e) s = exec (.clusterSample t c e) s) ∧
    -- Table 3-11: a verdict that is due at a switching boundary
    (∀ n l rd, d.hasC t c = true → r.acts = [(n + 47, .verdict c n l)] → (∀ b, b ≠ t → (d.tl b).rem.acts = []) → n + 47 ≤ 6 * (d.clk.sw + 1) →
      let halfB := l ≠ [] ∧ ∀ v ∈ l, v.a0 = v.a2 ∧ v.a1 = v.b1 ∧ v.a1 ≠ v.a0
      let halfA := l ≠ [] ∧ ∀ v ∈ l, v.a1 = v.a2 ∧ v.a0 = v.b0 ∧ v.a0 ≠ v.a1
      let g := fun (i : Nat) => if c < 14 then 160 * c + i else 2240 + 8 * (c - 14) + i
      let laneA := fun (v : VItem) => r.carrier (g v.j % 480)
      let laneB := fun (v : VItem) => r.carrier (512 + (g v.j + 241) % 480)
      let laneV := fun (v : VItem) => r.carrier (480 + g v.j % 32)
      let odd := fun (v : VItem) => if v.a0 = v.a1 then laneV v else if v.a0 = v.a2 then laneB v else laneA v
      let remaps := fun (lane : VItem → Nat) (u : Dev) => u.pends 2 1 (.tile t) ∧
        (tst r.ctrlE 1 = false → (u.tl t).rem.remaps = r.remaps) ∧
        (tst r.ctrlE 1 = true → l.length ≤ r.freeSpares.length → ∃ more : List (Nat × Nat), (u.tl t).rem.remaps = r.remaps ++ more ∧
          more.map (·.2) = r.freeSpares.take more.length ∧ ∀ a, a ∈ more.map (·.1) ↔ ∃ v ∈ l, v.lane = true ∧ lane v = a) ∧
        (tst r.ctrlE 1 = true → r.freeSpares = [] → (∃ v ∈ l, v.lane = true) → (u.tl t).rem.remaps = r.remaps ∧ u.pends 2 5 (.tile t) ∧
          ∀ v ∈ l, v.lane = true → ∀ b ∈ d.onLane t (lane v), (d.cl t b).loop.handed = false → (u.cl t b).loop.handDue.isSome = true)
      let same := fun (u : Dev) => (u.tl t).rem.remaps = r.remaps ∧ (u.tl t).rem.charges = r.charges
      s.makes (.switchingBoundary rd) fun u => (u.tl t).rem.acts = [] ∧
        (l = [] → u.pends 2 0 (.cluster t c) ∧ same u) ∧
        (three l → u.pends 2 3 (.cluster t c) ∧ same u ∧ ((d.cl t c).loop.handed = false → (u.cl t c).loop.handDue.isSome = true)) ∧
        (¬ three l → halfB → remaps laneB u) ∧ (¬ three l → ¬ halfB → halfA → remaps laneA u) ∧
        (l ≠ [] → ¬ three l → ¬ halfB → ¬ halfA → u.pends 2 2 (.tile t) ∧
          (∀ v, l = [v] → v.lane = true → v.a0 = v.a1 ∨ v.a0 = v.a2 ∨ v.a1 = v.a2 → let old := r.charges.filter fun p => decide (n + 47 < p.2 + 1000000000)
            ((old.filter fun p => p.1 == odd v).length < 2 → (u.tl t).rem.remaps = r.remaps ∧ (u.tl t).rem.charges = old ++ [(odd v, n + 47)]) ∧
            (2 ≤ (old.filter fun p => p.1 == odd v).length → (u.tl t).rem.charges = (old.filter fun p => p.1 != odd v) ∧
              (tst r.ctrlE 1 = true → ∀ a y, r.freeSpares = a :: y → (u.tl t).rem.remaps = r.remaps ++ [(odd v, a)]))))) ∧
    -- R64 to R69, R177 to R180: the phases of a regulator, and the transition of its cluster, at a sample
    let q := k.seq
    let still := d.hasC t c = true ∧ c < 18 ∧ r.acts = [] ∧ x.esc.edges = [] ∧ k.isolated = false ∧ k.quiet = false ∧ k.loop.outOn = true ∧ q.move = none ∧
      q.held = [] ∧ q.chg = .none
    let own := fun (f : Dev → Prop) => s.makes (.clusterSample t c e) fun u => (u.cl t c).isolated = false → u.flt.safe = d.flt.safe → f u
    (still → q.queue = [] → q.cur = none → q.st = q.stE → ∀ i, i < k.cells.length → (k.cell i).mode = .run →
      let y := ((k.cell i).latchAt S).wordBy S
      let load := sumI (y.phases.map fun p => if p.avail then p.ma else 0)
      let n := y.phases.countP (·.active)
      let a := y.phases.countP (·.avail)
      let full := tst k.loop.shedcfg 0 = false
      let least := min a (if q.st = .A then fld k.loop.shedcfg 2 1 + 1 else 1)
      let want := min a (max least (max (if k.loop.addAll = true ∨ full then a else 0) ((load + 719) / 720).toNat))
      let adds := k.loop.addAll = true ∨ 720 * (n : Int) < load ∨ n < want
      let low := load < 450 * ((n : Int) - 1)
      let run := if low then min 255 (y.shedRun + 1) else 0
      let test := low ∧ least < n ∧ ¬ full
      let blocked := k.loop.droop = true ∨ (∃ z ∈ k.cells, z.mode = .hiccup ∨ z.mode = .uvlo) ∨ q.ref ≠ q.endv
      y.phases.length = 4 → (∀ p ∈ y.phases, p.active = true → p.avail = true) →
      own fun u => let z := (u.cl t c).cell i
        let gone := z.shed = .steady ∧ z.shedRun = 0 ∧ u.pends 1 8 (.cluster t c)
        (z.mode = .run →
          (adds → z.phases.countP (·.active) = max n want ∧ z.shed = .steady ∧ z.shedRun = 0 ∧ (y.shed ≠ .steady → u.pends 1 8 (.cluster t c))) ∧
          (¬ adds → y.shed = .steady → z.phases.map (·.active) = y.phases.map (·.active) ∧ z.shedRun = run ∧
            (test → fld k.loop.shedcfg 15 8 ≤ run → ¬ blocked → ∀ p, [3, 1, 2, 0].find? (fun p => (y.phases.getD p {}).active) = some p → z.shed = .pending1 p) ∧
            (¬ test ∨ run < fld k.loop.shedcfg 15 8 ∨ blocked → z.shed = .steady)) ∧
          (¬ adds → ∀ p, y.shed = .pending1 p → (test → ¬ blocked → z.shed = .pending2 p) ∧ (¬ test ∨ blocked → gone)) ∧
          (¬ adds → ∀ p, p < 4 → y.shed = .pending2 p → (¬ test ∨ blocked → gone) ∧ (test → ¬ blocked → z.shed = .steady ∧ z.shedRun = 0 ∧
            z.phases.map (·.active) = (y.phases.map (·.active)).set p false)))) ∧
    let near := ¬ (q.ref ≠ q.endv) ∧ ∀ y ∈ k.cells, y.mode = .run → (((y.latchAt S).vcode : Int) - q.code).natAbs ≤ fld d.seq.cfg 31 28
    (still → q.queue = [] → ∀ tr, q.cur = some tr → tr.step = 3 ∨ tr.step = 4 → own fun u => let v := (u.cl t c).seq
      v.settled = (if near then min 8 (q.settled + 1) else 0) ∧ (near → q.settled = 7 → (∃ z, v.cur = some z ∧ z.step = 5) ∧
        .done tr.tnum (b2n tr.bound) q.atarget c ∈ (u.tl t).pal.rest ∧ (tr.down = false → tr.fcode ≠ 0 → .fup tr.tnum c tr.fcode ∈ (u.tl t).pal.rest)) ∧
      (¬ near ∨ q.settled < 7 → q.ref = q.endv → v.cur = some { tr with step := 4 })) ∧
    ∀ y, still → q.cur = none → q.queue = [y] → y.kind = .setpoint → q.st = .A ∨ (q.st = .B1 ∧ y.cls ≠ 10) → fld q.clgrE 1 0 ≠ 1 → k.esc.guardOn = false →
      let code := max (fld q.cllim 9 0) (min (fld q.cllim 25 16) y.code)
      let cut := y.fcode ≠ 0 ∧ fld q.clgrE 15 8 ≠ 0 ∧ q.flast ≠ 0 ∧ q.flast + fld q.clgrE 15 8 < y.fcode
      let f := if cut then q.flast + fld q.clgrE 15 8 else y.fcode
      own fun u => let v := (u.cl t c).seq
        v.queue = [] ∧ ∃ tr, v.cur = some tr ∧ tr.code = code ∧ tr.fcode = f ∧ (∀ n, y.rid = some n → tr.tnum = n) ∧ (y.rid = none → 128 ≤ tr.tnum) ∧
          (tr.bound = true ↔ code ≠ y.code ∨ cut) ∧
          (q.atarget < code → tr.step = 3 ∧ v.atarget = code ∧ v.target = some code ∧ v.endv = absOf code ∧
            v.slew = (if y.slew = 0 then fld q.clcfg 5 0 else y.slew) ∧ v.ref = q.ref) ∧
          (code < q.atarget → tr.step = 1 ∧ tr.down = true ∧ v.atarget = q.atarget ∧ v.target = some code ∧ v.endv = q.endv ∧
            .fsync tr.tnum c (if y.cls = 10 then f else 0) ∈ (u.tl t).pal.rest) ∧
          (code = q.atarget → tr.step = 5 ∧ .done tr.tnum (b2n tr.bound) code c ∈ (u.tl t).pal.rest ∧ (f ≠ 0 → .fup tr.tnum c f ∈ (u.tl t).pal.rest))

/-- R12, R34, R43, R72, R96, R149, R151, R159, R166 to R168, R187, R188, R198, R199, R201, R203, R204, R208, R210, R219, R254, R301: what the clock boundaries count and take up. A reference that slews by itself moves
one step toward its end value at a switching boundary: at SSLEW below the domain's lowest code, at its movement's slew as far as that movement goes, beyond
it, where the guard alone moves it, at SEQ_CLCFG.SLEW. A period boundary takes up LOOP_CTRL, ESC_CFG, ESC_QWCFG and the skip lines, moves each active phase's trim
one step toward the mean of the regulator's, and forms the fall-back word of a cell that its compensator controls; an outer boundary takes up the edges of
the voltage bands and, with PSRC 0, counts energy; a tick takes up caps and limits, forms cluster, tile and device power and with PSRC 1 counts energy, steps every
ladder once, wakes a cluster whose event comes near, lets the chooser take one in A or deeper into the state of Table 6-9, sets WAKELATE, converts MARGIN_A,
sends out the cores' messages and counts the Ridge's watchdog, which its resident program kicks at 200 ticks (Table 11-5); an epoch latches the estimator's words
with VALID and empties the sums of PMEAN; a millisecond refills the rate buckets.
That the k-th command of a base is its k-th boundary (log 39), when the resident program kicks (log 65), that a tick empties the output queues (log 104), and that
KEY_ACK falls at a switching boundary (log 120), that an event's instant itself counts (log 135), and that what samples bring later is taken first (log 138), are
the model's choices. -/
def Obligations.ClockBoundaries : Prop :=
  ∀ (s : State) (rd : List CellReading) (missed : List Nat) (uv : Nat), s.Inv →
    let d := s.dev
    let k := d.clk
    let calm := ∀ t, (d.tl t).rem.acts = []
    let fcap := d.bud.fcap
    let H := d.bud.nf + 16
    -- R208: one ladder's step, from power, whether there is a cap, the cap in mW, whether a lowered cap takes effect, and the highest FCODE granted
    let steps := fun (l l' : Ladder) (p : Int) (capped : Bool) (cap : Nat) (lowered : Bool) (f : Nat) =>
      let high := capped = true ∧ (cap : Int) < p
      let under := capped = false ∨ 64 * p ≤ (cap * (64 - fld d.bud.ladcfg 3 0) : Nat)
      let begins := (l.cut || lowered) = true ∧ high ∧ l.overT = false
      let rise := min H (if l.h ≠ 0 then l.h + 1 else if f = 0 then 1 else if f ≤ fld d.bud.ladcfg 23 16 then d.bud.nf + 1
        else (((List.range d.bud.nf).map (· + 1)).find? fun h => fcap h < f).getD (d.bud.nf + 1))
      let hold := min H l.h
      (begins → l'.h = hold ∧ l'.allow = some 0) ∧
      (¬ begins → ∀ n, l.allow = some n → n < 200 → l'.allow = some (n + 1) ∧
        (high → l'.h = if (n + 1) % fld d.bud.ladcfg 11 8 = 0 then rise else hold)) ∧
      (¬ begins → high → (∀ n, l.allow = some n → 200 ≤ n) → l'.h = rise ∧ l'.allow = none) ∧
      (under → l'.h = (if fld d.bud.ladcfg 7 4 ≤ l.under + 1 then l.h - 1 else hold) ∧ l'.under = if fld d.bud.ladcfg 7 4 ≤ l.under + 1 then 0 else l.under + 1) ∧
      (¬ high → ¬ under → l'.h = hold ∧ l'.under = 0)
    -- R203, R204: device power and the energy count over `dt` ns
    let power := fun (sum : Int) => divHE (sum * (65536 + fld d.bud.loss 31 16 : Nat)) 65536 + 1000 * (fld d.bud.loss 15 0 : Int)
    let counts := fun (b : BudDev) (p : Int) (dt : Nat) => b.energy = (d.bud.energy + (d.bud.res + p.toNat * dt) / 1000000) % 2 ^ 64 ∧
      b.res = (d.bud.res + p.toNat * dt) % 1000000
    s.makes (.switchingBoundary rd) (fun u => u.clk = { k with sw := k.sw + 1, now := max k.now (6 * (k.sw + 1)) } ∧ u.boot.keyAck = false ∧ ∀ t c, d.hasC t c = true →
      let q := (d.cl t c).seq
      let n := (if q.qtr then 3 else 12) * (if q.ref < q.endv ∧ q.ref < absOf (codeLo (domOf c)) ∨ q.endv < q.ref ∧ q.ref ≤ absOf (codeLo (domOf c))
        then fld d.seq.cfg 5 0 else if q.ref < q.endv ∧ q.ref < q.knee ∨ q.endv < q.ref ∧ q.knee < q.ref then q.slew else fld q.clcfgE 5 0)
      ((d.cl t c).loop.outOn = true → q.track = false → q.movedAt < max k.now (6 * (k.sw + 1)) →
        (u.cl t c).seq.ref = if q.ref < q.endv then min q.endv (q.ref + n) else max q.endv (q.ref - n)) ∧
      ((d.cl t c).loop.outOn = false ∨ q.ref = q.endv → (u.cl t c).seq.ref = q.ref)) ∧
    s.makes .periodBoundary (fun u => u.clk = { k with per := k.per + 1, now := max k.now (48 * (k.per + 1)) } ∧
      (∀ t, t < d.tiles.length → ((d.tl t).rem.acts = [] → (u.tl t).rem.ctrlE = (d.tl t).rem.ctrl) ∧ (u.tl t).esc.cfgE = (d.tl t).esc.cfg ∧
        (u.tl t).esc.qwcfgE = (d.tl t).esc.qwcfg ∧ (u.tl t).fus.runDue = false) ∧
      (∀ t c, d.hasC t c = true → (u.cl t c).bud.skip = d.bud.frac (d.cl t c).bud.heff) ∧
      (calm → ∀ t c r, d.hasC t c = true → (d.cl t c).loop.outOn = true → ((d.cl t c).cell r).mode = .run → r < (d.cl t c).cells.length →
        let x := (((d.cl t c).cell r).latchAt (48 * (k.per + 1))).wordBy (48 * (k.per + 1))
        let z := (u.cl t c).cell r
        let act := x.phases.filter (·.active)
        let n : Int := act.length
        let sum := sumI (act.map (·.ma))
        let e0 := (d.cl t c).seq.code - x.vcode - divHE x.cur 1000
        let co := fun i => at0 (d.cl t c).loop.fbCoef i
        let u0 := max 0 (min 196352 (divHE (co 0 * at0 x.fu 0 + co 1 * at0 x.fu 1 + co 2 * at0 x.fu 2 +
          (co 3 * e0 + co 4 * at0 x.fe 0 + co 5 * at0 x.fe 1 + co 6 * at0 x.fe 2) * 256) 32768))
        z.phases = x.phases.map (fun y => if y.active = false then y else if sum + 50 * n < n * y.ma then { y with trim := max (-8) (y.trim - 1) }
          else if n * y.ma < sum - 50 * n then { y with trim := min 8 (y.trim + 1) } else y) ∧
        (x.fpre = none → (d.cl t c).loop.fb = true → 600000 ≤ (d.cl t c).seq.ref → (d.cl t c).loop.handDue = none →
          z.fword = some (divHE u0 256).toNat ∧ z.fu = (u0 :: x.fu).take 3 ∧ z.fe = (e0 :: x.fe).take 3) ∧
        (x.fpre = none → (u.cl t c).loop.fb = false → z.fword = none ∧ z.fu = (256 * (x.duty : Int) :: x.fu).take 3 ∧ z.fe = (e0 :: x.fe).take 3))) ∧
    s.makes (.outerBoundary missed) (fun u => u.clk = { k with outer := k.outer + 1, now := max k.now (384 * (k.outer + 1)) } ∧
      (∀ t, d.hasT t = true → (u.tl t).esc.fbndlE = (d.tl t).esc.fbndl ∧ (u.tl t).esc.fbndsE = (d.tl t).esc.fbnds) ∧
      (tst d.bud.ctrl 0 = false → counts u.bud (power (sumI (d.allC.map fun q => (u.cl q.1 q.2).bud.pmNow))) 384)) ∧
    s.makes (.tickBoundary uv) (fun u => u.clk = { k with tick := k.tick + 1, now := max k.now (1000 * (k.tick + 1)) } ∧
      (∀ t, t < d.tiles.length → (u.tl t).tcapE = (d.tl t).tcap) ∧ u.bud.devlimE = d.bud.devlim ∧ u.bud.grpE = d.bud.grp ∧
      u.marg.aval = min 4095 (uv * 4096 / 1200000) ∧ (∀ k, d.hasCore k = true → (u.core k).outq = []) ∧
      (d.ridge.runs = true → u.ridge.wd = if d.ridge.loaded = false ∧ 200 ≤ d.ridge.wd + 1 then 0 else d.ridge.wd + 1) ∧
      let pw := fun t c => let b := (u.cl t c).bud; if tst d.bud.ctrl 0 then b.pe else b.pm
      let now := max k.now (1000 * (k.tick + 1))
      let e := { d with clk := { k with tick := k.tick + 1, now := now } }
      (∀ t, d.hasT t = true → (u.tl t).power = sumI ((d.tl t).clsOn.map fun c => pw t c)) ∧
      u.bud.pdev = power (sumI (d.tilesOn.map fun t => (u.tl t).power)) ∧
      (tst d.bud.ctrl 0 = true → counts u.bud u.bud.pdev 1000) ∧ (tst d.bud.ctrl 0 = false → u.bud.energy = d.bud.energy ∧ u.bud.res = d.bud.res) ∧
      (∀ t c, d.hasC t c = true → (u.cl t c).bud.pm = match (d.cl t c).bud.pms with | [] => (d.cl t c).bud.pm | l => divHE (sumI l) l.length) ∧
      (calm → ∀ t c, d.hasC t c = true → c < 14 → (d.cl t c).isolated = false → (u.cl t c).isolated = false → (d.cl t c).quietAt (k.tick + 1) = false →
        let b := (d.cl t c).bud
        steps b.ladder (u.cl t c).bud.ladder (pw t c) (b.cap != 0xFFFF) (100 * b.cap) (decide (b.cap < b.capE)) (d.cl t c).seq.flast) ∧
      (calm → ∀ t, d.hasT t = true → let x := d.tl t
        steps x.ladder (u.tl t).ladder (u.tl t).power (x.tcap != 0xFFFF) (1000 * x.tcap) (decide (x.tcap < x.tcapE))
          ((x.clsOn.map fun c => (d.cl t c).seq.flast).foldl max 0)) ∧
      (calm → steps d.bud.ladder u.bud.ladder u.bud.pdev (u.bud.devcap != 0xFFFFFF) (1000 * u.bud.devcap) (decide (u.bud.devcap < d.bud.devcap))
        ((d.allC.map fun q => (d.cl q.1 q.2).seq.flast).foldl max 0)) ∧
      (calm → d.seq.phase = 3 → d.flt.safe = false → d.bud.hold = false → ∀ t c i, d.hasC t c = true → (u.cl t c).isolated = false → e.nextEvent t c = some i →
        (∀ b, (d.cl t b).bud.b1 = false ∧ (u.cl t b).bud.b1 = false ∧ (d.cl t b).esc.wins = [] ∧ (b ≠ c → e.nextEvent t b = none)) → d.thmHeld t c = false →
        let q := (d.cl t c).seq
        let deep := fun (p : PState) => match p with | .A => 0 | .B1 => 1 | .B2 => 2 | .B3 => 3 | .D => 4
        let wk := 100 * match q.st with
          | .A => 0 | .B1 => fld d.seq.wk01 15 0 | .B2 => fld d.seq.wk01 31 16 | .B3 => fld d.seq.wk23 15 0 | .D => fld d.seq.wk23 31 16
        let far := i - now
        let n := if far < 1000 * fld d.seq.be01 15 0 then 0 else if far < 1000 * fld d.seq.be01 31 16 then 1 else if far < 1000 * fld d.seq.be23 15 0 then 2
          else if far < 1000 * fld d.seq.be23 31 16 then 3 else 4
        let p := min (fld q.clcfgE 10 8) n
        let into : PState := if p = 0 then .A else if p = 1 ∨ (14 ≤ c ∧ p < 4) then .B1 else if p = 2 then .B2 else if p = 3 then .B3 else .D
        (q.chg = .none → q.force = false → q.st ≠ .A → i ≤ now + wk → (u.cl t c).seq.waking = true) ∧
        (q.chg = .none → q.force = false → q.cur = none → q.queue = [] → q.st = .A ∨ now + wk < i →
          (deep q.st < deep into → (u.cl t c).seq.chg = .asked into) ∧ (deep into ≤ deep q.st → (u.cl t c).seq.chg = .none)) ∧
        (i ≤ now → q.lateAt ≠ some i → q.st ≠ .A → u.pends 5 5 (.cluster t c)))) ∧
    (∃ u, exec .epochBoundary s = .next u ∧ u.pending = s.pending ∧ u.dev.clk = { k with epoch := k.epoch + 1, now := max k.now (100000 * (k.epoch + 1)) } ∧
      u.dev.bud.psum = 0 ∧ u.dev.bud.pcnt = 0 ∧ ∀ t c, d.hasC t c = true → 0 < (d.cl t c).bud.ticks →
        let b := (d.cl t c).bud
        let v := (u.dev.cl t c).bud
        let mean := fun i => divHE (at0 b.sums i) b.ticks
        v.epx = [mean 0, mean 1, mean 2] ∧ v.epm = mean 3 ∧ v.valid = b.allA ∧ v.sums = [0, 0, 0, 0] ∧ v.ticks = 0 ∧ v.allA = true) ∧
    ((∀ t, let r := (d.tl t).rem; r.acts = [] ∧ r.mmDue = [] ∧ r.queue = [] ∧ r.votes ≤ 0xFFFF ∧ r.mismatch ≤ 0xFFFF) → s.gives .millisecondBoundary { d with
      clk := { k with ms := k.ms + 1, now := max k.now (1000000 * (k.ms + 1)) }
      log := { d.log with
        buckets := d.log.buckets.map fun b => { b with tokens := min (1000 * fld d.log.cfg 23 20) (b.tokens + fld d.log.cfg 15 8) }
        base := min (1000 * fld d.log.cfg 23 20) (d.log.base + fld d.log.cfg 15 8), optime := (d.log.optime + 1) % 2 ^ 40, hbeat := d.log.hbeat + 1 } }) ∧
    s.makes .millisecondBoundary fun u => u.clk = { k with ms := k.ms + 1, now := max k.now (1000000 * (k.ms + 1)) } ∧ u.log.optime = (d.log.optime + 1) % 2 ^ 40 ∧
      u.log.hbeat = d.log.hbeat + 1

/-- R117, R119, R125 to R127: the outer loop of a cluster in the floor plan over its eight latches: load current, the step of every cell's share trim, margin following,
temperature compensation (both stand in a quiet window), and the reference and bias word of every cell; and the bands with the selected region, from the working
copy of the domain's band block, which is the store's where it ascends.
Which copies a word beyond correction keeps is the model's choice (log 137). -/
def Obligations.OuterLoop : Prop :=
  ∀ (s : State) (missed : List Nat) (t c : Nat), s.Inv → s.dev.hasC t c = true → c < 18 →
    let d := s.dev
    let k := d.cl t c
    let x := d.tl t
    let bad := fun (a n : Nat) => x.fus.badOffs.any fun b => a ≤ b && b < a + n
    let w := fun j => if bad (0xF200 + 32 * c) 32 then (x.fus.trims.getD c []).getD j 0 else Mem.readW s.mem (storeBase t + 0xF200 + 32 * c + 4 * j)
    let D := if c < 10 then 0 else if c < 14 then 1 else if c < 16 then 2 else 3
    let inStore := (List.range 4).map fun j => Mem.readW s.mem (storeBase t + 0xF180 + 16 * D + 4 * j)
    let f := fun (b : List Word) j hi lo => fld (b.getD j 0) hi lo
    let ascends := f inStore 0 9 0 < f inStore 0 19 10 ∧ f inStore 0 19 10 < f inStore 0 29 20 ∧ f inStore 1 7 0 < f inStore 1 15 8 ∧ f inStore 1 15 8 < f inStore 1 23 16
    let fits := D < x.fus.bands.length
    let b := if bad (0xF180 + 16 * D) 16 = true ∨ ¬ ascends then x.fus.bands.getD D [] else inStore
    let icl := sumI (k.cells.map fun x => divHE (sumI (x.latches.map (·.ima))) 8)
    let step : Int := fld d.marg.cfg 15 8
    let mg := if k.quiet then k.fus.mg else k.fus.mg + max (-step) (min step (d.marg.target (domOf c) - k.fus.mg))
    let tc := if k.quiet then k.fus.tc else divHE (sgn 8 (fld (w 0) 31 24) * (k.thm.temp - (fld (w 1) 7 0 : Int))) 16
    let ll := divHE (fld (w 0) 15 0 * icl) 65536
    let n := k.cells.countP fun x => !x.missLast
    let imn := if n = 0 then 0 else divHE icl n
    let band := fun (q : Int) (bs : List Int) (hys : Int) (old : Nat) => let ge := bs.countP fun x => decide (x ≤ q)
      if k.fus.seen = false ∨ old < ge then ge else min old (bs.countP fun x => decide (x - hys ≤ q))
    let iq := if k.fus.iq ≤ 2 * icl then 2 * icl else max (2 * icl) (k.fus.iq - 125 * f b 2 23 16)
    let bS := band k.seq.rs [4 * f b 0 9 0, 4 * f b 0 19 10, 4 * f b 0 29 20] (4 * f b 2 3 0) k.fus.bandS
    let bI := band iq [500 * f b 1 7 0, 500 * f b 1 15 8, 500 * f b 1 23 16] (500 * f b 1 31 24) k.fus.bandI
    let bT := if (f b 2 11 4 : Int) ≤ k.thm.temp then 1 else if k.thm.temp < (f b 2 11 4 : Int) - f b 2 15 12 then 0 else k.fus.bandT
    s.makes (.outerBoundary missed) fun u =>
      let v := u.cl t c
      v.fus.seen = true ∧ (fits → v.fus.iq = iq ∧ v.fus.bandS = bS ∧ v.fus.bandI = bI ∧ v.fus.bandT = bT ∧ v.fus.sel = if c < 14 then 16 * bT + 4 * bS + bI else bT) ∧
      v.fus.icl = icl ∧ v.fus.mg = mg ∧ v.fus.tc = tc ∧ v.fus.due = some (384 * (d.clk.outer + 1) + 48) ∧
      ∀ r, r < k.cells.length → (v.cell r).rhoN = max (4 * (codeLo (domOf c) : Int)) (min (4 * (codeHi (domOf c) : Int)) (k.seq.rs - ll + (v.cell r).sh + mg + tc)) ∧
        let y := k.cell r
        let im := divHE (sumI (y.latches.map (·.ima))) 8
        let vm := max 100 (divHE (sumI (y.latches.map fun l => (l.vin : Int))) 8)
        (v.cell r).sh = (if y.missLast then 0 else if im < imn - 10 * (fld (w 1) 23 16 : Int) then min (y.sh + 1) (fld (w 1) 15 8 : Int)
          else if imn + 10 * (fld (w 1) 23 16 : Int) < im then max (y.sh - 1) (-(fld (w 1) 15 8 : Int)) else y.sh) ∧
        (v.cell r).betaN = max 0 (min 3068 (divHE (96 * (960 + (v.cell r).rhoN)) vm.toNat + sgn 8 (fld (w 0) 23 16)))

/-! ### Escapement (chapter 5) -/

/-- R139 to R142, R163: a word enters the hint FIFO, or finds it full and drops its token with HINTOVF; a token at its head is scheduled: a hint adds its one or
two edges, a cancel takes the clusters it names out of the edges it names, a slack report reaches the budget unit and the Ridge's event SLACK. A token that is
not ready stays. A token of a reserved TYPE, or with a field outside its values, is dropped, counted and sets TOKERR; a hint that the schedule has no room for
sets SCHFULL; one that names no cluster that answers is dropped and counted alone. Nothing else changes, but for what a rise of the load brings with it.
When an overflowed token's words leave, and that SLACK takes all 16 bits, are the model's choices (logs 128, 129). -/
def Obligations.HintTokens : Prop :=
  ∀ (s : State) (t ns : Nat) (w v u : Word) (r : List HintWord), s.Inv → s.dev.hasT t = true →
    let d := { s.dev with clk := { s.dev.clk with now := max s.dev.clk.now ns } }
    let e := (d.tl t).esc
    let ready := fun (last : Nat) => (last + 15) / 16 * 16 + 16 ≤ ns ∧ ∀ p, e.lastSched = some p → p + 8 ≤ ns
    let left := fun (n : Nat) (e : Esc) => ({ e with fifo := e.fifo.drop n, lastSched := some ns, tokens := min 0xFFFF (e.tokens + 1) } : Esc)
    let mask := (List.range 14).filter fun c => tst w (14 + c) && d.live t c
    let first := if e.partialN = 0 then w else (e.fifo.getD (e.fifo.length - e.partialN) ⟨w, ns, 0⟩).w
    (0 < e.discard → s.gives (.hintWord t w ns) (d.onTEsc t fun e => { e with discard := e.discard - 1 })) ∧
    (e.discard = 0 → e.fifo.length < 64 → s.gives (.hintWord t w ns) (d.onTEsc t fun e =>
      { e with fifo := e.fifo ++ [⟨w, ns, 0⟩], partialN := if e.partialN + 1 = tokenLen first then 0 else e.partialN + 1 })) ∧
    (e.discard = 0 → 64 ≤ e.fifo.length → e.partialN = 0 → s.leads (.hintWord t w ns) (d.onTEsc t fun e =>
      { e with dropped := min 0xFFFF (e.dropped + 1), discard := tokenLen w - 1 }) [(4, 2, .tile t)]) ∧
    (∀ i j k a b, e.fifo = ⟨w, i, 0⟩ :: ⟨v, j, a⟩ :: ⟨u, k, b⟩ :: r → fld w 31 28 = 1 → ready k → fld w 27 14 ≠ 0 → fld w 7 0 ≤ 250 → fld u 31 16 = 0 →
      mask ≠ [] → e.edges.length + (if fld u 15 0 = 0 then 1 else 2) ≤ 32 →
      let dq := [sgn 8 (fld v 7 0), sgn 8 (fld v 15 8), sgn 8 (fld v 23 16), sgn 8 (fld v 31 24)]
      let T := (k + 15) / 16 * 16 + 16 * fld w 7 0
      let x : Edge := { id := e.nextId, hint := e.nextId, tag := fld w 13 8, isEnd := false, ns := T, sched := ns, dq := dq, mask := mask, all := mask }
      let y : Edge := { x with id := e.nextId + 1, isEnd := true, ns := T + 16 * fld u 15 0, dq := dq.map (- ·) }
      let f := mask.foldl (fun d c => trcEvent t c 7 d) (d.onTEsc t fun e => { left 3 e with
        edges := e.edges ++ (if fld u 15 0 = 0 then [x] else [x, y]), nextId := e.nextId + 2, ev := setBit e.ev 0 })
      (∃ es, s.leads (.hint t ns) (f.entering t es) []) ∧ ((∀ q ∈ dq, q ≤ 0) → s.gives (.hint t ns) f)) ∧
    (∀ i, e.fifo = ⟨w, i, 0⟩ :: r → fld w 31 28 = 5 → ready i → fld w 27 14 ≠ 0 → fld w 7 1 = 0 → mask ≠ [] →
      let out := fun (h c : Nat) => mask.contains c && e.edges.any fun g => g.hint == h && !g.isEnd && (tst w 0 || g.tag == fld w 13 8) && g.mask.contains c
      let edges := e.edges.map fun g => { g with mask := g.mask.filter fun c => !out g.hint c, all := g.all.filter fun c => !out g.hint c }
      let keep := edges.filter fun g => !g.mask.isEmpty || g.ever
      s.gives (.cancel t ns) (d.onTEsc t fun e => { left 1 e with
        edges := keep
        past := (e.past ++ edges.filter fun g => g.mask.isEmpty && !g.ever).filter fun y =>
          decide (max d.clk.now ns < y.ns + 1000) || keep.any fun g => g.applied.any fun a => decide (a.2.2.1 < y.ns + 384) })) ∧
    (∀ i j a, e.fifo = ⟨w, i, 0⟩ :: ⟨v, j, a⟩ :: r → fld w 31 28 = 3 → ready j → fld w 21 16 = 0 → fld v 31 24 = 0 →
      let y : Slack := { age := 0, group := fld w 27 22, slack := sgn 16 (fld w 15 0), sync := fld v 23 0, anchor := ((j + 15) / 16 * 16 + 999) / 1000 }
      s.gives (.slackReport t ns) { d.onTEsc t (left 2) with
        bud := { d.bud with slack := d.bud.slack.set t y }
        ridge := if d.ridge.on then { d.ridge with evpend := setBit d.ridge.evpend 10 } else d.ridge }) ∧
    (∀ i, e.fifo = ⟨w, i, 0⟩ :: r → 1 ≤ fld w 31 28 → fld w 31 28 ≤ 5 → tokenLen w ≤ e.fifo.length →
      (∀ x, e.fifo[tokenLen w - 1]? = some x → ¬ ready x.ns) →
      s.gives (.hint t ns) d ∧ s.gives (.cancel t ns) d ∧ s.gives (.slackReport t ns) d ∧ s.gives (.nextEventTime t ns) d ∧ s.gives (.quietWindowMarker t ns) d) ∧
    let rows : List (Instr × Nat) := [(.hint t ns, 1), (.quietWindowMarker t ns, 2), (.slackReport t ns, 3), (.nextEventTime t ns, 4), (.cancel t ns, 5)]
    let away := fun (n : Nat) (e : Esc) => ({ e with fifo := e.fifo.drop n, lastSched := some ns } : Esc)
    let drop := fun (n : Nat) => d.onTEsc t fun e => { away n e with dropped := min 0xFFFF (e.dropped + 1) }
    ∀ p ∈ rows, ∀ i q,
      (e.fifo = ⟨w, i, 0⟩ :: q → fld w 31 28 = 0 ∨ 6 ≤ fld w 31 28 → ready i → s.leads p.1 (drop 1) [(4, 1, .tile t)]) ∧
      (∀ k, 0 < k → e.fifo = ⟨w, i, k⟩ :: q → ready i → s.gives p.1 (d.onTEsc t (away k))) ∧
      (e.fifo = ⟨w, i, 0⟩ :: q → fld w 31 28 = p.2 → ∀ x, e.fifo[tokenLen w - 1]? = some x → ready x.ns →
        let v := (e.fifo.getD 1 x).w
        let u := (e.fifo.getD 2 x).w
        let wrong := (p.2 = 1 ∧ (fld w 27 14 = 0 ∨ 250 < fld w 7 0 ∨ fld u 31 16 ≠ 0)) ∨
          (p.2 = 2 ∧ (fld w 27 14 = 0 ∨ fld w 13 11 ≠ 0 ∨ fld w 10 8 = 0 ∨ 4 < fld w 10 8 ∨ fld w 7 6 ≠ 0 ∨ fld w 5 0 = 0 ∨ 50 < fld w 5 0)) ∨
          (p.2 = 3 ∧ (fld w 21 16 ≠ 0 ∨ fld v 31 24 ≠ 0)) ∨ (p.2 = 4 ∧ (fld w 27 10 = 0 ∨ fld w 9 0 ≠ 0 ∨ fld v 31 24 ≠ 0 ∨ fld v 23 0 = 0)) ∨
          (p.2 = 5 ∧ (fld w 27 14 = 0 ∨ fld w 7 1 ≠ 0))
        let named := fun (c : Nat) => if p.2 = 4 then c < 18 ∧ tst w (10 + c) = true else c < 14 ∧ tst w (14 + c) = true
        (wrong → s.leads p.1 (drop (tokenLen w)) [(4, 1, .tile t)]) ∧
        (¬ wrong → p.2 ≠ 3 → (∀ c, named c → d.live t c = false) → s.gives p.1 (drop (tokenLen w))) ∧
        (¬ wrong → p.2 = 1 → (∃ c, named c ∧ d.live t c = true) → 32 < e.edges.length + (if fld u 15 0 = 0 then 1 else 2) →
          s.leads p.1 (drop 3) [(4, 3, .tile t)]))

/-- R150 to R152, R154, R162: a marker opens a window from its tick for its length on each cluster it names, with the guard applied (in a cluster that follows the
start profile, later); one that reaches a cluster's window extends it to 50 ticks at most, what is cut being reported with QWTRUNC, and one that comes too soon
after a window begins late, after the gap, with QWGAP (stated where no fault of the marker isolates). A next-event token sets the next event of the clusters it
names; a window comes into force at its tick, with event QWIN, and ends with the cap that waited for it, its cluster to take up the region selected last.
That the guard of a window is the one in force when the first of those standing was made pending is the model's choice (log 115). -/
def Obligations.QuietWindows : Prop :=
  ∀ (s : State) (t c ns : Nat) (w v : Word) (r : List HintWord), s.Inv → s.dev.hasT t = true →
    let d := { s.dev with clk := { s.dev.clk with now := max s.dev.clk.now ns } }
    let e := (d.tl t).esc
    let ready := fun (last : Nat) => (last + 15) / 16 * 16 + 16 ≤ ns ∧ ∀ p, e.lastSched = some p → p + 8 ≤ ns
    let left := fun (n : Nat) (e : Esc) => ({ e with fifo := e.fifo.drop n, lastSched := some ns, tokens := min 0xFFFF (e.tokens + 1) } : Esc)
    let mask := fun lo n => (List.range n).filter fun c => tst w (lo + c) && d.live t c
    let k := d.cl t c
    (∀ i, e.fifo = ⟨w, i, 0⟩ :: r → fld w 31 28 = 2 → ready i → fld w 27 14 ≠ 0 → fld w 13 11 = 0 → 1 ≤ fld w 10 8 → fld w 10 8 ≤ 4 → fld w 7 6 = 0 →
      1 ≤ fld w 5 0 → fld w 5 0 ≤ 50 → mask 14 14 = [c] → k.esc.wins = [] → k.esc.lastEnd = none → k.seq.st = .A → k.seq.chg = .none →
      let w0 := (i + 15) / 16 * 16 / 1000 + fld w 10 8
      let g := fld e.qwcfgE 5 0
      s.gives (.quietWindowMarker t ns) ((d.onTEsc t (left 1)).onC t c fun k => { k with
        esc := { k.esc with wins := [{ w := w0, e := w0 + fld w 5 0 }], lastEnd := some (w0 + fld w 5 0), guardOn := true, guardMove := true, guard := g }
        seq := match k.seq.base with
          | some x =>
            let e := absOf (x + if k.seq.track then 0 else g)
            if e = k.seq.endv then k.seq else { k.seq with endv := e, movedAt := d.clk.now, settled := 0, knee :=
              if k.seq.ref < k.seq.endv ∧ k.seq.ref < e then min k.seq.knee e else if k.seq.endv < k.seq.ref ∧ e < k.seq.ref then k.seq.knee else k.seq.ref }
          | none => k.seq })) ∧
    (∀ i, e.fifo = ⟨w, i, 0⟩ :: r → fld w 31 28 = 2 → ready i → fld w 27 14 ≠ 0 → fld w 13 11 = 0 → 1 ≤ fld w 10 8 → fld w 10 8 ≤ 4 → fld w 7 6 = 0 →
      1 ≤ fld w 5 0 → fld w 5 0 ≤ 50 → mask 14 14 ≠ [] → (∀ n, d.flt.sevOf 4 n = 0 ∧ d.flt.sevOf 1 n = 0) →
      let w0 := (i + 15) / 16 * 16 / 1000 + fld w 10 8
      let e0 := w0 + fld w 5 0
      s.makes (.quietWindowMarker t ns) fun u => ∀ b ∈ mask 14 14,
        let z := (d.cl t b).esc
        let y := (u.cl t b).esc
        let w1 := match z.lastEnd with | some x => max w0 (x + fld e.qwcfgE 13 8) | none => w0
        (∀ v, z.wins = [v] → w0 ≤ v.e → y.wins = [{ v with e := max v.e (min e0 (v.w + 50)) }] ∧ (v.w + 50 < max v.e e0 → u.pends 4 6 (.tile t))) ∧
        ((∀ v ∈ z.wins, v.e < w0) → y.wins = (if e0 ≤ w1 then z.wins else z.wins ++ [{ w := w1, e := e0 }]) ∧ (w0 < w1 → u.pends 4 7 (.tile t)))) ∧
    (∀ i j a, e.fifo = ⟨w, i, 0⟩ :: ⟨v, j, a⟩ :: r → fld w 31 28 = 4 → ready j → fld w 27 10 ≠ 0 → fld w 9 0 = 0 → fld v 31 24 = 0 → fld v 23 0 ≠ 0 →
      mask 10 18 ≠ [] → (∀ c ∈ mask 10 18, (d.cl t c).seq.heading = .A) →
      s.gives (.nextEventTime t ns) ((mask 10 18).foldl (fun d c => d.onEsc t c fun z => { z with
        nextTok := if fld v 23 0 = 0xFFFFFF then none else some (((j + 15) / 16 * 16 + 999) / 1000 + fld v 23 0) }) (d.onTEsc t (left 2)))) ∧
    (∀ x, (s.dev.cl t c).esc.wins.find? (fun x => !x.inForce && x.w ≤ s.dev.clk.tick) = some x →
      s.leads (.quietWindowStart t c) (trcEvent t c 8 s.dev)
        ((if k.seq.st = .A then [] else [(4, 8, .tile t)]) ++ if k.seq.target.isSome ∧ k.guardNow < k.esc.guard then [(4, 5, .tile t)] else []) ∧
      (k.quiet = false → k.seq.st = .A → k.guardNow = k.esc.guard → (∀ y ∈ k.cells, y.shed = .steady) →
        s.makes (.quietWindowStart t c) fun u => (u.cl t c).quiet = true ∧ ((s.dev.tl t).core.on = true → tst (u.tl t).core.evpend 11 = true))) ∧
    ((s.dev.cl t c).esc.wins.find? (fun x => !x.inForce && x.w ≤ s.dev.clk.tick) = none → s.gives (.quietWindowStart t c) s.dev) ∧
    (∀ x, (s.dev.cl t c).esc.wins.find? (fun x => x.inForce && x.e ≤ s.dev.clk.tick) = some x → s.makes (.quietWindowEnd t c) fun u =>
      x ∉ (u.cl t c).esc.wins ∧ (u.cl t c).esc.lastEnd = some (max (k.esc.lastEnd.getD 0) x.e) ∧
      (u.cl t c).bud.capE = (if k.bud.capHeld then k.bud.cap else k.bud.capE) ∧ (u.cl t c).bud.capHeld = false ∧
      (k.fus.due = none → (u.cl t c).fus.rel = some (s.dev.clk.now, k.fus.sel, ((s.dev.tl t).fus.map.drop (64 * domCode (domOf c))).take 64))) ∧
    ((s.dev.cl t c).esc.wins.find? (fun x => x.inForce && x.e ≤ s.dev.clk.tick) = none → s.gives (.quietWindowEnd t c) s.dev)

/-- R147, R148: an edge is scored once, 576 ns or more after its instant: one folded into another's score is dropped, one whose clusters have all left it is
counted unscored, another is graded by the error of its forecast, summed over the edges that fall together: good up to a quarter of its magnitude, fair up to
half of it, else bad, one step worse with a droop; it stays among the edges whose forecast a later score may sum. Before that, or for an edge not held,
nothing changes. That an edge no cluster ever applied is not held, and so counts nowhere, is the model's reading (log 100). -/
def Obligations.ForecastScores : Prop :=
  ∀ (s : State) (t id ns : Nat), s.Inv → t < s.dev.tiles.length →
    let d := { s.dev with clk := { s.dev.clk with now := max s.dev.clk.now ns } }
    let e := (d.tl t).esc
    let left := fun (g : Edge) (e : Esc) => Esc.tidy { e with edges := e.edges.filter (fun y => y.id != id), past := e.past ++ [g] } ns
    (∀ g, e.edges.find? (fun g => g.id == id) = some g →
      (ns < g.ns + 576 ∨ g.mask ≠ [] → s.gives (.forecastScore t id ns) d) ∧
      (g.ns + 576 ≤ ns → g.mask = [] → g.folded = true →
        s.gives (.forecastScore t id ns) (d.onTEsc t (left g))) ∧
      (g.ns + 576 ≤ ns → g.mask = [] → g.folded = false → g.applied = [] → s.gives (.forecastScore t id ns) (d.onTEsc t fun e =>
        { left g e with unscored := min 255 (e.unscored + 1) })) ∧
      (g.ns + 576 ≤ ns → g.mask = [] → g.folded = false → g.applied ≠ [] → s.makes (.forecastScore t id ns) fun u =>
        let f := (u.tl t).esc
        let parts := g.applied.flatMap fun a => [0, 1, 2, 3].map fun q =>
          let near := (e.edges ++ e.past).filter fun y => y.id != id && y.all.contains a.1 && decide (a.2.2.1 < y.ns + 384) && decide (y.ns ≤ g.ns + 192)
          let post := ((d.cl t a.1).esc.qhist.filter fun x => decide (g.ns + 192 ≤ x.ns) && decide (x.ns < g.ns + 576)).map fun x => at0 x.q q
          (divHE (sumI post) 8 - at0 a.2.2.2 q, 100 * at0 (near.foldl (fun f y => List.zipWith (· + ·) f y.dq) g.dq) q)
        let err := (parts.map fun p => (p.1 - p.2).natAbs).foldl (· + ·) 0
        let mag := max ((parts.map fun p => p.2.natAbs).foldl (· + ·) 0) (400 * g.applied.length)
        let drooped := ∃ a ∈ g.applied, ∃ x ∈ (d.cl t a.1).loop.droops, g.ns ≤ x + 48 ∧ x < g.ns + 576
        let worse := fun (good fair : Prop) => (good ∧ drooped) ∨ (fair ∧ ¬ drooped)
        let one := fun (p : Prop) (x y : Nat) => (p → y = min 255 (x + 1)) ∧ (¬ p → y = x)
        let isGood := 4 * err ≤ mag ∧ ¬ drooped
        let isFair := worse (4 * err ≤ mag) (mag < 4 * err ∧ 2 * err ≤ mag)
        f.edges.map (·.id) = (left g e).edges.map (·.id) ∧ f.past = (left g e).past ∧ f.lastTag = g.tag ∧ f.unscored = e.unscored ∧
        one isGood e.good f.good ∧ one isFair e.fair f.fair ∧ one (¬ isGood ∧ ¬ isFair) e.bad f.bad ∧
        (tst e.cfgE 1 = false → f.grades = e.grades) ∧
        (tst e.cfgE 1 = true → (isGood → f.grades = e.grades ++ [1]) ∧ (isFair → f.grades = e.grades ++ [0]) ∧
          (¬ isGood → ¬ isFair → f.grades = e.grades ++ [-2])))) ∧
    (e.edges.find? (fun g => g.id == id) = none → s.gives (.forecastScore t id ns) d)

/-! ### Sequencing over the Pallet port (chapter 6) -/

/-- R171, R174, R176, R177, R180, R181, R185: request frames. A request that is taken gets receipt OK and joins its cluster's waiting transitions; a FACK moves a
transition or a state change on; a monitor reading lowers its minimum; an idle frame gets receipt 0xF; every other frame gets the receipt of its refusal,
is counted and sets PALREJ, with no effect. A FSYNC answered in a cluster that meanwhile descends, or is off, moves nothing: its transition ends (R166). -/
def Obligations.PalletRequests : Prop :=
  ∀ (s : State) (t : Nat) (w : Word), s.Inv → s.dev.hasT t = true →
    let d := s.dev
    let c := fld w 22 18
    let k := d.cl t c
    let frames := [Instr.opreq t w, .freq t w, .fack t w, .cpm t w, .malformedRequestFrame t w]
    let rc := fun (r : Nat) (d : Dev) => d.onPal t fun p => { p with rcpt := r }
    let room := d.live t c = true ∧ k.seq.st = .A ∧ k.seq.chg = .none ∧ fld k.seq.clgrE 1 0 ≠ 2 ∧ d.held = false ∧
      k.seq.queue.countP (·.rid.isSome) < 4 ∧ (d.tl t).reqs < 16
    let joins := fun (kind : TKind) (code : Nat) => { (rc 0 d).onSeq t c (fun q => { q with
      queue := q.queue ++ [{ cls := 10, kind := kind, code := code, fcode := fld w 7 0, rid := some (fld w 28 23), no := d.seq.next }] }) with
        seq := { d.seq with next := d.seq.next + 1 } }
    (w = 0 → ∀ i ∈ frames, s.gives i (rc 0xF d)) ∧
    (∀ st, receipt t w d = st → st ≠ 0 → st ≠ 0xF → ∀ i ∈ frames,
      s.leads i { rc (st % 16) d with seq := { d.seq with rej := min 0xFFFF (d.seq.rej + 1) } } [(5, 0, .tile t)]) ∧
    (fld w 31 29 = 1 → (c < 14 ∨ fld w 7 0 = 0) → codeLo (domOf c) ≤ fld w 17 8 → fld w 17 8 ≤ codeHi (domOf c) → room →
      s.gives (.opreq t w) (joins .setpoint (fld w 17 8))) ∧
    (fld w 31 29 = 2 → fld w 17 9 = 0 → fld w 7 0 ≠ 0 → room → s.gives (.freq t w) (joins (if tst w 8 then .freqUp else .freqDown) 0)) ∧
    (∀ a, fld w 31 29 = 3 → fld w 20 0 = 0 → (d.tl t).pal.awaits.find? (fun a => a.tnum == fld w 28 21) = some a →
      let f := d.onPal t fun p => { p with rcpt := 0, awaits := p.awaits.filter fun x => x != a }
      let q := (d.cl t a.c).seq
      let span := fun (v : Nat) => max (fld q.cllim 9 0) (min (fld q.cllim 25 16) (max (fld q.cllimE 9 0) (min (fld q.cllimE 25 16) v)))
      let moved := match q.cur, q.move with | some tr, some (some v, _) => if tr.step = 3 ∧ v = tr.code then span v else q.atarget | _, _ => q.atarget
      let moves := (d.cl t a.c).loop.outOn = true ∧ (q.st = .A ∨ q.st = .B1) ∧ ∀ x, q.chg ≠ .descending x
      (∀ tr, a.st = none → q.cur = some tr → tr.tnum = a.tnum → tr.step = 2 → tr.kind = .setpoint →
        (moves → s.gives (.fack t w) (f.onSeq t a.c fun q => { q with cur := some { tr with step := 3 }, move := some (some tr.code, tr.slew) })) ∧
        let bound := tr.bound || span tr.code != tr.code
        (¬ moves → s.gives (.fack t w) ((f.onSeq t a.c fun q => { q with
          atarget := span tr.code, cur := some { tr with code := span tr.code, bound := bound, step := 5 } }).onPal t fun p =>
          { p with rest := p.rest ++ [.done tr.tnum (b2n bound) (span tr.code) a.c] }))) ∧
      (a.st = some .B1 → q.chg = .asked .B1 → q.chgTnum = a.tnum → (d.cl t a.c).loop.outOn = true →
        s.gives (.fack t w) ((f.onSeq t a.c fun q => { q with
          st := .B1, chg := .none, fromOff := false, qtr := false, deferred := false, track := false, atarget := moved }).onTEsc t
          fun e => { e with edges := e.edges.map fun g => { g with applied := g.applied.filter fun b => b.1 != a.c } })) ∧
      (a.st = some .B2 → q.chg = .asked .B2 → q.chgTnum = a.tnum → (d.cl t a.c).loop.outOn = true →
        s.gives (.fack t w) ((f.onSeq t a.c fun q => { q with
          st := .B2, chg := .descending .B2, fromOff := false, qtr := false, deferred := false, track := false, atarget := moved, move := some (some (retention (domOf a.c)), fld q.clcfgE 5 0) }).onTEsc t
          fun e => { e with edges := e.edges.map fun g => { g with applied := g.applied.filter fun b => b.1 != a.c } })) ∧
      (∀ tr, a.st = none → q.cur = some tr → tr.tnum = a.tnum → tr.step = 2 → tr.kind ≠ .setpoint →
        s.gives (.fack t w) ((f.onSeq t a.c fun q => { q with cur := some { tr with step := 5 } }).onPal t fun p =>
          { p with rest := p.rest ++ [.done tr.tnum (b2n tr.bound) q.atarget a.c] })) ∧
      (a.st = none → q.cur = none → s.gives (.fack t w) f)) ∧
    (fld w 31 29 = 4 → fld w 28 23 = 0 → fld w 17 10 = 0 → c < 10 → d.live t c = true → s.gives (.cpm t w) ((rc 0 d).onT t fun x =>
      { x with cpm := x.cpm.modify c fun l => l.modify (fld w 9 8) fun v => min v (sgn 8 (fld w 7 0)) }))

/-- R174, Tables 6-4 and 10-4: the receipts of request frames: UNKNOWN (9) for a reserved type, RANGE (1) for a field or code outside its range, NOTARGET (3) for a
cluster that does not answer, STATE (2) for a FACK that nothing awaits, a cluster in D, or a rise under UPMODE 0b10, LOCKED (7) for a rise while the wafer is
held, NOSPACE (8) for a full queue. -/
def Obligations.RequestReceipts : Prop :=
  ∀ (d : Dev) (t : Nat) (w : Word),
    let ty := fld w 31 29
    let c := fld w 22 18
    let k := d.cl t c
    let room := d.live t c = true ∧ codeLo (domOf c) ≤ fld w 17 8 ∧ fld w 17 8 ≤ codeHi (domOf c) ∧ ty = 1 ∧ (c < 14 ∨ fld w 7 0 = 0)
    (5 ≤ ty → receipt t w d = 9) ∧ (ty = 0 → w ≠ 0 → receipt t w d = 1) ∧
    (ty = 2 → fld w 17 9 ≠ 0 ∨ fld w 7 0 = 0 → receipt t w d = 1) ∧ (ty = 3 → fld w 20 0 ≠ 0 → receipt t w d = 1) ∧
    (ty = 1 → (c < 14 ∨ fld w 7 0 = 0) → d.live t c = false → receipt t w d = 3) ∧
    (ty = 1 → (c < 14 ∨ fld w 7 0 = 0) → d.live t c = true → fld w 17 8 < codeLo (domOf c) ∨ codeHi (domOf c) < fld w 17 8 → receipt t w d = 1) ∧
    (ty = 3 → fld w 20 0 = 0 → (∀ a ∈ (d.tl t).pal.awaits, a.tnum ≠ fld w 28 21) → receipt t w d = 2) ∧
    (room → k.seq.st = .D → receipt t w d = 2) ∧
    (room → k.seq.st ≠ .D → fld k.seq.clgrE 1 0 = 2 → fld w 7 0 ≠ 0 → k.seq.atarget ≤ fld w 17 8 → receipt t w d = 2) ∧
    (room → k.seq.st ≠ .D → fld k.seq.clgrE 1 0 ≠ 2 → d.held = true → k.seq.atarget < fld w 17 8 → receipt t w d = 7) ∧
    (room → k.seq.st ≠ .D → fld k.seq.clgrE 1 0 ≠ 2 → d.held = false → 4 ≤ k.seq.queue.countP (·.rid.isSome) ∨ 16 ≤ (d.tl t).reqs → receipt t w d = 8)

/-- R170, R172, R181 to R185: a return slot carries the receipt of its request slot and, first that applies, a forced STATE frame, the next limits of a run, a
lowered limit (alone, or as the start of a run where one of the next three places has a limit to send), or the first payload that may go, with what its going
brings; idle otherwise. In a quiet window a lowered limit and a frequency-down grant wait (R153). That TRANS counts every DONE, whatever its result, is the
model's choice (log 56). -/
def Obligations.ReturnSlots : Prop :=
  ∀ (s : State) (t : Nat), s.Inv → s.dev.hasT t = true →
    let d := s.dev
    let p := (d.tl t).pal
    let goes := fun (w : Word) (d : Dev) => d.onPal t fun p => { p with out := w ||| BitVec.ofNat 32 p.rcpt, rcpt := 0xF }
    let idle := p.forced = [] ∧ p.ptr = none ∧ p.lowered = []
    let cut := fun (y : Pay) (d : Dev) => d.onPal t fun p => { p with ptr := none, rest := p.rest.filter fun z => z != y }
    (∀ n c st l, p.forced = .state n c st :: l → s.gives (.returnSlot t)
      (goes (word [(7, 28), (n, 20), (c, 15), (st.depth, 12), (1, 4)]) (d.onPal t fun p => { p with forced := l, ptr := none }))) ∧
    (idle → p.rest = [] → s.gives (.returnSlot t) (goes 0 d)) ∧
    (∀ k v, p.forced = [] → p.ptr = none → p.lowered = [k] → p.value = [(k, v)] → d.coreQuiet t k = false → s.gives (.returnSlot t)
      (goes (word [(1, 28), (k, 14), (v, 4)]) (d.onPal t fun p => { p with value := [], lowered := [], rest := p.rest.filter (fun y => y != .limit k),
                                                                             sent := assocSet p.sent k v, ptrLow := true }))) ∧
    (∀ k v j u, p.forced = [] → p.ptr = none → k < j → j ≤ k + 3 → p.lowered = [k, j] → p.value = [(k, v), (j, u)] → d.coreQuiet t k = false →
      d.coreQuiet t j = false → s.gives (.returnSlot t) (goes (word [(2, 28), (k, 14), (v, 4)]) (d.onPal t fun p =>
        { p with value := [(j, u)], lowered := [j], rest := p.rest.filter (fun y => y != .limit k), sent := assocSet p.sent k v, ptr := some (k + 1), ptrLow := true }))) ∧
    (∀ k v, p.forced = [] → p.ptr = none → p.lowered = [k] → p.value = [(k, v)] → p.rest = [] → d.coreQuiet t k = true →
      (assocGet p.sent k).getD 255 ≤ d.hardLim t k → s.gives (.returnSlot t) (goes 0 d)) ∧
    (∀ k v, p.forced = [] → p.ptr = some k → k + 2 < 10752 → p.lowered = [k] → p.value = [(k, v)] → d.coreQuiet t k = false →
      let now := fun j => (assocGet p.sent j).getD (limNow s.mem d t j)
      s.gives (.returnSlot t) (goes (word [(3, 28), (v, 20), (now (k + 1), 12), (now (k + 2), 4)]) (d.onPal t fun p =>
        { p with value := [], lowered := [], rest := p.rest.filter (fun y => y != .limit k), sent := assocSet p.sent k v, ptr := some (k + 3) }))) ∧
    (∀ n c f, idle → p.rest = [.fsync n c f] → d.clusterQuiet t c = true → f ≠ 0 → s.gives (.returnSlot t) (goes 0 d)) ∧
    (∀ n c f l, idle → p.rest = .fsync n c f :: l → d.clusterQuiet t c = false ∨ f = 0 → s.gives (.returnSlot t) (goes (word [(4, 28), (n, 20), (c, 15), (f, 4)])
      (((cut (.fsync n c f) d).onPal t fun p => { p with awaits := p.awaits ++ [{ tnum := n, c := c, st := none, sent := d.clk.now }] }).onSeq t c fun q =>
        { q with flast := if f = 0 then q.flast else f
                 cur := match q.cur with | some tr => some (if tr.tnum = n then { tr with step := 2 } else tr) | none => none }))) ∧
    (∀ n c f l, idle → p.rest = .fup n c f :: l → d.clusterHeld t c = false → s.gives (.returnSlot t)
      (goes (word [(5, 28), (n, 20), (c, 15), (f, 4)]) ((cut (.fup n c f) d).onSeq t c fun q => { q with flast := if f = 0 then q.flast else f }))) ∧
    (∀ n r v c l, idle → p.rest = .done n r v c :: l → s.gives (.returnSlot t) (goes (word [(6, 28), (n, 20), (r, 18), (v, 8)])
      { (cut (.done n r v c) d).onSeq t c (fun q =>
          let left := match q.aside with | some tr => if tr.tnum = n then none else some tr | none => none
          match q.cur with
          | some tr => if tr.tnum = n ∧ tr.step = 5 then { q with cur := left, aside := none } else { q with cur := some tr, aside := left }
          | none => { q with cur := left, aside := none }) with
        seq := { d.seq with trans := min 0xFFFF (d.seq.trans + 1) } })) ∧
    (∀ n c st l, idle → p.rest = .state n c st :: l → st ≠ .A → s.gives (.returnSlot t) (goes (word [(7, 28), (n, 20), (c, 15), (st.depth, 12), (0, 4)])
      ((cut (.state n c st) d).onPal t fun p => { p with awaits := p.awaits ++ [{ tnum := n, c := c, st := some st, sent := d.clk.now }] }))) ∧
    (∀ n c l, idle → p.rest = .state n c .A :: l → (d.cl t c).seq.chg = .framed → (d.cl t c).seq.force = false → d.seq.phase = 3 →
      ((d.cl t c).seq.track = true → ∀ b, (d.tl b).pal.value = []) →
      let f := ((cut (.state n c .A) d).onSeq t c fun q => { q with
        st := .A, chg := .none, fromOff := false, qtr := false, deferred := false, admitted := false, track := false, chosen := false }).onTEsc t fun e =>
          { e with edges := e.edges.map fun g => { g with applied := g.applied.filter fun b => b.1 != c } }
      let goal := fun (k : Cluster) => match k.seq.base with | some v => absOf (v + if k.esc.guardOn then k.esc.guard else 0) | none => 0
      s.gives (.returnSlot t) (goes (word [(7, 28), (n, 20), (c, 15), (0, 12), (0, 4)])
        (if (d.cl t c).seq.track then f.onC t c fun k =>
          if k.seq.base ≠ none ∧ goal k ≠ k.seq.endv then
            { k with seq := { k.seq with endv := goal k, movedAt := d.clk.now, settled := 0, knee :=
              if k.seq.ref < k.seq.endv ∧ k.seq.ref < goal k then min k.seq.knee (goal k)
              else if k.seq.endv < k.seq.ref ∧ goal k < k.seq.ref then k.seq.knee else k.seq.ref } }
          else k else f)))

/-- R182, R185, R186, R190 to R192, Table 6-8: a FACK that does not come sets FACKTO and is awaited no more, and the transition ends with its result, or STATE names A:
at once in A and B1, from a deeper state after its rise, as a wake does; a deferred power-on goes ahead at quarter slope with ADMQTR, once its S clusters are power-good and a power-on is free; cells powered up
bootstrap; a bootstrapped cluster's ramp from 0 V begins, or waits for link good. Nothing else changes.
That a power-on let in and then kept waiting for its S clusters does not go to quarter slope, and that a timeout wakes whatever else holds the cluster, are the
model's readings (logs 106, 107); the pointer that a power-on moves on is its choice (log 64). -/
def Obligations.TimeoutsAndPowerOns : Prop :=
  ∀ (s : State) (t c tnum ns : Nat), s.Inv →
    let d := s.dev
    let at' := { d with clk := { d.clk with now := max d.clk.now ns } }
    let q := (d.cl t c).seq
    let find := (d.tl t).pal.awaits.find? fun a => a.tnum == tnum && a.sent + 1000 * fld d.seq.cfg 21 16 ≤ ns
    let mild := fun (n : Nat) (sc : Scope) => d.flt.levelOf 5 n sc < 4 ∧ d.log.frzFull = false ∧ 1000 ≤ (d.log.bucket (0x500 + n)).tokens
    let steady := ∀ t c, ∀ x ∈ (d.cl t c).cells, x.shed = .steady
    (∀ a, find = some a → let k := (d.cl t a.c).seq
      s.leads (.fackTimeout t tnum ns) (at'.entering t fun c => c == a.c && k.st != .A && k.st != .B1 && k.chgTnum == tnum &&
        match a.st with | some x => k.chg == .asked x | none => false) [(5, 1, .cluster t a.c)] ∧ (s.makes (.fackTimeout t tnum ns) fun u => a ∉ (u.tl t).pal.awaits) ∧
      (t < d.tiles.length → mild 1 (.cluster t a.c) →
        (∀ tr, a.st = none → k.cur = some tr → tr.tnum = tnum → tr.step = 2 → a.c < (d.tl t).clusters.length → s.makes (.fackTimeout t tnum ns) fun u =>
          Pay.done tnum 2 k.atarget a.c ∈ (u.tl t).pal.rest ∧ (u.cl t a.c).seq.atarget = k.atarget ∧ (u.cl t a.c).seq.cur = some { tr with step := 5 }) ∧
        (∀ x, a.st = some x → k.chg = .asked x → k.chgTnum = tnum → k.st = .A → a.c < (d.tl t).clusters.length → s.makes (.fackTimeout t tnum ns) fun u =>
          Pay.state (128 + (d.tl t).pal.own) a.c .A ∈ (u.tl t).pal.rest ∧ (u.cl t a.c).seq.chg = .none ∧ (u.cl t a.c).seq.st = .A) ∧
        (∀ x, a.st = some x → k.chg = .asked x → k.chgTnum = tnum → k.st ≠ .A → a.c < (d.tl t).clusters.length → steady →
          s.makes (.fackTimeout t tnum ns) fun u => (u.cl t a.c).seq.st = k.st ∧
            (k.st = .B1 → (d.cl t a.c).loop.outOn = true →
              Pay.state (128 + (d.tl t).pal.own) a.c .A ∈ (u.tl t).pal.rest ∧ (u.cl t a.c).seq.chg = .framed) ∧
            (k.st ≠ .B1 → (d.cl t a.c).loop.outOn = true → (u.cl t a.c).seq.chg = .rising) ∧
            ((d.cl t a.c).loop.outOn = false → (u.cl t a.c).seq.chg = .waiting)))) ∧
    (find = none → s.gives (.fackTimeout t tnum ns) at') ∧
    let ready := domOf c = .L → ∀ x ∈ (d.tl t).sOfL c, (d.cl t x).loop.outOn = true ∧ (d.cl t x).loop.pgood = true ∨ d.live t x = false
    let free := (d.tl t).ramping < fld d.seq.cfg 26 24
    (q.chg = .waiting → q.track = false → q.qtr = false → q.admitted = false ∨ ready → q.wakeAt + 1000 * fld d.seq.adm 7 0 ≤ ns →
      (ready → free → (∃ es, s.leads (.admissionDeferExpiry t c ns) ((at'.onT t fun x => { x with admPtr := (c + 1) % 18 }).entering t es) [(5, 4, .cluster t c)]) ∧
        (mild 4 (.cluster t c) → steady → s.makes (.admissionDeferExpiry t c ns) fun u =>
          (u.cl t c).seq.qtr = true ∧ (u.cl t c).seq.chg = if q.st = .D then .powering else .bootstrap)) ∧
      (domOf c ≠ .L → ¬ free → s.gives (.admissionDeferExpiry t c ns) (at'.onSeq t c fun q => { q with qtr := true })) ∧
      (¬ ready ∨ ¬ free → (∃ es, s.leads (.admissionDeferExpiry t c ns) (at'.entering t es) []) ∧
        (steady → s.makes (.admissionDeferExpiry t c ns) fun u => (u.cl t c).seq.qtr = true ∧ (u.cl t c).seq.chg = .waiting))) ∧
    (q.chg ≠ .waiting ∨ q.track = true ∨ q.qtr = true ∨ q.admitted = true ∧ ¬ ready ∨ ns < q.wakeAt + 1000 * fld d.seq.adm 7 0 →
      s.gives (.admissionDeferExpiry t c ns) at') ∧
    (q.chg = .powering → s.gives (.cellPowerUpComplete t c) (d.onSeq t c fun q => { q with chg := .bootstrap })) ∧
    (q.chg ≠ .powering → s.gives (.cellPowerUpComplete t c) d) ∧
    (q.chg = .bootstrap →
      (q.track = true → domOf c = .M → d.seq.phase = 1 → (d.cl t c).loop.outOn = false → s.gives (.bootstrapComplete t c) (d.onSeq t c fun q => { q with chg := .waiting })) ∧
      (q.track = false ∨ domOf c ≠ .M ∨ d.seq.phase ≠ 1 →
        let goal := fun (k : Cluster) => absOf (k.seq.atarget + if k.esc.guardOn && !k.seq.track then k.esc.guard else 0)
        let e := d.onC t c fun k => { k with
          loop := { k.loop with outOn := true, lawOff := false, pgood := false, pgRun := 0, entry := true }
          cells := k.cells.map fun x => if x.mode = .run then x.restart else x
          seq := { k.seq with ref := 0, ref0 := absOf k.seq.atarget, chg := .rising, target := some k.seq.atarget, base := some k.seq.atarget
                              movedAt := d.clk.now, settled := 0, slew := if k.seq.track then fld d.seq.cfg 5 0 else fld d.seq.cfg 14 8
                              endv := goal k, knee := goal k } }
        let f := if q.target = some q.atarget then e else bandEval t c e
        s.leads (.bootstrapComplete t c) f [] ∧ (q.fromOff = true ∨ q.track = true → s.gives (.bootstrapComplete t c) f))) ∧
    (q.chg ≠ .bootstrap → s.gives (.bootstrapComplete t c) d)

/-! ### Register writes (chapters 4, 6 to 14) -/

/-- R206, R216, R221, R222, R225, R308, R371, R375: writes of the device's settings by the Ridge, the boot logic or an open port: each takes the value, or
ends with the status of the check that fails and changes nothing; a port is answered. A closed port is refused with BUSY (R382), and a Rafter reaches none.
That RETRAIN leaves both links at no width until they have trained is the model's reading (log 27). -/
def Obligations.DeviceSettings : Prop :=
  ∀ (s : State) (w : Writer) (v : Word) (n : Nat), s.Inv →
    let d := s.dev
    let b := d.bud
    let rows := [(Instr.devlimWrite w v, 0x200C), (.localWrite w v, 0x2010), (.alertRelease w, 0x202C), (.avsSet w v, 0x60), (.retrain w, 0x5000),
      (.forget w n, 0x5000), (.nvFetch w v, 0x78)]
    let ok := fun (i : Instr) (a : Nat) (e : Dev) => s.gives i (e.answered w a 0)
    let no := fun (i : Instr) (a st : Nat) => s.gives i (d.answered w a st)
    let limit := fun (i : Instr) (a old : Nat) (e : Dev) =>
      (fld v 23 0 = 0 → no i a 1) ∧ (d.flt.safe = true → old < fld v 23 0 → no i a 7) ∧
      (fld v 23 0 ≠ 0 → d.flt.safe = false ∨ fld v 23 0 ≤ old → ok i a e)
    (d.reached w →
      limit (.devlimWrite w v) 0x200C b.devlim { d with bud := { b with devlim := fld v 23 0 } } ∧
      limit (.localWrite w v) 0x2010 b.blocal { d with bud := { b with blocal := fld v 23 0 } } ∧
      (n < 64 → limit (.groupBudgetWrite w n v) (0x2100 + 4 * n) (b.grp.getD n 0) { d with bud := { b with grp := b.grp.set n (fld v 23 0) } }) ∧
      (b.hold = true → b.pin = false → b.highSince + 1000000 ≤ d.clk.now → (∀ t c, (d.cl t c).seq.force = false) →
        ok (.alertRelease w) 0x202C { d with bud := { b with hold := false } }) ∧
      (b.hold = false ∨ b.pin = true ∨ d.clk.now < b.highSince + 1000000 → no (.alertRelease w) 0x202C 2) ∧
      (1600 ≤ fld v 10 0 → fld v 10 0 ≤ 2000 →
        ok (.avsSet w v) 0x60 { d with boot := { d.boot with vset := fld v 10 0, avsBusy := true, avsTries := 0 } }) ∧
      (fld v 10 0 < 1600 ∨ 2000 < fld v 10 0 → no (.avsSet w v) 0x60 1) ∧
      (d.lnk.ctrl = 0 ∨ d.lnk.ctrl = 1 → ok (.retrain w) 0x5000 { d with lnk := { d.lnk with
          wwidth := 0, ewidth := 0, failsW := 0, failsE := 0, wtrain := true, etrain := true } } ∧
        (n < 64 → ok (.forget w n) 0x5000 { d with lnk := { d.lnk with
          members := d.lnk.members.modify n fun m => if m.resv then { m with resv := false, alloc := 0, mlocal := 0, absent := 0 } else m } })) ∧
      (d.boot.nvdone = false → no (.nvFetch w v) 0x78 4) ∧ (d.boot.nvdone = true → d.log.nvok = false → no (.nvFetch w v) 0x78 2) ∧
      (d.boot.nvdone = true → d.log.nvok = true → 2 ^ fld d.boot.nvid 7 0 ≤ 32 * fld v 31 5 → no (.nvFetch w v) 0x78 1) ∧
      (d.boot.nvdone = true → d.log.nvok = true → 32 * fld v 31 5 < 2 ^ fld d.boot.nvid 7 0 →
        ok (.nvFetch w v) 0x78 { d with boot := { d.boot with nvaddr := v &&& 0xFFFFFFE0, nvdone := false, nverr := false } })) ∧
    (w = .host ∨ w = .test → d.hp.closed = true → (∀ i a, (i, a) ∈ rows → no i a 4) ∧ (n < 64 → no (.groupBudgetWrite w n v) (0x2100 + 4 * n) 4)) ∧
    (∀ t, w = .rafter t → (∀ i a, (i, a) ∈ rows → s.gives i d) ∧ s.gives (.groupBudgetWrite w n v) d)

/-- R25, R192 to R194, R247, R249: an acknowledgement removes the named pending faults; ENTER enters safe state and brings every cluster to its lowest state;
RELEASE ends it, or is refused with STATE while a fault of level 5 is pending; START and STOP begin the sequences, or are refused with LOCKED (7) while raises are
held, or STATE (2). That LOCKED comes before STATE, and that RELEASE keeps SUBSYS and SOURCE, are the model's choices (logs 78, 77). -/
def Obligations.FaultAndStartControl : Prop :=
  ∀ (s : State) (w : Writer) (n : Nat) (v : Word), s.Inv → s.dev.reached w →
    let d := s.dev
    let held := d.flt.safe || d.bud.hold
    let ok := fun (i : Instr) (a : Nat) (e : Dev) => s.gives i (e.answered w a 0)
    let no := fun (i : Instr) (a st : Nat) => s.gives i (d.answered w a st)
    let badStart := d.seq.phase ≠ 0 ∨ d.sBelowL = true ∨ ∃ t, d.hasT t = true ∧ (d.tl t).rem.bist = 1
    let begun := { d with seq := { d.seq with phase := 1, railsGood := false, limitsOut := false } }
    (1 ≤ n → n ≤ 11 → ok (.faultAck w n v) (0x4000 + 0x100 * n)
      { d with flt := { d.flt with pend := d.flt.pend.filter fun p => !(p.sub == n && tst v p.src) } }) ∧
    (d.flt.safe = true → ok (.safeEnter w) 0x4004 d) ∧
    (d.flt.safe = false → s.makes (.safeEnter w) fun u => u.flt.safe = true ∧
      ∀ t c, d.live t c = true → (if c < 14 then 2 else 1) ≤ (u.cl t c).seq.st.depth) ∧
    (d.flt.pend.any (fun p => p.level == 5) = true → no (.safeRelease w) 0x4004 2) ∧
    (d.flt.pend.any (fun p => p.level == 5) = false → (∀ t c, (d.cl t c).seq.force = false) →
      ok (.safeRelease w) 0x4004 { d with flt := { d.flt with safe := false } }) ∧
    (held = true → no (.start w) 0x6000 7 ∧ no (.stop w) 0x6000 7) ∧
    (held = false → badStart → no (.start w) 0x6000 2) ∧
    (held = false → ¬ badStart → s.leads (.start w) (begun.answered w 0x6000 0) [] ∧
      ((∀ t c, ∀ x ∈ (d.cl t c).cells, x.shed = .steady) → s.makes (.start w) fun u =>
        ∀ t c, d.live t c = true → d.thmHeld t c = false → (u.cl t c).seq.chg = .bootstrap ∧ (u.cl t c).seq.track = true)) ∧
    (held = false → d.seq.phase = 0 → no (.stop w) 0x6000 2) ∧
    (held = false → d.seq.phase ≠ 0 → s.makes (.stop w) fun u => u.seq.railsGood = false ∧
      ((∃ t c, d.live t c = true ∧ domOf c = .M ∧ (d.cl t c).loop.outOn = true) → u.seq.phase = 4) ∧
      ((∀ t c, d.live t c = true → (d.cl t c).loop.outOn = false) → u.seq.phase = 0))

/-- R317, R320, R322: RHALT and FHALTALL halt the Ridge and the Rafters that are not in reset; their release lets a core go on, its watchdog at 0, or, where
its instruction RAM was written, restarts it; RSTART and FSTARTALL restart, with CAUSE 6, on the resident program or after a check of the loaded one. -/
def Obligations.CoreControl : Prop :=
  ∀ (s : State) (w : Writer), s.Inv → s.dev.reached w →
    let d := s.dev
    let soft := fun (y : Core) => ({ y with evpend := 0 } : Core)
    let again := fun (sel : Bool) (x y : Core) =>
      if sel = true then y.checking = some 6 ∧ y.on = false ∧ y.rcause = 6 ∧ y.halted = false
      else soft y = ({ x with halted := false } : Core).restarted 6 d.clk.now
    let released := fun (sel : Bool) (x y : Core) =>
      (x.halted = false → soft y = soft x) ∧ (x.halted = true → x.dirty = false → soft y = soft (x.releasedAt d.clk.now)) ∧
      (x.halted = true → x.dirty = true → again sel x y)
    let each := fun (i : Instr) (p : Core → Core → Prop) => s.makes i fun u =>
      soft u.ridge = soft d.ridge ∧ ∀ t, d.hasT t = true → (d.tl t).rst = false → p (d.tl t).core (u.tl t).core
    s.makes (.rhalt w true) (fun u => soft u.ridge = soft (d.ridge.haltedAt d.clk.now) ∧
      (∀ ws, d.hp.unit = some (ws, false, .program) → d.ridge.halted = false → u.hp.done = true ∧ u.hp.stStatus = 4)) ∧
    s.makes (.rhalt w false) (fun u => released d.hp.rsel d.ridge u.ridge) ∧
    s.makes (.rstart w) (fun u => again d.hp.rsel d.ridge u.ridge) ∧
    each (.fhaltall w) (fun x y => soft y = soft (x.haltedAt d.clk.now)) ∧
    each (.frelall w) (released d.hp.fsel) ∧
    each (.fstartall w) (again d.hp.fsel)

/-- R315, R327, R337, R340, R349: a DMA channel's EN, TAIL, ABORT, RESUME and SKIP: the channel's new state, the abort's fault, STATE where RESUME or SKIP finds
it not halted, RANGE on channel 0; the command ring's EN, which clears HALTED where it enables and repeats a failed write-back. A change of STATE makes the Ridge's event DMA pending.
What EN 0 leaves, what RESUME takes up and how the ring shows on channel 0 are the model's readings (logs 25, 26, 74). -/
def Obligations.ChannelControl : Prop :=
  ∀ (s : State) (w : Writer) (n : Nat) (on : Bool) (v : Word), s.Inv → s.dev.reached w →
    let d := s.dev
    let C := d.ch n
    let a := 0x8100 + 0x40 * n
    let idle := fun (c : Chan) => if c.en = false then 0 else if c.head = c.tail then 1 else 2
    let becomes := fun (i : Instr) (c : Chan) =>
      s.makes i fun u => u.ch n = c ∧ (c.st ≠ C.st → d.ridge.on = true → tst u.ridge.evpend 8 = true)
    let overT := { C.clear with head := (C.head + 1) % 2 ^ fld C.cfg 11 8 }
    (1 ≤ n → n < 8 → n < d.dma.ch.length →
      (C.en = on → becomes (.dmaEnable w n on) C) ∧
      (C.en ≠ on → C.st = 4 → becomes (.dmaEnable w n on) { C with en := on }) ∧
      (C.en ≠ on → C.st ≠ 4 → on = true → becomes (.dmaEnable w n on)
        { C with en := true, st := if C.st = 0 then (if C.head = C.tail then 1 else 2) else C.st }) ∧
      (C.en ≠ on → C.st ≠ 4 → on = false → becomes (.dmaEnable w n on) { C.clear with en := false, st := 0 }) ∧
      (2 ^ fld C.cfg 11 8 ≤ fld v 11 0 → s.gives (.dmaTailWrite w n v) (d.answered w (a + 0x10) 1)) ∧
      (fld v 11 0 < 2 ^ fld C.cfg 11 8 → becomes (.dmaTailWrite w n v)
        { C with tail := fld v 11 0, st := if C.st = 1 ∨ C.st = 2 ∧ C.desc = none then idle { C with tail := fld v 11 0 } else C.st }) ∧
      let was := if C.abt then C.abtWas else C.aborted
      becomes (.abort w n) (if C.st = 4 then { C.clear with en := false, aborted := true, st := 0 }
        else if C.desc = none then { C with en := false, aborted := true, abtWas := was, st := 0, resid := 0 }
        else if C.wb then { C with en := false, aborted := true, abtWas := was, st := 3, resid := C.len - C.wr }
        else { C with en := false, aborted := true, abtWas := was, st := 3, slots := C.slots.take 1, abt := true }) ∧
      s.makes (.abort w n) (fun u => u.pends 10 2 .device) ∧
      (C.st ≠ 4 → s.gives (.resume w n) (d.answered w a 2) ∧ s.gives (.skip w n) (d.answered w a 2)) ∧
      (C.st = 4 → becomes (.skip w n) { overT with st := idle overT } ∧
        (C.desc = none → becomes (.resume w n) { C with st := idle C }) ∧
        (C.desc.isSome = true → C.phase = 3 → becomes (.resume w n) { C with st := if C.abt then 3 else if C.en then 2 else 0 }) ∧
        (C.desc.isSome = true → C.phase ≠ 3 → C.en = false → becomes (.resume w n) { C.clear with st := 0 }) ∧
        ∀ ws, C.desc = some ws → C.phase ≠ 3 → C.en = true →
          let c := { C.clear with desc := some ws, st := 2 }
          (tst (c.w 0) 31 = true → descBad c = false → becomes (.resume w n) (if descStatus d c ≠ 0 then { c with status := descStatus d c, wb := true }
            else if c.bcast then { c with refused := (d.tilesOn.map fun t => (t, tileRefusal d c.dsp t)).filter fun p => p.2 != 0 } else c)) ∧
          (tst (c.w 0) 31 = false ∨ descBad c = true → s.makes (.resume w n) fun u =>
            (u.ch n).st = 4 ∧ (u.ch n).desc = none ∧ (u.ch n).phase = 0 ∧ u.pends 10 1 .device))) ∧
    (n = 0 → ∀ i ∈ [Instr.dmaEnable w n on, .abort w n, .resume w n, .skip w n],
      s.gives i (d.answered w a 1) ∧ s.gives (.dmaTailWrite w n v) (d.answered w (a + 0x10) 1)) ∧
    (4 ≤ d.hp.log2n → d.hp.log2n ≤ 12 → s.makes (.commandRingEnable w on) fun u =>
      let head := if on = true ∧ d.hp.rback = true then (d.hp.rhead + 1) % 2 ^ d.hp.log2n else d.hp.rhead
      let st := if d.hp.rhalted && !on then 4 else if on = false then 0 else if head = d.hp.rtail then 1 else 2
      u.hp.ren = on ∧ u.hp.rhalted = (d.hp.rhalted && !on) ∧ u.hp.rhead = head ∧ u.hp.rback = (d.hp.rback && !on) ∧ u.hp.rtail = d.hp.rtail ∧
      (on = false ∨ d.hp.rback = false ∨ d.hp.wback = none → u.dma.ch = d.dma.ch.modify 0 (fun c => { c with st := st }) ∧ u.dma.bus = d.dma.bus) ∧
      (on = true → d.hp.rback = true → ∀ i w0 w2, d.hp.wback = some (i, w0, w2) →
        u.dma.bus = (busWrite (d.hp.rbasel.toNat + 2 ^ 32 * d.hp.rbaseh.toNat + 16 * i) (wordBytes w0) d).dma.bus ∧
        let x := fld w0 23 16
        u.dma.ch = d.dma.ch.modify 0 fun c => if d.hp.wcnt = none then { c with st := st, lastst := x }
          else { c with st := st, lastst := x, done := min 0xFFFF (c.done + 1), notok := if x = 0 then c.notok else min 0xFFFF (c.notok + 1) }) ∧
      ((d.ch 0).st ≠ st → d.ridge.on = true → tst u.ridge.evpend 8 = true))

/-- R350, R358 to R361, Table 13-4: LOG_CMD's FLUSH, FREEZE, THAW, NONCE and CLEAR: what each leaves of the recorder, or STATE, BUSY or AUTH; a CLEAR whose
tag does not match uses up the nonce and raises AUTHFAIL (order of the checks: log 73).
What FREEZE does to a flush under way and D0 of CLEAR are the model's readings (logs 71, 72), as are a FLUSH during the erasure, which does nothing, and the flush
under way that CLEAR drops (log 12). -/
def Obligations.LogControl : Prop :=
  ∀ (s : State) (w : Writer), s.Inv → s.dev.reached w →
    let d := s.dev
    let l := d.log
    let ok := fun (i : Instr) (e : LogDev) => s.gives i ({ d with log := e }.answered w 0xA000 0)
    let no := fun (i : Instr) (st : Nat) => s.gives i (d.answered w 0xA000 st)
    let mayClear := l.nonce.isSome = true ∧ l.frozen = false ∧ l.nvok = true
    (l.frozen = true ∨ l.nvok = false → no (.flush w) 2) ∧
    (l.frozen = false → l.nvok = true →
      (l.erased = false → l.clearing = true ∨ l.full = true → ok (.flush w) l) ∧
      (l.erased = true ∨ l.clearing = false ∧ l.full = false → l.flush.isSome = true → ok (.flush w) { l with again := true }) ∧
      (l.erased = true ∨ l.clearing = false ∧ l.full = false → l.flush = none → (∀ b ∈ l.buckets, b.supp = 0) → ok (.flush w)
        { l with flush := if l.buf.countP (·.pend) = 0 then none else some (l.buf.countP (·.pend)), again := false })) ∧
    (l.frozen = true → no (.freeze w) 2) ∧ (l.frozen = false → l.clearing = true → no (.freeze w) 4) ∧
    (l.frozen = false → l.clearing = false → ok (.freeze w)
      { l with frozen := true, frzTaken := 0, frzAt := l.optime, frzHeld := l.flush.isSome, flush := none, again := false }) ∧
    (l.frozen = false → no (.thaw w) 2) ∧ (l.frozen = true → s.makes (.thaw w) fun u => u.log.frozen = false) ∧
    (l.frozen = true → l.frzN = 0 → l.frzHeld = false → ok (.thaw w) { l with frozen := false, frzTaken := 0 }) ∧
    (l.nonceAt = some l.optime → no (.nonce w) 4) ∧ (l.nonceAt ≠ some l.optime → d.boot.keyv = false → no (.nonce w) 5) ∧
    (l.nonceAt ≠ some l.optime → d.boot.keyv = true → ok (.nonce w)
      { l with nonce := some (l.pcc % 2 ^ 24 * 2 ^ 40 + l.optime), nonceAt := some l.optime }) ∧
    (¬ mayClear → no (.clear w) 2) ∧ (mayClear → l.clearing = true → no (.clear w) 4) ∧
    (mayClear → l.clearing = false → ∀ n, l.nonce = some n →
      let tag := clearTag d.boot.keyw n
      (tag = (l.tagl, l.tagh) → ok (.clear w)
        { l with nonce := none, tagl := 0, tagh := 0, clearing := true, erased := false, clearD0 := BitVec.ofNat 32 (l.wptr + b2n l.full), flush := none, again := false }) ∧
      (tag ≠ (l.tagl, l.tagh) → s.leads (.clear w) ({ d with log := { l with nonce := none, tagl := 0, tagh := 0 } }.answered w 0xA000 5)
        [(11, 3, .device)]))

/-- R289, R294, R308: a write of a tile register by the Ridge or a port: checked against the tile's mirror, sent over Purlin and OK, or ended with the status of
the first check that fails. A port's write is answered: BUSY (4) while it is closed, NOTARGET (3) while the mirror is stale. That every write, RETURN and START
among them, is checked against the mirror, and an isolated tile's as an absent one's, and that a port's write ends its latch of the window whatever its status,
are the model's choices (logs 58, 93, 124). -/
def Obligations.TileWritesSent : Prop :=
  ∀ (s : State) (w : Writer) (t c n : Nat) (v : Word) (on : Bool), s.Inv → t < 96 → c < 18 →
    let d := s.dev
    let x := d.tl t
    let rows : List (Instr × Nat × Word) :=
      [(.returnCluster w t c, 0x80 * c + 0x68, 1), (.seqClspWrite w t c v, 0x80 * c, v), (.seqCllimWrite w t c v, 0x80 * c + 0x04, v),
       (.seqClpsWrite w t c v, 0x80 * c + 0x0C, v), (.seqClgrWrite w t c v, 0x80 * c + 0x14, v), (.capWrite w t (some c) v, 0x80 * c + 0x18, v),
       (.thmRelease w t c, 0x80 * c + 0x2C, 2), (.thmRestore w t c, 0x80 * c + 0x2C, 1), (.fusClctlWrite w t c v, 0x80 * c + 0x74, v),
       (.halt w t on, 0x900, put x.rem.ctrl 31 31 (b2n on)), (.dual w t on, 0x900, put x.rem.ctrl 0 0 (b2n on)),
       (.cpmClear w t n, 0xFB0, word [(x.cpmGuard, 16), (n % 1024, 0)]), (.capWrite w t none v, 0xC08, v),
       (.rafterHalt w t on, 0xFE0, BitVec.ofNat 32 (b2n on)), (.rafterStart w t, 0xFE0, 2), (.fusCommit w t n, 0xA08, word [(1, 8), (n % 32, 0)]),
       (.fusInvalidate w t n, 0xA08, word [(2, 8), (n % 32, 0)]), (.fusMapw w t v, 0xA0C, v), (.run w t on, 0xA00, BitVec.ofNat 32 (b2n on)),
       (.armTrace w t, 0xA58, 1), (.forceTrace w t, 0xA58, 2), (.stopTrace w t, 0xA58, 4), (.purlinRetry w t, 0xF80, 0x00100000)]
    ∀ i off u, (i, off, u) ∈ rows →
      let a := 0x10000 + 0x1000 * t + off
      let e := match w with | .host => endLatch .host a d | .test => endLatch .test a d | _ => d
      let k := tileChecks (shadowView e t) (match w with | .ridge => 8 | .rafter _ => 9 | _ => 7) t off u
      let st := { k with absent := k.absent || boolAt d.pur.lost t }.first
      let f : Flying := { src := w, tile := t, cluster := offCluster off, op := 0x1D, seq := 0, kind := .regw off u }
      let sent := if st = 0 then { e with air := e.air ++ [{ f with no := e.issued }], issued := e.issued + 1 } else e
      (w = .ridge → s.gives i sent) ∧
      (w = .host ∨ w = .test → d.hp.closed = false → (d.mir t).stale = false → s.gives i (sent.answered w a st)) ∧
      (w = .host ∨ w = .test → d.hp.closed = true → s.gives i (e.answered w a 4)) ∧
      (w = .host ∨ w = .test → d.hp.closed = false → (d.mir t).stale = true → s.gives i (e.answered w a 3)) ∧
      (∀ r, w = .rafter r → r ≠ t → s.gives i d)

/-- R28, R110, R123, R166, R169, R174, R189, R206, R240, R289: a write of a cluster register by the tile's own Rafter or the boot logic, at once: where every
check passes, it has its effect; otherwise nothing changes. A setpoint write starts a transition of class 7; spans and grant policies stand class by class, what a
lower class writes held within a higher one's. How the classes are told apart, that FSTATE 0 names A whatever FORCE says, and that the boot logic writes at once
are the model's choices (logs 101, 10, 81). -/
def Obligations.ClusterWritesAct : Prop :=
  ∀ (s : State) (w : Writer) (t c : Nat) (v : Word), s.Inv → t < 96 → c < 18 → actsLive w t →
    let d := s.dev
    let k := d.cl t c
    let q := k.seq
    let f := fld v 6 4
    let safe := d.flt.safe
    let code := fld v 9 0
    let hi := fld v 25 16
    let lim := codeLo (domOf c) ≤ code ∧ code ≤ hi ∧ hi ≤ codeHi (domOf c)
    let step := fun (g : Word) => if fld g 15 8 = 0 then 256 else fld g 15 8
    let L := liveClass w
    let ranked := fun (x : Word) (l : List (Nat × Word)) => l.filter (fun y => y.1 < L) ++ (L, x) :: l.filter fun y => L < y.1
    let submit := fun (L n : Nat) (d : Dev) => { (d.onSeq t c fun q => { q with queue := q.queue.filter (fun x => x.cls != L) ++
      [{ cls := L, kind := .setpoint, code := n, no := d.seq.next }] }) with seq := { d.seq with next := d.seq.next + 1 } }
    let row := fun (i : Instr) (ok : Prop) (e : Dev) =>
      (d.live t c = true → (d.tl t).rst = false → ok → s.gives i e) ∧ (d.live t c = false ∨ (d.tl t).rst = true ∨ ¬ ok → s.gives i d)
    row (.returnCluster w t c) (k.quiet = false ∧ k.loop.handed = true ∧ (d.tl t).rem.halted = false)
      (d.onLoop t c fun l => { l with retDue := true, handDue := none }) ∧
    row (.seqClspWrite w t c v) (codeLo (domOf c) ≤ code ∧ code ≤ codeHi (domOf c) ∧ k.quiet = false ∧ (safe = false ∨ code ≤ q.atarget)) (submit 7 code d) ∧
    let span := spanOf (ranked (v &&& 0x03FF03FF) q.bounds)
    let grant := grantOf (ranked (v &&& 0x0000FF03) q.grants)
    let raise := fld grant 1 0 < fld q.clgr 1 0 ∨ step q.clgr < step grant
    row (.seqCllimWrite w t c v) (lim ∧ (safe = false ∨ fld span 9 0 ≤ q.atarget) ∧ (k.quiet = false ∨ fld span 9 0 ≤ q.atarget ∧ q.atarget ≤ fld span 25 16))
      (let bs := ranked (v &&& 0x03FF03FF) q.bounds
       let b := spanOf bs
       let mn := fld b 9 0
       let mx := fld b 25 16
       let e := d.onSeq t c fun q => { q with cllim := b, bounds := bs }
       if q.atarget < mn ∨ mx < q.atarget then submit L (max mn (min mx q.atarget)) e else e) ∧
    (∀ n x, spanOf [(n, x)] = x ∧ grantOf [(n, x)] = x) ∧
    (∀ n x y, ∀ l ≠ [], spanOf l = y → let fit := fun i => max (fld x 9 0) (min (fld x 25 16) i)
      spanOf ((n, x) :: l) = word [(fit (fld y 25 16), 16), (fit (fld y 9 0), 0)]) ∧
    (∀ n x y, ∀ l ≠ [], grantOf l = y → grantOf ((n, x) :: l) =
      word [((if fld x 15 8 = 0 then fld y 15 8 else if fld y 15 8 = 0 then fld x 15 8 else min (fld x 15 8) (fld y 15 8)), 8), (max (fld x 1 0) (fld y 1 0), 0)]) ∧
    row (.seqClpsWrite w t c v)
      (f ≤ 4 ∧ (isLS c = true ∨ f ≠ 2 ∧ f ≠ 3) ∧ k.quiet = false ∧ (safe = false ∨ tst v 7 = false ∧ f ≠ 0 ∨ q.st.depth ≤ f))
      (d.onSeq t c fun q => { q with clps := v &&& 0x000000F0, held := q.held ++ [.state (tst v 7) f L] }) ∧
    row (.seqClgrWrite w t c v) (fld v 1 0 ≠ 3 ∧ k.quiet = false ∧ (safe = false ∨ ¬ raise))
      (let gs := ranked (v &&& 0x0000FF03) q.grants
       d.onSeq t c fun q => { q with clgr := grantOf gs, grants := gs, held := q.held ++ [.grant (grantOf gs)] }) ∧
    row (.capWrite w t (some c) v) (fld v 15 0 ≠ 0 ∧ (safe = false ∨ fld v 15 0 ≤ k.bud.cap))
      (d.onC t c fun k => { k with bud := { k.bud with cap := fld v 15 0, capHeld := k.quiet } }) ∧
    row (.thmRestore w t c) (k.thm.broken = true) (d.onThm t c fun x => { x with retest := some 0 }) ∧
    row (.thmRelease w t c) (k.thm.rellock = true ∧ k.thm.shut = false) (d.onThm t c fun x => { x with relDue := true }) ∧
    row (.fusClctlWrite w t c v) (fld v 5 0 ≤ (if isLS c then 31 else 1) ∧ k.quiet = false ∧ (d.tl t).fus.run = true)
      (d.onFus t c fun f => { f with clctl := v &&& 0x0000033F })

/-- R96, R108, R112 to R116, R134, R135, R196, R206, R322, R400: a write of a tile register by the tile's own Rafter or the boot logic, at once: where every check
passes, it has its effect; otherwise nothing changes. That the boot logic writes at once, that an isolated tile does not answer, how a halted core's cycles count
and that START ends the halt are the model's choices (logs 81, 93, 84, 66). -/
def Obligations.TileWritesAct : Prop :=
  ∀ (s : State) (w : Writer) (t n : Nat) (v : Word) (on : Bool), s.Inv → t < 96 → actsLive w t →
    let d := s.dev
    let x := d.tl t
    let soft := fun (y : Core) => ({ y with evpend := 0 } : Core)
    let again := fun (u : Dev) => if d.hp.fsel = true then
        (u.tl t).core.checking = some 6 ∧ (u.tl t).core.on = false ∧ (u.tl t).core.rcause = 6 ∧ (u.tl t).core.halted = false
      else soft (u.tl t).core = ({ x.core with halted := false } : Core).restarted 6 d.clk.now
    let up := d.hasT t = true ∧ d.isoT t = false ∧ x.rst = false
    let row := fun (i : Instr) (ok : Prop) (e : Dev) => (up → ok → s.gives i e) ∧ (¬ up ∨ ¬ ok → s.gives i d)
    let trace := fun (i : Instr) (y : Trace) => (up → s.makes i fun u => (u.tl t).trace = y) ∧ (¬ up → s.gives i d)
    row (.halt w t on) True (d.onRem t fun r => { r with ctrl := put r.ctrl 31 31 (b2n on) &&& 0x80000007 }) ∧
    row (.dual w t on) True (d.onRem t fun r => { r with ctrl := put r.ctrl 0 0 (b2n on) &&& 0x80000007 }) ∧
    (x.cpm.length = 10 → x.cpmGuard < 16 → row (.cpmClear w t n) True
      (d.onT t fun x => { x with cpm := mapI (fun c l => if n.testBit c then [127, 127, 127, 127] else l) 0 x.cpm })) ∧
    row (.capWrite w t none v) (fld v 15 0 ≠ 0 ∧ (d.flt.safe = false ∨ fld v 15 0 ≤ x.tcap)) (d.onT t fun x => { x with tcap := fld v 15 0 }) ∧
    row (.fusCommit w t n) (n % 32 ≤ 23 ∧ x.fus.cmd = none) (d.onTFus t fun y => { y with cmd := some (.commit (n % 32)) }) ∧
    row (.fusInvalidate w t n) (n % 32 ≤ 23 ∧ x.fus.cmd = none) (d.onTFus t fun y => { y with cmd := some (.invalidate (n % 32)) }) ∧
    row (.fusMapw w t v) (¬ (24 ≤ fld v 12 8 ∧ fld v 12 8 ≤ 30) ∧ x.fus.cmd = none)
      (d.onTFus t fun y => { y with cmd := some (.mapw (fld v 12 8) (fld v 7 6) (fld v 5 0)) }) ∧
    row (.purlinRetry w t) True (d.onT t fun x => { x with train := x.byp }) ∧
    (up → x.fus.run = false → x.mapped (mapBytes s.mem t) = true → s.makes (.run w t true) fun u => (u.tl t).fus.run = true ∧
      (u.tl t).fus.runDue = true ∧ (u.tl t).esc.trust = min 16 (fld x.esc.cfgE 20 16) ∧ ∀ c, (u.cl t c).fus.use = (d.cl t c).fus.sel) ∧
    (¬ up ∨ x.fus.run = true ∨ x.mapped (mapBytes s.mem t) = false → s.gives (.run w t true) d) ∧ s.gives (.run w t false) d ∧
    row (.rafterHalt w t true) True (d.onCore (.rafter t) fun x => x.haltedAt d.clk.now) ∧
    (x.core.halted = false → s.gives (.rafterHalt w t false) d) ∧
    (x.core.halted = true → x.core.dirty = false → row (.rafterHalt w t false) True (d.onCore (.rafter t) fun x => x.releasedAt d.clk.now)) ∧
    (up → x.core.halted = true → x.core.dirty = true → s.makes (.rafterHalt w t false) again) ∧ (up → s.makes (.rafterStart w t) again) ∧
    trace (.armTrace w t) { x.trace with st := 1, recs := [], bad := [], fired := none, post := 0, tpos := 0 } ∧
    trace (.forceTrace w t) (if x.trace.st = 1 then { x.trace with st := 2, fired := some d.clk.now }
      else if x.trace.st = 2 then { x.trace with fired := x.trace.fired.map (min d.clk.now) } else x.trace) ∧
    trace (.stopTrace w t) (if x.trace.st = 1 then { x.trace with st := 3, fired := none }
      else if x.trace.st = 2 then { x.trace.done with post := 0 } else x.trace)

/-- R112 to R116, R134, R135: the Fusee command under way completes with its status: COMMIT makes a slot valid whose header and padding are as R114 asks, and is
RANGE otherwise; INVALIDATE makes one that is not live invalid; a map write changes its byte of the map, or completes with RANGE or STATE as R115 lists; ARMALL and FORCEALL reach every tile's trace buffer; a trigger sent by another tile is taken with XIN set. The first trigger takes an
armed buffer to TRIGGERED. -/
def Obligations.FuseeAndTraceCommands : Prop :=
  ∀ (s : State) (w : Writer) (t : Nat), s.Inv →
    let d := s.dev
    let ends := fun (st : Nat) (f : Fus → Fus) => d.onTFus t fun y => f { y with cmd := none, status := st }
    let cmd := (d.tl t).fus.cmd
    let word := fun (n k : Nat) => Mem.readW s.mem (storeBase t + (if n < 20 then 0xC00 * n else 0xF000 + 0x20 * (n - 20)) + 4 * k)
    let fits := fun (n : Nat) => let h := word n 0
      if n < 20 then fld h 7 0 = 1 ∧ fld h 9 8 ≤ 1 ∧ 6 ≤ fld h 13 10 ∧ fld h 13 10 ≤ 8 ∧ fld h 31 14 = 0 ∧ word n 2 = 0
      else fld h 7 0 = 2 ∧ fld h 31 10 = 0 ∧ ∀ j < 7, fld (word n (j + 1)) 31 18 = if tst (word n (j + 1)) 17 then 0x3FFF else 0
    let size := fun (D : Nat) => if D < 2 then 36 else 2
    let map := fun (D r : Nat) => (Mem.read s.mem (storeBase t + 0xF080 + 64 * D + r)).toNat
    let coef := fun (n k : Nat) => coefField s.mem t n / 2 ^ (18 * k) % 2 ^ 18
    let fires := fun (x : Trace) => if x.st = 1 then { x with st := 2, fired := some d.clk.now }
      else if x.st = 2 then { x with fired := x.fired.map (min d.clk.now) } else x
    (cmd = none → s.gives (.fusCommandComplete t) d) ∧
    (∀ n, cmd = some (.commit n) → s.gives (.fusCommandComplete t)
      (if fits n then ends 0 fun y => { y with valid := y.valid.set n true } else ends 1 id)) ∧
    (∀ n, cmd = some (.invalidate n) →
      let live := (∃ D r, D < 4 ∧ r < size D ∧ (d.tl t).domains.contains (domOfCode D) = true ∧ map D r = n) ∨ ∃ c, d.hasC t c = true ∧ (d.cl t c).fus.slot = n
      (d.hasT t = true → live → s.gives (.fusCommandComplete t) (ends 4 id)) ∧
      (d.hasT t = true → ¬ live → s.gives (.fusCommandComplete t) (ends 0 fun y => { y with valid := y.valid.set n false }))) ∧
    (∀ n D r, cmd = some (.mapw n D r) → D < 4 →
      let a := storeBase t + 0xF080 + 64 * D + r
      let h := word n 0
      let state := if n = 0x1F then (d.tl t).fus.run = true else
        (d.tl t).fus.valid.getD n false = false ∨ (n < 20 ∧ 2 ≤ D) ∨ (20 ≤ n ∧ D < 2) ∨ fld h 9 8 ≠ D ∨
        (D < 2 ∧ fld h 13 10 ≠ if r < 32 then 8 else if r < 34 then 7 else 6) ∨
        (D < 2 ∧ r < 32 ∧ ∃ q k, q < 32 ∧ q ≠ r ∧ map D q < 20 ∧ (k < 320 ∨ 800 ≤ k ∧ k < 1360) ∧ coef n k ≠ coef (map D q) k)
      (size D ≤ r → s.gives (.fusCommandComplete t) (ends 1 id)) ∧ (r < size D → state → s.gives (.fusCommandComplete t) (ends 2 id)) ∧
      (r < size D → ¬ state → ∃ u, exec (.fusCommandComplete t) s = .next u ∧ u.pending = s.pending ∧
        (ends 0 fun y => { y with badOffs := y.badOffs.filter (· != (0xF080 + 64 * D + r) / 4 * 4) }).Aside u.dev ∧
        Mem.read u.mem a = BitVec.ofNat 8 (if n = 0x1F then 0xFF else n) ∧ ∀ b, b ≠ a → Mem.read u.mem b = Mem.read s.mem b)) ∧
    (d.reached w → s.makes (.armall w) (fun u => ∀ t, d.hasT t = true →
        (u.tl t).trace = { (d.tl t).trace with st := 1, recs := [], bad := [], fired := none, post := 0, tpos := 0 }) ∧
      s.makes (.forceall w) fun u => ∀ t, d.hasT t = true →
        (u.tl t).trace = fires (d.tl t).trace) ∧
    (t ∈ d.xtrig → s.gives (.traceCrossTrigger t) ({ d with xtrig := d.xtrig.erase t }.onTrc t fun x =>
      if tst x.cfg 7 then fires x else x)) ∧
    (t ∉ d.xtrig → s.gives (.traceCrossTrigger t) d)

/-! ### Thermal monitor, alert, scrubber, margin inputs, link (chapters 4, 7, 8, 9) -/

/-- R229 to R239, R241: a read instant stores the raw codes; an evaluation forms, by the settings written, each cluster's reading, the tests of its diode, which
declare it broken or sound again, the effective temperature that replaces a broken diode's, the bands with their hysteresis, the thermal position, the faults of
bands that set, and, for a shutdown, the hold and the states of Table 8-2; a hold ends with its band where no lock stands, and a RELEASE takes effect. -/
def Obligations.ThermalMonitor : Prop :=
  ∀ (s : State) (raw : List DiodeReading), s.Inv →
    let d := s.dev
    s.makes (.thermalRead raw) (fun u => u.thm.readDue = true ∧
      (∀ r ∈ raw, d.hasC r.tile r.cluster = true → (∀ q ∈ raw, q.tile = r.tile → q.cluster = r.cluster → q.raw = r.raw) →
        (u.cl r.tile r.cluster).thm.rawN = r.raw % 4096) ∧
      ∀ t c, (∀ r ∈ raw, ¬ (r.tile = t ∧ r.cluster = c)) → (u.cl t c).thm = (d.cl t c).thm) ∧
    (d.thm.readDue = false → s.gives .thermalEvaluation d) ∧
    (d.thm.readDue = true → s.makes .thermalEvaluation fun u =>
      u.thm.readDue = false ∧ u.thm.evals = d.thm.evals + 1 ∧ u.thm.cfgE = d.thm.cfg ∧ u.thm.hysE = d.thm.hys ∧ u.thm.brkE = d.thm.brk ∧
      u.thm.tcfgE = d.thm.tcfg ∧ ∀ t c, d.hasC t c = true →
        let x := (d.cl t c).thm
        let y := (u.cl t c).thm
        let warn : Int := 16 * fld d.thm.cfg 15 8
        let thr : Int := 16 * fld d.thm.cfg 23 16
        let shut : Int := 16 * fld d.thm.cfg 31 24
        let band := fun (lim hys : Int) (was : Bool) => if lim ≤ y.eff then true else if y.eff < lim - 16 * hys then false else was
        y.raw = x.rawN ∧ y.prev = (if d.thm.evals = 0 then none else some x.read) ∧
        let nb := d.neighbours t c
        let seen := fun (v : Dev) => (nb.filter fun p => !(v.cl p.1 p.2).thm.broken).map fun p => (u.cl p.1 p.2).thm.read
        let ns := seen d
        let dis := decide (2 ≤ ns.length ∧ 16 * fld d.thm.brk 23 16 < (y.read - lowerMedian ns).natAbs)
        let rate := decide (d.thm.evals ≠ 0 ∧ 16 * fld d.thm.brk 15 8 < (y.read - x.read).natAbs)
        let run := if dis then x.disRun + 1 else 0
        let rates := (rate :: x.rates).take 8
        let repl : Int := 16 * fld d.thm.tcfg 4 0
        let most := fun (l : List Int) => ∀ v ∈ l, (∀ z ∈ l, z ≤ v) → y.eff = v + repl
        let sound := ((d.tl t).clsOn.filter fun b => !(u.cl t b).thm.broken).map fun b => (u.cl t b).thm.read
        y.read = divHE (((x.rawN : Int) - fld x.clcal 31 20) * fld x.clcal 15 0) 4096 + 400 ∧ (y.broken = false → y.eff = y.read) ∧ y.temp = divHE y.eff 16 ∧
        y.noxchk = decide (ns.length < 2) ∧ (ns.length < 2 → x.noxchk = false → u.pends 7 5 (.cluster t c)) ∧
        (x.broken = false → if fld d.thm.brk 7 4 ≤ run ∨ fld d.thm.brk 3 0 ≤ rates.countP id then y.broken = true ∧ y.retest = none ∧ u.pends 7 3 (.cluster t c)
          else y.broken = false ∧ y.disRun = run ∧ y.rates = rates) ∧
        (x.broken = true → x.retest = none → y.broken = true ∧ y.retest = none) ∧
        (∀ k, x.broken = true → x.retest = some k → if dis || rate then y.broken = true ∧ y.retest = some 0
          else if 15 ≤ k then y.broken = false ∧ y.retest = none else y.broken = true ∧ y.retest = some (k + 1)) ∧
        (y.broken = true → most (seen u) ∧ (seen u = [] → most sound ∧ (sound = [] → y.eff = 16 * fld d.thm.brk 31 24))) ∧
        (d.noSensor t = false → u.noSensor t = true → u.pends 7 4 (.tile t)) ∧
        y.warn = band warn (fld d.thm.hys 3 0) x.warn ∧ y.throt = band thr (fld d.thm.hys 11 8) x.throt ∧ y.shut = band shut (fld d.thm.hys 20 16) x.shut ∧
        (isLS c = true → y.pt = if thr ≤ y.eff then min d.bud.bigH (x.pt + fld d.thm.tcfg 11 8)
          else if y.eff < thr - 16 * fld d.thm.hys 11 8 then x.pt - 1 else x.pt) ∧
        (y.warn = true → x.warn = false → u.pends 7 0 (.cluster t c)) ∧ (y.throt = true → x.throt = false → u.pends 7 1 (.cluster t c)) ∧
        y.relDue = false ∧
        (y.shut = false ∨ x.shut = true → y.rellock = (x.rellock && !(x.relDue && !y.shut)) ∧ y.hold = (x.hold && (y.shut || y.rellock))) ∧
        (y.shut = true → x.shut = false → u.pends 7 2 (.cluster t c) ∧ y.hold = true ∧
          (d.live t c = true → (if domOf c = .K then 1 else 4) ≤ (u.cl t c).seq.st.depth) ∧
          ∀ b, (domOf c = .S ∧ b ∈ (d.tl t).lOfS c) ∨ (domOf c = .K ∧ b < 14) → d.live t b = true → 4 ≤ (u.cl t b).seq.st.depth))

/-- R25, R127, R224, R225, R260, R261: an alert holds the wafer at its lowest states with ALERT, and its end is noted; a scrub pass counts its words, reports them
and acts by Table 9-5, and, where EN is 1, counts itself; the margin input's high time and its loss. A core that a reset keeps stopped starts on its resident program
when the reset ends (log 121).
ECC1 for each corrected word, words found with EN 0, and what a bad word of a buffer or of a Fusee block marks are the model's readings (logs 38, 91, 137). -/
def Obligations.AlertScrubMargin : Prop :=
  ∀ (s : State) (ns high n : Nat) (bad : List EccPlace) (late : Bool), s.Inv →
    let d := s.dev
    let at' := { d with clk := { d.clk with now := max d.clk.now ns } }
    s.leads (.boardAlert ns) { at' with bud := { d.bud with
      pin := true, hold := true, alerts := (ns :: d.bud.alerts.filter fun a => decide (ns < a + 10000000000)).take 15 } } [(6, 3, .device)] ∧
    s.makes (.boardAlert ns) (fun u => ∀ t c, d.live t c = true → (if c < 14 then 2 else 1) ≤ (u.cl t c).seq.st.depth) ∧
    s.gives (.brdAlertNHigh ns) { at' with bud := { d.bud with pin := false, highSince := ns } } ∧
    s.gives (.marginPPeriod high) { d with marg := { d.marg with
      phigh := min 2000 high, ploss := false, mtp := divHE ((((min 2000 high : Nat) : Int) - 1000) * 160) 1000 } } ∧
    s.gives .marginPLoss { d with marg := { d.marg with ploss := true, mtp := 0 } } ∧
    (tst d.flt.scrub 0 = false → n = 0 → bad = [] → s.gives (.scrubPass n bad late) d) ∧
    s.makes (.scrubPass n bad late) (fun u =>
      u.flt.passes = (if tst d.flt.scrub 0 then min 0xFFFF (d.flt.passes + 1) else d.flt.passes) ∧ u.flt.corr = (if n = 0 then d.flt.corr else min 0xFFFF (d.flt.corr + n)) ∧
      u.flt.uncorr = (if bad = [] then d.flt.uncorr else min 0xFFFF (d.flt.uncorr + bad.length)) ∧ (0 < n → u.pends 8 4 .device) ∧
      (late = true → tst d.flt.scrub 0 = true → u.pends 8 11 .device) ∧
      (∀ t i, .traceRecord t i ∈ bad → d.hasT t = true → i < (d.tl t).trace.recs.length → u.pends 8 8 .device ∧ i ∈ (u.tl t).trace.bad) ∧
      (∀ n o, .burst n o ∈ bad → (∃ b ∈ (d.ch n).slots, b.off = o ∧ b.data ≠ []) → u.pends 8 8 .device ∧ ∀ b ∈ (u.ch n).slots, b.off = o → b.bad = true) ∧
      (∀ q, .logRecord q ∈ bad → d.log.buf.any (·.seq == q) = true → u.pends 8 8 .device) ∧
      (∀ k, .coreRam k ∈ bad → d.hasCore k = true → u.pends 8 5 (coreScope k) ∧ if d.mayRun k then (u.core k).rcause = 5 else (u.core k).ramBad = true) ∧
      (∀ k, .coreRom k ∈ bad → d.hasCore k = true → u.pends 8 6 (coreScope k) ∧ (u.core k).dead = true) ∧
      (∀ t n, .fuseeSlot t n ∈ bad → d.hasT t = true → u.pends 3 16 (.tile t) ∧
        ∀ c, d.hasC t c = true → (d.cl t c).isolated = false → (d.cl t c).fus.slot = n → (d.cl t c).loop.handed = false → (u.cl t c).loop.handDue.isSome = true) ∧
      (∀ t n, .fuseeBlock t n ∈ bad → d.hasT t = true → u.pends 3 16 (.tile t) ∧ n / 4 * 4 ∈ (u.tl t).fus.badOffs) ∧
      (∀ t c, .loopState t c ∈ bad → d.hasC t c = true → u.pends 2 17 (.cluster t c) ∧ (u.cl t c).loop.entry = true) ∧
      (∀ t k, .fmax t k ∈ bad → d.hasT t = true → k < 10752 → u.pends 8 7 (.tile t) ∧ k ∈ (u.tl t).fmaxBad))

/-- R216 to R222, R226, Table 7-4: links that do not operate take nothing; training of a link and its end; a frame that fails its CRC, which counts toward training anew, or whose reserved fields are not 0; an EPOCH, a REPORT and an ALLOC at a member and at the acting master; a
collection's close: members, reserves; the loss of the heartbeat, after 300 ticks or three allocations, with HBLOSS and the cap from LOCAL or the last allocation.
What a disabled link keeps, when frames go, when a heartbeat can be lost and how many epochs are remembered are the model's readings (logs 27, 69, 103). -/
def Obligations.RidgeLink : Prop :=
  (∀ (s : State) (side : Side) (n : Nat) (f : List Word), s.Inv →
    let d := s.dev
    let l := d.lnk
    let set := fun (m : LinkDev) => { d with lnk := m }
    let width : Side → Nat := fun x => match x with | .W => l.wwidth | .E => l.ewidth
    let wide := fun (k : Nat) => match side with | .W => { l with wwidth := k, wtrain := false } | .E => { l with ewidth := k, etrain := false }
    let anew := match side with | .W => { l with wwidth := 0, wtrain := true, failsW := 0 } | .E => { l with ewidth := 0, etrain := true, failsE := 0 }
    let cut := match side with | .W => !l.etrain && l.ewidth == 0 | .E => !l.wtrain && l.wwidth == 0
    let dropped := set { l with crcerr := min 0xFFFF (l.crcerr + 1) }
    let failed := match side with
      | .W => if 16 ≤ l.failsW + 1 then { l with crcerr := min 0xFFFF (l.crcerr + 1), wwidth := 0, wtrain := true, failsW := 0 }
        else { l with crcerr := min 0xFFFF (l.crcerr + 1), failsW := l.failsW + 1 }
      | .E => if 16 ≤ l.failsE + 1 then { l with crcerr := min 0xFFFF (l.crcerr + 1), ewidth := 0, etrain := true, failsE := 0 }
        else { l with crcerr := min 0xFFFF (l.crcerr + 1), failsE := l.failsE + 1 }
    let rank := fun (g : List Word) => if fld (g.getD 0 0) 31 28 = 1 then 0 else if fld (g.getD 0 0) 31 28 = 3 then 1 else 2
    let put := fun (x : Side) (g : List Word) (q : List (List Word)) =>
      if tst l.ctrl 0 = true ∧ width x ≠ 0 then q.filter (fun h => rank h ≤ rank g) ++ g :: q.filter (fun h => rank g < rank h) else q
    let enum := (f.getD 1 0).toNat
    let pos := fld (f.getD 0 0) 27 22
    let heard := fun (u : Dev) => u.lnk.acting = false ∧ u.lnk.since = 0 ∧ u.lnk.ticks = 0 ∧ u.lnk.heard = true ∧ enum ∈ u.lnk.seenEpoch ∧
      (d.ridge.on = true → tst u.ridge.evpend 9 = true) ∧ (l.acting = true → u.pends 9 3 .device)
    let p := pos
    (tst l.ctrl 0 = false → ∀ i ∈ [Instr.linkTrained side n, .linkFrameCrcError side, .epoch side f, .report side f, .alloc side f], s.gives i d) ∧
    (tst l.ctrl 0 = true → n = 4 → s.gives (.linkTrained side n) (set (wide 4))) ∧
    (tst l.ctrl 0 = true → n = 1 ∨ n = 2 → s.leads (.linkTrained side n) (set (wide n)) [(9, 1, .device)]) ∧
    (tst l.ctrl 0 = true → n ≠ 1 → n ≠ 2 → n ≠ 4 → s.leads (.linkTrained side n) (set (if cut && !l.acting
      then { wide 0 with alone := true, aloneTick := true, lossEpochs := if l.alone then l.lossEpochs else 0, dueOld := l.allocDue.isSome }
      else wide 0)) [(9, 2, .device)]) ∧
    s.gives (.linkTrainRetry side) (set (if width side = 0 then anew else l)) ∧ s.gives (.linkBlockTimeout side) (set anew) ∧
    (tst l.ctrl 0 = true → s.leads (.linkFrameCrcError side) (set failed) [(9, 5, .device)]) ∧
    (∀ i ty, (i, ty) ∈ [(Instr.epoch side f, 1), (.report side f, 2), (.alloc side f, 3)] → frameOk ty f = false →
      (crcOk f = false → exec i s = exec (.linkFrameCrcError side) s) ∧ (crcOk f = true → tst l.ctrl 0 = true → s.leads i dropped [(9, 5, .device)])) ∧
    (frameOk 1 f = true → tst l.ctrl 0 = true →
      (l.acting = true → d.boot.straps.pos ≤ pos → s.gives (.epoch side f) d) ∧
      ((l.acting = true → pos < d.boot.straps.pos) → enum ∈ l.seenEpoch → s.makes (.epoch side f) fun u => heard u ∧ u.lnk.txW = l.txW ∧ u.lnk.txE = l.txE) ∧
      ((l.acting = true → pos < d.boot.straps.pos) → enum ∉ l.seenEpoch → s.makes (.epoch side f) fun u => heard u ∧ u.lnk.back = some side ∧
        u.lnk.txW = put .W (if side = .W then d.reportFrame enum else f) l.txW ∧
        u.lnk.txE = put .E (if side = .E then d.reportFrame enum else f) l.txE ∧ u.bud.unmetRep = false)) ∧
    (frameOk 2 f = true → tst l.ctrl 0 = true →
      (l.acting = true → l.collecting = true → f.getD 1 0 = BitVec.ofNat 32 l.enum → s.leads (.report side f)
        (set { l with members := l.members.modify p fun m => { m with count := m.count + 1, report := f } })
        (if p < l.members.length ∧ (l.members.getD p {}).count = 1 then [(9, 4, .device)] else [])) ∧
      (l.acting = true → l.collecting = false ∨ f.getD 1 0 ≠ BitVec.ofNat 32 l.enum → s.leads (.report side f)
        (set { l with late := min 0xFFFF (l.late + 1) }) [(9, 6, .device)]) ∧
      (l.acting = false → l.back = none → s.gives (.report side f) d) ∧
      (l.acting = false → l.back = some .W → s.gives (.report side f) (set { l with txW := put .W f l.txW })) ∧
      (l.acting = false → l.back = some .E → s.gives (.report side f) (set { l with txE := put .E f l.txE }))) ∧
    (frameOk 3 f = true → tst l.ctrl 0 = true →
      (l.acting = true → s.gives (.alloc side f) d) ∧
      (l.acting = false → s.makes (.alloc side f) fun u => (d.ridge.on = true → tst u.ridge.evpend 9 = true) ∧ enum ∈ u.lnk.seenAlloc ∧
        (enum ∈ l.seenAlloc → u.lnk.txW = l.txW ∧ u.lnk.txE = l.txE ∧ u.lnk.allocDue = l.allocDue ∧ u.lnk.missed = l.missed) ∧
        (enum ∉ l.seenAlloc → u.lnk.txW = (if side = .W then l.txW else put .W f l.txW) ∧
          u.lnk.txE = (if side = .E then l.txE else put .E f l.txE) ∧
          (∀ a, allocOf d.boot.straps.pos f = some a → u.lnk.allocDue = some a ∧ u.lnk.dueOld = false ∧ u.lnk.missed = 0) ∧
          (allocOf d.boot.straps.pos f = none → u.lnk.allocDue = l.allocDue ∧ u.lnk.missed = l.missed + 1))))) ∧
  (∀ (s : State), s.Inv →
    let d := s.dev
    let l := d.lnk
    (l.acting = false ∨ l.collecting = false → s.gives .collectionClose d) ∧
    (l.acting = true → l.collecting = true → s.makes .collectionClose fun u => u.lnk.collecting = false ∧ ∀ p, p < 64 → p < l.members.length →
      let m := l.members.getD p {}
      let n := u.lnk.members.getD p {}
      (m.count = 1 → n.member = true ∧ n.resv = false ∧ n.absent = 0 ∧ n.mlocal = fld (m.report.getD 5 0) 23 0 ∧
        (m.member = false → u.pends 9 7 .device)) ∧
      (m.count ≠ 1 → m.member = true → n.member = false ∧ n.resv = true ∧ n.absent = 1 ∧ u.pends 9 8 .device) ∧
      (m.count ≠ 1 → m.member = false → n.member = false ∧ n.resv = m.resv ∧ n.absent = if m.resv then m.absent + 1 else m.absent)) ∧
    (l.acting = false → l.heard = true → 300 ≤ l.ticks ∨ 3 ≤ l.missed → s.makes .heartbeatLoss fun u =>
      u.lnk.alone = true ∧ u.lnk.aloneTick = true ∧ u.lnk.lossEpochs = (if l.alone then l.lossEpochs else 0) ∧
      u.lnk.dueOld = l.allocDue.isSome ∧ u.lnk.heard = false ∧ u.lnk.missed = 0 ∧ u.pends 9 0 .device ∧
      u.bud.devcap = min d.bud.devlimE (if l.never then d.bud.localE else if l.alone = true ∧ 10 ≤ l.lossEpochs then d.bud.localE * 9 / 10 else l.alloc)) ∧
    (l.acting = true ∨ l.heard = false ∨ l.ticks < 300 ∧ l.missed < 3 → s.gives .heartbeatLoss d))

/-! ### Host port, commands, mirrors (chapter 11) -/

/-- R15, R17, R305 to R307, R309, R365, R401: the reads that change something: a late refusal leaves the queue, RC fields return to 0, the later words of a wide
value and the copy of a window are latched, a tile's counts are asked down; a mirror that arrives comes into force, and a copy ends after 100 µs.
Which wide values are latched, and a later word never latched, are the model's (logs 9, 21). -/
def Obligations.ReadsAndMirrors : Prop :=
  ∀ (s : State) (r : Reader) (t ns a : Nat), s.Inv →
    let d := s.dev
    let h := d.hp
    let x := d.mir t
    let at' := { d with clk := { d.clk with now := max d.clk.now ns } }
    let answer := fun (v : Word) (e : Dev) => match r with | .host => { e with hp := { e.hp with rdata := v, stat := 0 } } | _ => e
    let rc := fun (a : Nat) (e : Dev) => s.gives (.rcRead r a) (answer (devWord d a) e)
    s.gives (.hlrefRead r) (answer (match h.hlref with
      | [] => 0
      | y :: l => word [(y.seq % 256, 24), (b2n !l.isEmpty, 23), (y.tile, 16), (y.cluster, 8), (y.status, 0)]) { d with hp := { h with hlref := h.hlref.tail } }) ∧
    rc 0x1C { d with hp := { h with hlrlost := 0, rej := 0 } } ∧ rc 0x108 { d with boot := { d.boot with glides := 0, losses := 0 } } ∧
    rc 0x400C { d with flt := { d.flt with passes := 0 } } ∧ rc 0x4010 { d with flt := { d.flt with uncorr := 0, corr := 0 } } ∧
    rc 0x5024 { d with lnk := { d.lnk with late := 0, crcerr := 0 } } ∧ rc 0x5110 { d with pur := { d.pur with bypass := 0, retry := 0 } } ∧
    rc 0x6024 { d with seq := { d.seq with rej := 0, trans := 0 } } ∧ rc 0xA020 { d with log := { d.log with frzlost := 0, drop := 0 } } ∧
    rc 0xA024 { d with log := { d.log with rlcnt := 0 } } ∧
    (∀ n, 1 ≤ n → n ≤ 11 → rc (0x4008 + 0x100 * n) { d with flt := { d.flt with count := d.flt.count.set (n - 1) 0 } }) ∧
    (∀ n, n < 8 → rc (0x812C + 0x40 * n) { d with hp := if n = 0 then { d.hp with wcnt := none } else d.hp, dma := { d.dma with ch := d.dma.ch.modify n fun c => { c with notok := 0, done := 0 } } }) ∧
    (t < 96 → d.hasT t = true → t < d.mirrors.length → ∀ off, off < 0x1000 → ∀ p ∈ rcFields off,
      let y := match x.copy r with | some q => q.1 | none => x.cur
      let w := x.masked y.outer off (windowWord (snapView d t y) t off)
      s.makes (.rcRead r (0x10000 + 0x1000 * t + off)) fun u => (r = .host → u.hp.rdata = w) ∧ (fld w p.1 p.2 ≠ 0 → (u.mir t).taken y.outer off p.1 = true ∧
        ∃ f ∈ u.air, f.src = readerWriter r ∧ f.tile = t ∧ f.kind = .sub off p.1 p.2 (fld w p.1 p.2))) ∧
    (wideTail a ≠ [] → s.makes (.wideRead r a) fun u =>
      (r = .host → u.hp.rdata = devWord d a) ∧ ∀ b ∈ wideTail a, latched (u.hp.latch r) b = some (devWord d b)) ∧
    (∀ v, inTail a = true → a < 0x10000 → a % 4 = 0 → latched (h.latch r) a = some v → s.gives (.wideRead r a) (answer v d)) ∧
    (t < 96 → d.hasT t = true →
      (r = .ridge → s.gives (.shstampRead r t) d) ∧
      (r ≠ .ridge → let e := d.onMir t fun x => x.setCopy r (some (x.cur, d.clk.now))
        s.makes (.shstampRead r t) fun u => u = answer u.hp.rdata e ∧
          (t < d.mirrors.length → r = .host → u.hp.rdata = windowWord (shadowView e t) t 0xFF0))) ∧
    (x.flight = [] → s.gives (.shadowMirror t) d) ∧
    (∀ y l, x.flight = y :: l → s.makes (.shadowMirror t) fun u =>
      (u.mir t).cur = y ∧ (u.mir t).flight = l ∧ (u.mir t).stale = false ∧ (u.mir t).since = 0 ∧ (u.mir t).host = x.host ∧ (u.mir t).test = x.test ∧
      ((u.mir t).reads = x.reads.filter fun q => q.before y.outer || [x.host, x.test].any fun c => c.any fun p => q.before p.1.outer) ∧
      (∀ b, b ≠ t → u.mir b = d.mir b) ∧ (d.lostT t = false ∨ d.reach.contains t = false ∨ d.routes t = false → u.pur = d.pur) ∧
      (d.reach.contains t = true → d.routes t = true → u.lostT t = false)) ∧
    (∀ p, x.copy r = some p → p.2 + 100000 ≤ max d.clk.now ns → s.gives (.shadowLatchExpiry r t ns) (at'.onMir t fun x => x.setCopy r none)) ∧
    (∀ p, x.copy r = some p → max d.clk.now ns < p.2 + 100000 → s.gives (.shadowLatchExpiry r t ns) at') ∧
    (x.copy r = none → s.gives (.shadowLatchExpiry r t ns) at')

/-- R289, R304, R308, R365, R382, R396: a host write, which always completes: of a halted Ridge's RAM by bytes, an instruction RAM becoming dirty; refused with STATE
while the Ridge runs, ALIGN for part of a register, RANGE where nothing stands, BUSY while the port is closed. A write of a whole device register takes the value,
or ends with the status of its own check; a read-only register keeps its value. A write of a tile register is checked against the tile's mirror and sent. What that check takes in, and that
the write ends the port's latch of the window whatever its status, are the model's choices (logs 58, 93, 124). -/
def Obligations.HostWrites : Prop :=
  (∀ (s : State) (b be : Nat) (v : Word), (∃ u, exec (.hostWrite b be v) s = .next u) ∧
    exec (.hostWrite b be v) s = exec (.hostWrite (b % 2 ^ 20 / 4 * 4) be v) s) ∧
  ∀ (s : State) (a be : Nat) (v : Word), s.Inv → a % 4 = 0 → a < 2 ^ 20 →
    let d := s.dev
    let h := d.hp
    let b := d.bud
    let takes := fun (a st : Nat) (e : Dev) => (st = 0 → s.gives (.hostWrite a 15 v) (e.answered .host a 0)) ∧
      (st ≠ 0 → s.gives (.hostWrite a 15 v) (d.answered .host a st))
    let busy := if h.done then 0 else 4
    let rows : List (Nat × Nat × Dev) := [
      (0x64, 0, { d with boot := { d.boot with avsErr := d.boot.avsErr && !tst v 30 } }),
      (0x104, if 1000 < fld v 25 16 then 1 else 0, { d with boot := { d.boot with clkcfg := v &&& 0x03FF00FF } }),
      (0x1000, busy, { d with hp := { h with handle := v } }), (0x1004, busy, { d with hp := { h with arg0 := v } }),
      (0x1008, busy, { d with hp := { h with arg1 := v } }), (0x100C, busy, { d with hp := { h with exec := v &&& 0x0000FFFF, ready := true, done := false } }),
      (0x1024, if h.ren then 2 else 0, { d with hp := { h with rbasel := v &&& 0xFFFFFF00, rhead := 0, rtail := 0, rback := false, wback := none } }),
      (0x1028, if h.ren then 2 else 0, { d with hp := { h with rbaseh := v, rhead := 0, rtail := 0, rback := false, wback := none } }),
      (0x1038, if fld v 7 0 = 0 then 1 else 0, { d with hp := { h with stoperr := tst v 8, pto := fld v 7 0 } }), (0x1050, 2, d), (0x1054, 2, d),
      (0x2000, if tst v 0 = false ∧ 16 < d.tilesOn.length then 1 else 0, { d with bud := { b with ctrl := v &&& 3 } }),
      (0x2020, 0, { d with bud := { b with loss := v } }), (0x2028, 0, { d with bud := { b with ev := b.ev &&& ~~~v } }),
      (0x2030, if fld v 31 16 < 1 ∨ 32767 < fld v 31 16 then 1 else 0, { d with bud := { b with shift := v &&& 0xFFFF003F } }),
      (0x3004, if fld v 20 16 = 0 ∨ fld v 11 8 = 0 ∨ fld v 3 0 = 0 then 1 else 0, { d with thm := { d.thm with hys := v &&& 0x001F0F0F } }),
      (0x300C, if fld v 11 8 < 1 ∨ 8 < fld v 11 8 then 1 else 0, { d with thm := { d.thm with tcfg := v &&& 0x00000F1F } }),
      (0x3018, 0, { d with thm := { d.thm with ev := d.thm.ev &&& ~~~v } }),
      (0x4008, if fld v 5 0 < 1 ∨ 48 < fld v 5 0 then 1 else 0, { d with flt := { d.flt with fcfg := v &&& 0x0000013F } }),
      (0x400C, if fld v 15 8 < 1 ∨ 100 < fld v 15 8 then 1 else 0, { d with flt := { d.flt with scrub := v &&& 0x0000FF01 } }),
      (0x5008, 0, { d with lnk := { d.lnk with rack := fld v 23 0 } }), (0x5020, 0, { d with lnk := { d.lnk with ev := d.lnk.ev &&& ~~~v } }),
      (0x5100, 0, { d with pur := { d.pur with gev := d.pur.gev &&& ~~~v } }),
      (0x601C, if fld v 15 8 < 50 ∨ 100 < fld v 15 8 ∨ fld v 7 0 < 1 then 1 else 0, { d with seq := { d.seq with adm := v &&& 0x0000FFFF } }),
      (0x6020, 0, { d with seq := { d.seq with ev := d.seq.ev &&& ~~~v } }),
      (0x6800, if fld v 15 8 < 1 ∨ 32 < fld v 15 8 ∨ [0, 1, 2, 3].any (fun i => fld v (2 * i + 1) (2 * i) == 3) then 1 else 0,
        { d with marg := { d.marg with cfg := v &&& 0x0000FFFF } }),
      (0x8000, 0, { d with dma := { d.dma with nvwen := tst v 0 } }),
      (0xA004, if fld v 23 20 = 0 ∨ fld v 15 8 = 0 then 1 else 0, { d with log := { d.log with cfg := v &&& 0xFFF0FF01 } }),
      (0xA030, 0, { d with log := { d.log with tagl := v } }), (0xA034, 0, { d with log := { d.log with tagh := v } }),
      (0xA038, 0, { d with log := { d.log with ev := d.log.ev &&& ~~~v } }), (0xA040, 0, { d with log := { d.log with index := fld v 10 0 } })]
    let fixed := [0x00, 0x04, 0x10, 0x14, 0x18, 0x1C, 0x100, 0x108, 0x1010, 0x1030, 0x2004, 0x2014, 0x3010, 0x3014, 0x4000, 0x5004, 0x500C, 0x6004, 0x6024, 0xA008, 0xA010]
    (h.closed = false → (∀ r ∈ rows, takes r.1 r.2.1 r.2.2) ∧ (∀ a ∈ fixed, takes a 0 d) ∧
      (∀ n, 1 ≤ n → n ≤ 11 → takes (0x4004 + 0x100 * n) 0 { d with flt := { d.flt with ien := d.flt.ien.set (n - 1) (v &&& listed n) } } ∧
        ∀ m, m < 4 → takes (0x4010 + 0x100 * n + 4 * m) (if (List.range 8).any fun j => tst (listed n) (8 * m + j) && 5 < fld v (4 * j + 2) (4 * j) then 1 else 0)
          { d with flt := { d.flt with sev := d.flt.sev.modify (n - 1) fun l => l.set m (sevWord n m v) } }) ∧
      (∀ n, 1 ≤ n → n < 8 → let C := fun (f : Chan → Chan) => { d with dma := { d.dma with ch := d.dma.ch.modify n f } }
        takes (0x8108 + 0x40 * n) (if (d.ch n).en then 2 else 0) (C fun c => { c with rbl := v &&& 0xFFFFFF00, head := 0, tail := 0 }) ∧
        takes (0x8118 + 0x40 * n) 0 (C fun c => { c with aborted := c.aborted && !tst v 9 }))) ∧
    (a < 0x10000 → h.closed = false → devReg a = true → be % 16 = 15 →
      (devStatus .host d a v ≠ 0 → a ≠ 0xA000 → s.gives (.hostWrite a be v) (d.answered .host a (devStatus .host d a v))) ∧
      (devStatus .host d a v = 0 → s.leads (.hostWrite a be v) ((devPut a v d).answered .host a 0) [])) ∧
    (0x10000 ≤ a → a < 0x70000 →
      let t := (a - 0x10000) / 0x1000
      let off := a % 0x1000
      let e := endLatch .host a d
      let no := fun (st : Nat) => s.gives (.hostWrite a be v) (e.answered .host a st)
      let k := tileChecks (shadowView e t) 7 t off v
      let st := { k with absent := k.absent || boolAt d.pur.lost t }.first
      let f : Flying := { src := .host, tile := t, cluster := offCluster off, op := 0x1D, seq := 0, kind := .regw off v, no := e.issued }
      (h.closed = true → no 4) ∧
      (h.closed = false → (windowReg off = false → no 1) ∧
        (windowReg off = true → (be % 16 ≠ 15 → no 6) ∧
          (be % 16 = 15 → ((d.mir t).stale = true → no 3) ∧
            ((d.mir t).stale = false → (st ≠ 0 → no st) ∧
              (st = 0 → s.gives (.hostWrite a be v) ({ e with air := e.air ++ [f], issued := e.issued + 1 }.answered .host a 0))))))) ∧
    let no := fun (st : Nat) (e : Dev) => s.gives (.hostWrite a be v) (e.answered .host a st)
    (0x80000 ≤ a → a < 0xA0000 → d.hp.closed = false →
      (d.ridge.isHalted = true → ∃ u, exec (.hostWrite a be v) s = .next u ∧ u.pending = s.pending ∧
        (({ d with ridge := { d.ridge with dirty := d.ridge.dirty || (decide (a < 0x90000) && decide (be % 16 ≠ 0)) } }).answered .host a 0).Aside u.dev ∧
        (∀ i, i < 4 → Mem.read u.mem (a - 0x80000 + i) = if be.testBit i then v.extractLsb' (8 * i) 8 else Mem.read s.mem (a - 0x80000 + i)) ∧
        ∀ q, q < a - 0x80000 ∨ a - 0x80000 + 4 ≤ q → Mem.read u.mem q = Mem.read s.mem q) ∧
      (d.ridge.isHalted = false → no 2 d)) ∧
    (0x70000 ≤ a → a < 0x80000 ∨ 0xA0000 ≤ a → d.hp.closed = false → no 1 d) ∧
    (a < 0x10000 → d.hp.closed = false → (devReg a = false → no 1 d) ∧ (devReg a = true → be % 16 ≠ 15 → no 6 d)) ∧
    (a < 0x10000 ∨ 0x70000 ≤ a → d.hp.closed = true → no 4 d) ∧
    exec (.hostWrite 0x200C 15 v) s = exec (.devlimWrite .host v) s ∧ exec (.hostWrite 0x6000 15 1) s = exec (.start .host) s

/-- R289, R311 to R314, Table 11-3: the commands that complete at once, from the register block: device operations checked against the mirror and sent, QRY, WRITE,
READ, NOP, and an opcode that is not listed; ST tells SEQ and status, RES the result. A form with a field marked 0 that is not 0 is RANGE, as are a handle that
breaks Table 10-9, one of the other scope on a tile that answers, and a WRITE of the command block or above the tile windows.
What an unaligned address of WRITE or READ answers, and that a TRIG of every tile goes to those present, reached and not in reset, are the model's readings
(logs 79, 31). -/
def Obligations.HostCommands : Prop :=
  ∀ (s : State), s.Inv → s.dev.hp.ready = true → s.dev.hp.unit = none →
    let h := s.dev.hp
    let d := { s.dev with hp := { h with ready := false } }
    let w := h.exec
    let op := fld w 7 0
    let clean := fld w 30 24 = 0 ∧ fld w 23 16 = 0
    let x := h.arg0
    let done := fun (st : Nat) (res : Word) (e : Dev) =>
      { e with hp := { e.hp with unit := none, done := true, stSeq := fld w 15 8, stStatus := st, cres := res } }
    let tile := hTile h.handle
    let sent := fun (i : Instr) (code : Nat) (cl : Nat) (kind : OpKind) =>
      let f : Flying := { src := .host, tile := tile, cluster := cl, op := code, seq := fld w 15 8, kind := kind }
      let k := opChecks (shadowView d tile) f
      let st := { k with absent := k.absent || boolAt d.pur.lost tile }.first
      s.gives i (done st 0 (if st = 0 then { d with air := d.air ++ [{ f with no := d.issued }], issued := d.issued + 1 } else d))
    let cl := hCl h.handle
    let okC := clean ∧ handleOk .host false h.handle = true ∧ hT h.handle = false
    let okT := clean ∧ handleOk .host false h.handle = true ∧ hT h.handle = true
    let no := fun (i : Instr) (st : Nat) => s.gives i (done st 0 d)
    (op = 0x00 → clean → h.handle = 0 → x = 0 → h.arg1 = 0 → no .nop 0) ∧
    (op = 0x01 → okC → fld x 31 10 = 0 → fld h.arg1 31 6 = 0 → sent .cmdSetp 0x30 cl (.setp (fld x 9 0) (fld h.arg1 5 0))) ∧
    (op = 0x02 → okC → fld x 31 4 = 0 → h.arg1 = 0 →
      sent .cmdPstate 0x31 cl (.regw (0x80 * cl + 0x0C) (word [(fld x 3 3, 7), (fld x 2 0, 4)]))) ∧
    (op = 0x03 → okC → fld x 31 16 = 0 → h.arg1 = 0 → sent .cmdCapset 0x32 cl (.regw (0x80 * cl + 0x18) x)) ∧
    (op = 0x03 → okT → fld x 31 16 = 0 → h.arg1 = 0 → sent .cmdCapset 0x32 cl (.regw 0xC08 x)) ∧
    (op = 0x04 → clean → fld h.handle 31 23 = 0 → fld h.handle 15 14 = 0 → tile < 96 → h.arg1 = 0 → sent .cmdFmaxw 0x33 0 (.fmaxw (fld h.handle 13 0) x)) ∧
    (op = 0x05 → okC → fld x 31 8 = 0 → h.arg1 = 0 →
      sent .cmdTblsel 0x34 cl (.regw (0x80 * cl + 0x74) (word [(fld x 7 7, 9), (fld x 6 6, 8), (fld x 5 0, 0)]))) ∧
    (op = 0x06 → clean → h.arg1 = 0 → let q := opQry .host h.handle x s.mem d; s.gives .cmdQry (done q.1 (if q.1 = 0 then q.2 else 0) d)) ∧
    (op = 0x07 → okT → x = 0 → h.arg1 = 0 → sent .cmdTrig 0x39 cl .trig) ∧
    (op = 0x08 → okC → fld x 31 10 = 0 → h.arg1 = 0 → sent .cmdGrant 0x3A cl (.regw (0x80 * cl + 0x14) (word [(fld x 9 2, 8), (fld x 1 0, 0)]))) ∧
    (op = 0x10 → clean → h.handle = 0 → x.toNat < 0x10000 → x.toNat < 0x1000 ∨ 0x2000 ≤ x.toNat → s.makes .write fun u => u.hp.ready = false ∧
      u.hp.done = true ∧ u.hp.stSeq = fld w 15 8 ∧ u.hp.cres = 0 ∧ u.hp.wstatAddr = x.toNat ∧ u.hp.wstat = u.hp.stStatus ∧
      u.hp.stStatus = if h.closed then 4 else (devWrite .host x.toNat h.arg1 d).1) ∧
    (op = 0x11 → clean → h.handle = 0 → h.arg1 = 0 → x.toNat < 2 ^ 20 → x.toNat % 4 = 0 → s.makes .read fun u => u.hp.ready = false ∧ u.hp.done = true ∧
      u.hp.stSeq = fld w 15 8 ∧ u.hp.stStatus = 0 ∧ u.hp.cres = (readHost .host false s.mem x.toNat d).1) ∧
    (op = 0x10 → clean → h.handle = 0 → 0x70000 ≤ x.toNat ∨ 0x1000 ≤ x.toNat ∧ x.toNat < 0x2000 → no .write 1) ∧
    (op = 0x10 → clean → h.handle = 0 → 0x10000 ≤ x.toNat → x.toNat < 0x70000 →
      let t := (x.toNat - 0x10000) / 0x1000
      let off := x.toNat % 0x1000
      let e := endLatch .host x.toNat d
      let k := tileChecks (shadowView e t) 7 t off h.arg1
      let st := if h.closed then 4 else if windowReg off = false then 1 else if (d.mir t).stale then 3 else { k with absent := k.absent || boolAt d.pur.lost t }.first
      let f : Flying := { src := .host, tile := t, cluster := offCluster off, op := 0x1D, seq := fld w 15 8, kind := .regw off h.arg1, no := e.issued }
      s.gives .write (done st 0 ((if st = 0 then { e with air := e.air ++ [f], issued := e.issued + 1 } else e).answered .test x.toNat st))) ∧
    (opcodeListed op = false → no .unknownOpcode 9) ∧
    let marked := fld h.handle 31 24 ≠ 0 ∨ fld h.handle 15 5 ≠ 0 ∨ 18 ≤ cl ∨ hT h.handle = true ∧ cl ≠ 0
    let bad := marked ∨ 96 ≤ tile
    let answers := (shadowView d tile).d.answersT tile = true ∧ boolAt d.pur.lost tile = false
    let all := tile = 0x7F ∧ hT h.handle = true
    (∀ i code, (i, code) ∈ [(Instr.cmdSetp, 0x01), (.cmdPstate, 0x02), (.cmdCapset, 0x03), (.cmdTblsel, 0x05), (.cmdGrant, 0x08)] → op = code → bad → no i 1) ∧
    (op = 0x04 → fld h.handle 31 23 ≠ 0 ∨ fld h.handle 15 14 ≠ 0 ∨ 96 ≤ tile → no .cmdFmaxw 1) ∧
    (marked ∨ 96 ≤ tile ∧ ¬ all → (op = 0x06 → no .cmdQry 1) ∧ (op = 0x07 → no .cmdTrig 1)) ∧
    (op = 0x01 → fld x 31 10 ≠ 0 ∨ fld h.arg1 31 6 ≠ 0 → no .cmdSetp 1) ∧ (op = 0x02 → fld x 31 4 ≠ 0 → no .cmdPstate 1) ∧
    (op = 0x03 → fld x 31 16 ≠ 0 → no .cmdCapset 1) ∧ (op = 0x05 → fld x 31 8 ≠ 0 → no .cmdTblsel 1) ∧ (op = 0x08 → fld x 31 10 ≠ 0 → no .cmdGrant 1) ∧
    (∀ i code n, (i, code, n) ∈ [(Instr.cmdSetp, 0x01, 10), (.cmdPstate, 0x02, 4), (.cmdTblsel, 0x05, 8), (.cmdGrant, 0x08, 10)] → op = code → clean → ¬ bad →
      hT h.handle = true → fld x 31 n = 0 → (if code = 0x01 then fld h.arg1 31 6 = 0 else h.arg1 = 0) → (answers → no i 1) ∧ (¬ answers → no i 3)) ∧
    (op = 0x07 → clean → x = 0 → h.arg1 = 0 → ¬ bad → hT h.handle = false →
      let stands := answers ∧ (shadowView d tile).d.live tile cl = true
      (stands → no .cmdTrig 1) ∧ (¬ stands → no .cmdTrig 3)) ∧
    (op = 0x07 → clean → h.handle = 0x00FF0000 → x = 0 → h.arg1 = 0 → s.makes .cmdTrig fun u => u.hp.done = true ∧ u.hp.stStatus = 0 ∧
      ∀ t, d.hasT t = true → boolAt d.pur.lost t = false → ((shadowView d t).d.tl t).rst = false →
        ∃ f ∈ u.air, f.src = .host ∧ f.tile = t ∧ f.kind = .trig ∧ d.issued ≤ f.no) ∧
    (∀ i code, (i, code) ∈ [(Instr.nop, 0x00), (.cmdSetp, 0x01), (.cmdPstate, 0x02), (.cmdCapset, 0x03), (.cmdFmaxw, 0x04), (.cmdTblsel, 0x05), (.cmdQry, 0x06),
      (.cmdTrig, 0x07), (.cmdGrant, 0x08), (.write, 0x10), (.read, 0x11)] →
      (op ≠ code → s.gives i s.dev) ∧
      (op = code → ¬ clean ∨ code ∈ [0x00, 0x10, 0x11] ∧ h.handle ≠ 0 ∨ code ∈ [0x00, 0x07] ∧ x ≠ 0 ∨
        code ∈ [0x00, 0x02, 0x03, 0x04, 0x05, 0x06, 0x07, 0x08, 0x11] ∧ h.arg1 ≠ 0 → no i 1))

/-- R312, R315 to R317, R323: FENCE, WAITT and the program commands hold the unit; FENCE completes with the count of refusals, WAITT with TICK, a program command by
the Ridge's program or with BUSY at its time-out; a ring entry runs like the block's command and is written back, and one with OWN 0 halts the ring.
What FENCE counts, the comparison of WAITT, a ring's halt on channel 0, and the resident program's answer whatever the operand of PROGRAM_COMMAND_DONE are the model's
readings (logs 32, 80, 26, 83). -/
def Obligations.CommandUnit : Prop :=
  ∀ (s : State) (v : Word) (w0 w1 w2 w3 : Word), s.Inv →
    let h := s.dev.hp
    let d := s.dev
    let ws := [h.exec, h.handle, h.arg0, h.arg1]
    let op := fld h.exec 7 0
    let takes := fun (i : Instr) (e : HostDev) => s.gives i { d with hp := { e with ready := false } }
    let ended := fun (i : Instr) (e : HostDev) => s.gives i { d with hp := { e with unit := none, done := true } }
    let clean := fld h.exec 30 24 = 0 ∧ fld h.exec 23 16 = 0
    (h.ready = false ∨ h.unit.isSome = true → ∀ i ∈ [Instr.nop, .cmdSetp, .cmdPstate, .cmdCapset, .cmdFmaxw, .cmdTblsel, .cmdQry, .cmdTrig, .cmdGrant, .write,
      .read, .fence, .waitt, .ping, .userCommand, .unknownOpcode], s.gives i d) ∧
    (h.ready = true → h.unit = none →
      (op = 0x12 → clean → h.handle = 0 → h.arg0 = 0 → h.arg1 = 0 → takes .fence { h with unit := some (ws, false, .fence d.issued) }) ∧
      (op = 0x13 → clean → h.handle = 0 → h.arg1 = 0 → (h.arg0 - BitVec.ofNat 32 d.clk.tick).toInt ≤ 1000000 →
        takes .waitt { h with unit := some (ws, false, .waitt h.arg0) }) ∧
      ((op = 0x40 ∨ 0x41 ≤ op ∧ op ≤ 0x7F) → let i := if op = 0x40 then Instr.ping else .userCommand
        (d.ridge.isHalted = false → takes i { h with unit := some (ws, false, .program), pcmd := ws, held := true, heldAt := d.clk.now }) ∧
        (d.ridge.isHalted = true → takes i { h with done := true, stSeq := fld h.exec 15 8, stStatus := 2, cres := 0 }))) ∧
    (∀ k n, h.unit = some (k, false, .fence n) →
      (d.fenceOk n = true → ended .fenceComplete { h with fenced := 0, stSeq := fld (k.getD 0 0) 15 8, stStatus := 0, cres := BitVec.ofNat 32 h.fenced }) ∧
      (d.fenceOk n = false → s.gives .fenceComplete d)) ∧
    (∀ k n, h.unit = some (k, false, .waitt n) →
      (0 ≤ (BitVec.ofNat 32 d.clk.tick - n).toInt → ended .waittComplete
        { h with stSeq := fld (k.getD 0 0) 15 8, stStatus := 0, cres := BitVec.ofNat 32 d.clk.tick }) ∧
      ((BitVec.ofNat 32 d.clk.tick - n).toInt < 0 → s.gives .waittComplete d)) ∧
    (∀ k, h.unit = some (k, false, .program) → h.held = true →
      let ans := fun (st : Nat) (res : Word) => { h with held := false, heldAt := 0, stSeq := fld (k.getD 0 0) 15 8, stStatus := st, cres := res }
      (d.ridge.loaded = true → fld v 7 0 ≤ 9 → ended (.programCommandDone v) (ans (fld v 7 0) h.pres)) ∧
      (d.ridge.loaded = false → ended (.programCommandDone v) { ans (if fld (h.pcmd.getD 0 0) 7 0 = 0x40 then 0 else 9) 0 with pres := 0 }) ∧
      (h.heldAt + 1000000 * h.pto ≤ d.clk.now → ended .programCommandTimeout (ans 4 0)) ∧
      (d.clk.now < h.heldAt + 1000000 * h.pto → s.gives .programCommandTimeout d)) ∧
    (h.held = false → s.gives (.programCommandDone v) d ∧ s.gives .programCommandTimeout d) ∧
    (h.ren = false ∨ h.rhalted = true ∨ h.unit.isSome = true ∨ h.rhead = h.rtail → s.gives (.commandRingFetch w0 w1 w2 w3) d) ∧
    (h.ren = true → h.rhalted = false → h.unit = none → h.rhead ≠ h.rtail →
      (tst w0 31 = false → s.makes (.commandRingFetch w0 w1 w2 w3) fun u => u.hp.rhalted = true ∧ u.hp.rhead = h.rhead ∧ u.pends 10 1 .device ∧
        (0 < d.dma.ch.length → (u.ch 0).st = 4)) ∧
      (tst w0 31 = true → fld w0 7 0 = 0 ∨ opcodeListed (fld w0 7 0) = false →
        let st := if fld w0 7 0 = 0 then (if fld w0 30 24 = 0 ∧ fld w0 23 16 = 0 ∧ w1 = 0 ∧ w2 = 0 ∧ w3 = 0 then 0 else 1) else 9
        s.makes (.commandRingFetch w0 w1 w2 w3) fun u => u.hp.rhead = (h.rhead + 1) % 2 ^ h.log2n ∧ u.hp.unit = none ∧
          u.hp.wback = some (h.rhead, put (put w0 31 31 0) 23 16 st, w2) ∧ u.hp.rhalted = (h.stoperr && decide (st ≠ 0)) ∧
          (d.ridge.on = true → tst u.ridge.evpend 8 = true) ∧ u.dma.bus = (busWrite (h.rbasel.toNat + 2 ^ 32 * h.rbaseh.toNat + 16 * h.rhead)
            (wordBytes (put (put w0 31 31 0) 23 16 st)) d).dma.bus ∧
          (0 < d.dma.ch.length → (u.ch 0).lastst = st ∧ (u.ch 0).done = min 0xFFFF ((d.ch 0).done + 1) ∧
            u.hp.wcnt = some ((d.ch 0).done, (d.ch 0).notok) ∧ u.hp.wlast = (d.ch 0).lastst ∧
            (u.ch 0).notok = if st = 0 then (d.ch 0).notok else min 0xFFFF ((d.ch 0).notok + 1))) ∧
      (tst w0 31 = true → fld w0 7 0 = 0x40 → d.ridge.isHalted = false → s.gives (.commandRingFetch w0 w1 w2 w3) { d with hp := { h with
        unit := some ([w0, w1, w2, w3], true, .program), pcmd := [w0, w1, w2, w3], held := true, heldAt := d.clk.now } }))

/-! ### DMA engine, recorder (chapters 12, 13) -/

/-- R8, R319, R327 to R333, R335 to R339, R344: a channel's descriptor is taken up, or halts it or ends with a status, step by step as R330 lists; a source burst
enters a slot, is read again after an uncorrectable byte, or halts the channel; the oldest burst is written, byte by byte but for live slots and the map, waits
for a flush, is refused by a destination that has shut, or is read again in its slot; W6 and W0 go back and HEAD advances. The latest write burst of the system bus is kept (R367; log 109).
The fields that count as marked 0, the length of a burst, a destination that shuts and a ring in Ridge data RAM that wraps there are the model's readings
(logs 23, 24, 105, 75). -/
def Obligations.DmaTransfers : Prop :=
  ∀ (s : State) (n : Nat) (words : List Word) (data : List Byte) (bad : Bool), s.Inv → 1 ≤ n → n < 8 → n < s.dev.dma.ch.length →
    let d := s.dev
    let C := d.ch n
    let due := C.en = true ∧ C.st = 2 ∧ C.desc = none ∧ C.head ≠ C.tail
    let ws := if C.rloc then (List.range 8).map fun i => Mem.readW s.mem (ridgeD + (C.rbl.toNat + 32 * C.head + 4 * i) % 0x10000) else words
    let c := { C.clear with desc := some ws, st := 2 }
    -- R330 step by step, for the descriptor c
    let w := fun (i : Nat) => ws.getD i 0
    let D := fld (w 0) 15 12
    let S := fld (w 0) 11 8
    let t := fld (w 0) 6 0
    let len := fld (w 1) 23 0
    let src := (w 2).toNat + 2 ^ 32 * (w 3).toNat
    let dst := (w 4).toNat + 2 ^ 32 * (w 5).toNat
    let bcast := tst (w 0) 29
    let tiled := 4 ≤ D ∨ 4 ≤ S
    let nv := if fld d.boot.nvid 7 0 = 0 then 0 else 2 ^ fld d.boot.nvid 7 0
    let size := fun (sp : Nat) => if sp = 0 then 2 ^ 64 else if sp = 1 then nv else if sp = 4 then 0x8000 else if sp = 5 then 0x4000 else if sp = 7 then 43008
      else if sp = 8 then 4 * ((d.tl t).trace.recs.map fun r => r.length).foldl (· + ·) 0 else 0x10000
    let cond := fun (sp t : Nat) => (sp = 2 ∨ sp = 3 → d.ridge.isHalted = true) ∧ (sp = 4 → (d.tl t).core.isHalted = true) ∧
      (sp = 5 → (d.tl t).core.isHalted = true ∨ (d.tl t).core.on = true ∧ (d.tl t).core.loaded = false) ∧ (sp = 8 → (d.tl t).trace.st = 3)
    let pair := (S = 0 ∧ 1 ≤ D ∧ D ≤ 7) ∨ (D = 0 ∧ 1 ≤ S) ∨ (S = 1 ∧ 2 ≤ D ∧ D ≤ 7)
    let odd := tst (w 0) 28 = true ∨ fld (w 0) 27 16 ≠ 0 ∨ tst (w 0) 7 = true ∨ fld (w 1) 31 24 ≠ 0 ∨ w 6 ≠ 0 ∨ 9 ≤ S ∨ 9 ≤ D ∨
      (bcast = true ∧ (D < 4 ∨ 8 ≤ D)) ∨ (((D < 4 ∨ 8 ≤ D) ∧ S < 4 ∨ bcast = true) ∧ t ≠ 0)
    let reaches := d.answersT t = true ∧ boolAt d.pur.lost t = false
    let st := if src % 4 ≠ 0 ∨ dst % 4 ≠ 0 then 6
      else if len = 0 ∨ len % 4 ≠ 0 ∨ ¬ pair ∨ size S < src + len ∨ size D < dst + len then 1
      else if D = 1 ∧ nv - 0x400000 < dst + len then 5
      else if D = 1 ∧ d.dma.nvwen = false then 2
      else if tiled ∧ bcast = false ∧ ¬ reaches then 3
      else if tiled ∧ bcast = false ∧ (d.tl t).rst = true then 4
      else if bcast = false ∧ ¬ (cond S t ∧ cond D t) then 2 else 0
    let refusal := fun (t : Nat) => if boolAt d.pur.lost t then 3 else if (d.tl t).rst then 4 else if cond D t then 0 else 2
    -- R332, R339: where the next source burst is
    let wait := C.slots.find? fun b => b.data.isEmpty
    let o := match wait with | some b => b.off | none => C.rd
    let used := (d.dma.ch.map fun c => c.slots.length).foldl (· + ·) 0
    let k := min (C.len - o) (min (256 - (C.src + o) % 256) (256 - (C.dst + o) % 256))
    let l := if C.ssp = 0 then data else spaceRead s.mem d C.ssp C.tile (C.src + o) k
    let may := C.st = 2 ∧ C.desc.isSome = true ∧ C.wb = false ∧ (wait = none → C.rd < C.len ∧ C.slots.length < C.maxslot ∧ used < 64) ∧ l.length = k ∧
      (C.ssp = 1 → d.log.flush = none)
    (due → tst (w 0) 31 = false ∨ odd → s.makes (.descriptorFetch n words) fun u => (u.ch n).st = 4 ∧ (u.ch n).desc = none ∧ u.pends 10 1 .device) ∧
    (due → tst (w 0) 31 = true → ¬ odd →
      (st ≠ 0 → s.makes (.descriptorFetch n words) fun u => u.ch n = { c with status := st, wb := true }) ∧
      (st = 0 → bcast = false → s.makes (.descriptorFetch n words) fun u => u.ch n = c) ∧
      (st = 0 → bcast = true → s.makes (.descriptorFetch n words) fun u =>
        u.ch n = { c with refused := (d.tilesOn.map fun t => (t, refusal t)).filter fun p => p.2 != 0 })) ∧
    (¬ due → s.gives (.descriptorFetch n words) d) ∧
    (¬ may → s.gives (.sourceBurst n data bad) d) ∧
    (may → bad = false → let nv := fun (c : Chan) => if c.ssp = 1 then c.nv.take o ++ l ++ c.nv.drop (o + k) else c.nv
      (wait = none → s.gives (.sourceBurst n data bad) (d.onCh n fun c => { c with slots := c.slots ++ [{ off := o, data := l }], rd := o + k, nv := nv c })) ∧
      (wait ≠ none → s.gives (.sourceBurst n data bad) (d.onCh n fun c =>
        { c with slots := c.slots.map fun b => if b.off = o then { b with data := l } else b, nv := nv c }))) ∧
    (may → bad = true → o ∉ C.reread → s.leads (.sourceBurst n data bad) { d.onCh n fun c => { c with reread := o :: c.reread } with
      flt := { d.flt with uncorr := min 0xFFFF (d.flt.uncorr + 1) } } [(8, 8, .device)]) ∧
    (may → bad = true → o ∈ C.reread → s.makes (.sourceBurst n data bad) fun u => u.flt.uncorr = min 0xFFFF (d.flt.uncorr + 1) ∧
      (u.ch n).st = 4 ∧ (u.ch n).phase = 1 ∧ (u.ch n).slots = [] ∧ u.pends 8 8 .device ∧ u.pends 10 0 .device) ∧
    (C.slots = [] ∨ C.wb = true ∨ C.st ≠ 2 ∧ C.st ≠ 3 → s.gives (.destinationBurst n) d) ∧
    (∀ b r, C.slots = b :: r → C.desc.isSome = true → C.wb = false → C.st = 2 ∨ C.st = 3 →
      let shut := fun (t : Nat) => if C.dsp = 1 then d.dma.nvwen = false else 2 ≤ C.dsp ∧ C.dsp ≤ 5 ∧ spaceCond d C.dsp t = false
      let into := if C.bcast then d.tilesOn.filter fun t => !C.refused.any fun p => p.1 == t else [C.tile]
      let now := into.filter fun t => C.bcast && decide (shut t)
      let out := into.filter fun t => !(C.bcast && decide (shut t))
      let C' := { C with refused := C.refused ++ now.map fun t => (t, 2) }
      let held := C.dsp = 1 ∧ d.log.flush.isSome = true
      (C.bcast = false → shut C.tile → s.gives (.destinationBurst n) (d.onCh n fun c => { c with status := 2, wb := true, slots := [] })) ∧
      (C.bcast = false → ¬ shut C.tile → held → s.gives (.destinationBurst n) d) ∧
      (C.bcast = true ∨ ¬ shut C.tile → ¬ held →
        (b.bad = true → C.st = 3 → s.gives (.destinationBurst n) (d.onCh n fun _ => C')) ∧
        (b.bad = true → C.st = 2 → b.off ∉ C.reread → s.gives (.destinationBurst n)
          (d.onCh n fun _ => { C' with slots := { b with data := [], bad := false } :: r, reread := b.off :: C.reread })) ∧
        (b.bad = false → b.data = [] → s.gives (.destinationBurst n) (d.onCh n fun _ => C')) ∧
        (b.bad = true → C.st = 2 → b.off ∈ C.reread → s.makes (.destinationBurst n) fun u =>
          (u.ch n).st = 4 ∧ (u.ch n).phase = 1 ∧ (u.ch n).slots = [] ∧ u.pends 10 0 .device) ∧
        (b.bad = false → b.data ≠ [] → C.dsp ≤ 7 → (C.bcast = true ∨ 4 ≤ C.dsp → C.dst + b.off + b.data.length ≤ spaceSize d C.dsp C.tile) →
          let keeps := fun (t o : Nat) => C.dsp = 6 ∧ (offLive s.mem (d.tl t) t o = true ∨ offMap o = true)
          ∃ u, exec (.destinationBurst n) s = .next u ∧ u.pending = s.pending ∧
            u.dev.ch n = { C' with slots := r, wr := b.off + b.data.length, wb := decide (b.off + b.data.length = C.len)
                                   dropped := C.dropped || out.any fun t => (List.range b.data.length).any fun i => decide (keeps t (C.dst + b.off + i))
                                   reread := C.reread.filter (· != b.off) } ∧
            (C.dsp = 0 → C.bcast = false → u.dev.dma.bus = (busWrite (C.dst + b.off) b.data d).dma.bus) ∧ (C.dsp ≠ 0 → u.dev.dma.bus = d.dma.bus) ∧
            (1 ≤ C.dsp → C.bcast = false ∨ 4 ≤ C.dsp → ∀ t ∈ out, ∀ i, i < b.data.length →
              let a := spaceBase C.dsp t + (C.dst + b.off) + i
              Mem.read u.mem a = if keeps t (C.dst + b.off + i) ∨ C.dsp = 6 ∧ 0xF440 ≤ C.dst + b.off + i then Mem.read s.mem a else b.data.getD i 0) ∧
            ∀ q, C.dsp = 0 ∨ (∀ t ∈ out, q < spaceBase C.dsp t + (C.dst + b.off) ∨ spaceBase C.dsp t + (C.dst + b.off) + b.data.length ≤ q) →
              Mem.read u.mem q = Mem.read s.mem q))) ∧
    (C.desc = none ∨ C.wb = false ∧ C.abt = false ∨ C.st = 4 → s.gives (.descriptorWriteback n) d) ∧
    (C.desc.isSome = true → C.wb = true ∨ C.abt = true → C.st ≠ 4 → ∃ u, exec (.descriptorWriteback n) s = .next u ∧ u.pending = s.pending ∧
      let st := if C.status ≠ 0 then C.status else if C.refused = [] then (if C.dropped then 2 else 0) else lowestRefusal C.refused
      let w0 := put (put (put (C.w 0) 31 31 0) 28 28 (b2n C.abt)) 23 16 st
      let w6 := word [(C.refused.length, 24), (C.len - C.wr, 0)]
      let x := u.dev.ch n
      let e := ridgeD + (C.rbl.toNat + 32 * C.head) % 0x10000
      x.desc = none ∧ x.head = (C.head + 1) % 2 ^ fld C.cfg 11 8 ∧ x.lastst = st ∧ x.back = some (C.head, w6, w0) ∧
      x.done = min 0xFFFF (C.done + 1) ∧ x.notok = (if st = 0 then C.notok else min 0xFFFF (C.notok + 1)) ∧
      x.resid = (if C.abt then C.len - C.wr else C.resid) ∧ x.en = (C.en && !tst w0 30 && !(tst C.cfg 24 && decide (st ≠ 0))) ∧
      x.st = (if x.en = false then 0 else if x.head = C.tail then 1 else 2) ∧ (d.ridge.on = true → tst u.dev.ridge.evpend 8 = true) ∧
      u.dev.dma.bus = (if C.rloc then d.dma.bus else (busWrite (C.entry C.head) (wordBytes w0) d).dma.bus) ∧
      u.dev.dma.bref = (if C.bcast then C.refused.map Prod.fst else d.dma.bref) ∧
      u.dev.boot.nvcrc = (if C.ssp = 1 then BitVec.ofNat 32 (crc32 C.nv) else d.boot.nvcrc) ∧ (C.rloc = false → u.mem = s.mem) ∧
      (C.rloc = true → C.rbl.toNat % 32 = 0 → Mem.readW u.mem e = w0 ∧ Mem.readW u.mem (e + 24) = w6 ∧
        ∀ q, ¬ (e ≤ q ∧ q < e + 4) → ¬ (e + 24 ≤ q ∧ q < e + 28) → Mem.read u.mem q = Mem.read s.mem q))

/-- R333, R337, R338, R341, R375: an error response on the system bus halts its channel with BUS, or the command ring, in the phase that failed; a non-volatile memory
that does not answer halts its channel with the NVTO mark; a failed write-back of the ring takes its counts back; ABORTED goes back to what it was where the burst that an abort waits for fails; a fetch brings eight
words, or ERR. That a fetch does not end during a flush, and how the ring's halt shows on channel 0, are the model's readings (logs 110, 26). -/
def Obligations.DmaErrors : Prop :=
  ∀ (s : State) (n addr : Nat) (ok : Bool), s.Inv →
    let d := s.dev
    let C := d.ch n
    let halts := fun (i : Instr) (keeps : Bool) (phase dir sp a nvto : Nat) => s.makes i fun u => (u.ch n).st = 4 ∧ (u.ch n).phase = phase ∧
      (u.ch n).aborted = (C.aborted && (keeps || !C.abt || C.abtWas)) ∧
      (u.ch n).errl = BitVec.ofNat 32 a ∧ (u.ch n).errh = BitVec.ofNat 32 (a / 2 ^ 32) ∧ (u.ch n).slots = [] ∧
      (u.ch n).erri = word [(nvto, 9), (0, 8), (sp, 4), (phase, 1), (dir, 0)] ∧ u.pends 10 0 .device
    let live := C.st = 2 ∨ C.st = 3 ∨ C.st = 0 ∧ C.desc.isSome = true
    let base := d.hp.rbasel.toNat + 2 ^ 32 * d.hp.rbaseh.toNat
    let ringWb := d.hp.wback.any fun w => decide (base + 16 * w.1 ≤ addr ∧ addr < base + 16 * w.1 + 16)
    let back := C.wb = true ∨ C.abt = true ∧ C.rloc = false ∧ C.entry C.head ≤ addr ∧ addr < C.entry C.head + 32
    (n = 0 → d.hp.ren = true ∨ ringWb = true → 0 < d.dma.ch.length → s.makes (.busError n addr) fun u => u.hp.rhalted = true ∧ (u.ch 0).st = 4 ∧
      u.pends 10 0 .device ∧ (u.ch 0).phase = (if ringWb then 3 else 0) ∧ u.hp.rback = (ringWb || d.hp.rback) ∧
      (ringWb = false ∨ d.hp.rback = true → u.hp.rhead = d.hp.rhead) ∧ (ringWb = true → d.hp.rback = false → (∀ w, d.hp.wback = some w → u.hp.rhead = w.1) ∧
        (u.ch 0).lastst = d.hp.wlast ∧ ((u.ch 0).done, (u.ch 0).notok) = d.hp.wcnt.getD ((d.ch 0).done, (d.ch 0).notok)) ∧
      (ringWb = false ∨ d.hp.rback = true → (u.ch 0).lastst = (d.ch 0).lastst ∧ (u.ch 0).done = (d.ch 0).done ∧ (u.ch 0).notok = (d.ch 0).notok)) ∧
    (n = 0 → d.hp.ren = false → ringWb = false → s.gives (.busError n addr) d) ∧
    (1 ≤ n → ¬ live → s.gives (.busError n addr) d) ∧
    (1 ≤ n → n < d.dma.ch.length → live →
      (C.desc = none → ¬ back → C.rloc = false → halts (.busError n addr) false 0 0 0 addr 0) ∧
      (C.desc.isSome = true → back → C.rloc = false → halts (.busError n addr) true 3 1 0 addr 0) ∧
      (C.desc.isSome = true → ¬ back → C.ssp = 0 → halts (.busError n addr) false 1 0 0 addr 0) ∧
      (C.desc.isSome = true → ¬ back → C.ssp ≠ 0 → C.dsp = 0 → halts (.busError n addr) false 2 1 0 addr 0) ∧
      (C.abt = false → C.desc.isSome = true → C.wb = true → C.rloc = true → s.gives (.busError n addr) d) ∧
      (C.abt = false → C.desc.isSome = true → C.wb = false → C.ssp ≠ 0 → C.dsp ≠ 0 → s.gives (.busError n addr) d)) ∧
    let waits := C.st = 2 ∨ C.st = 3
    (n < d.dma.ch.length → waits → C.desc.isSome = true → C.wb = false →
      (C.ssp = 1 → halts (.nvTimeout n) false 1 0 1 (C.src + C.rd) 1) ∧ (C.ssp ≠ 1 → C.dsp = 1 → halts (.nvTimeout n) false 2 1 1 (C.dst + C.wr) 1)) ∧
    (¬ waits ∨ C.desc = none ∨ C.wb = true → s.gives (.nvTimeout n) d) ∧
    (d.boot.nvdone = false → d.log.flush = none → s.gives (.nvFetchDone ok) { d with boot := { d.boot with
      nvdone := true, nverr := !ok, nvdata := if ok then (List.range 8).map fun k => Mem.readW s.mem (nvBase + d.boot.nvaddr.toNat + 4 * k) else d.boot.nvdata } }) ∧
    (d.boot.nvdone = true ∨ d.log.flush.isSome = true → s.gives (.nvFetchDone ok) d)

/-- R347, R350 to R353, R356, R358, R359, R361: a page of a flush is written in order, or fails with LOGNV; the whole second tries again; the heartbeat's record; a
freeze ends after 10 s, a nonce after 60 s; an erase ends with its CLEAR record in slot 0, and the clear with the flush of the records that were pending; a power
failure is recorded and flushed, with event 13.
What a freeze and a clear do to a flush is the model's reading (logs 12, 70 to 72). -/
def Obligations.Recorder : Prop :=
  ∀ (s : State), s.Inv →
    let d := s.dev
    let l := d.log
    let log := fun (m : LogDev) => { d with log := m }
    let since := fun (a : Nat) => (l.optime + 2 ^ 40 - a) % 2 ^ 40
    let rest := fun (m : LogDev) => m.buf.filter (·.pend)
    let room := l.frzFull = false ∧ l.pendFull = false
    let newest := fun (m : LogDev) => m.buf.getLast?
    (l.flush = none → ∀ ok, s.gives (.flushPage ok) d) ∧
    (l.flush.isSome = true → s.leads (.flushPage false) (log { l with nvok := false }) [(11, 1, .device)]) ∧
    (∀ left, l.flush = some left →
      let n := min (min left (8 - l.wptr % 8)) (131071 - l.wptr)
      n ≤ l.buf.countP (·.pend) → l.wptr + n < 131071 → ∃ u, exec (.flushPage true) s = .next u ∧ u.pending = s.pending ∧
        u.dev.log.nvok = true ∧ u.dev.log.wptr = l.wptr + n ∧
        u.dev.log.clearing = (l.clearing && !(l.erased && decide (left ≤ n))) ∧ u.dev.log.full = (l.full && !(l.erased && decide (left ≤ n))) ∧
        (l.lostDue = false → l.again = false → u.dev.log.flush = (if left ≤ n then none else some (left - n)) ∧ rest u.dev.log = (rest l).drop n) ∧
        (∀ i r, i < n → (rest l)[i]? = some r → Mem.readL u.mem (d.slot (l.wptr + i)) 32 = recBytes r) ∧
        ∀ a, a < d.slot l.wptr ∨ d.slot (l.wptr + n) ≤ a → Mem.read u.mem a = Mem.read s.mem a) ∧
    (∀ left, l.flush = some left → 131071 - l.wptr ≤ min left (8 - l.wptr % 8) → l.wptr < 131071 → ∃ u, exec (.flushPage true) s = .next u ∧
      u.pending = s.pending ∧ u.dev.log.full = true ∧ u.dev.log.wptr = 131071 ∧ u.dev.pends 11 0 .device) ∧
    let usable := 24 ≤ fld d.boot.nvid 7 0
    (l.optime % 1000 ≠ 0 ∨ ¬ usable → s.gives .optimeSecond d) ∧
    (l.optime % 1000 = 0 → l.frozen = false → l.erased = false → l.clearing = true ∨ l.full = true → s.gives .optimeSecond d) ∧
    (l.optime % 1000 = 0 → usable → l.frozen = false → l.erased = true ∨ l.clearing = false ∧ l.full = false → (∀ b ∈ l.buckets, b.supp = 0) →
      s.gives .optimeSecond (log (if l.flush.isSome then { l with again := true }
        else { l with flush := if l.buf.countP (·.pend) = 0 then none else some (l.buf.countP (·.pend)), again := false }))) ∧
    (l.optime % 1000 = 0 → usable → l.frozen = true → s.gives .optimeSecond (log { l with frzHeld := true })) ∧
    (fld l.cfg 31 24 = 0 ∨ l.hbeat < 3600000 * fld l.cfg 31 24 → s.gives .heartbeat d) ∧
    (fld l.cfg 31 24 ≠ 0 → 3600000 * fld l.cfg 31 24 ≤ l.hbeat → room → l.pf = false ∧ l.buf.countP (·.pend) < 63 ∨ (∀ b ∈ l.buckets, b.supp = 0) → s.makes .heartbeat fun u => u.log.hbeat = 0 ∧
      newest u.log = some { code := 6, pcc := l.pcc, optime := l.optime, seq := l.seq }) ∧
    (l.frozen = false ∨ since l.frzAt < 10000 → s.gives .freezeExpiry d) ∧
    (l.frozen = true → 10000 ≤ since l.frzAt → s.makes .freezeExpiry fun u => u.log.frozen = false) ∧
    (l.nonce.isSome = true → 60000 ≤ since (l.nonceAt.getD 0) → s.gives .nonceExpiry (log { l with nonce := none })) ∧
    (l.nonce = none ∨ since (l.nonceAt.getD 0) < 60000 → s.gives .nonceExpiry d) ∧
    (l.clearing = false ∨ l.erased = true → s.gives .clearEraseDone d) ∧
    (l.clearing = true → l.erased = false → 22 ≤ fld d.boot.nvid 7 0 → ∃ u, exec .clearEraseDone s = .next u ∧ u.pending = s.pending ∧ u.dev.log.wptr = 1 ∧
      (l.buf.countP (·.pend) = 0 → (∀ b ∈ l.buckets, b.supp = 0) → u.dev.log.full = false ∧ u.dev.log.clearing = false ∧ u.dev.log.erased = false) ∧
      (0 < l.buf.countP (·.pend) → u.dev.log.full = l.full ∧ u.dev.log.clearing = true ∧ u.dev.log.erased = true ∧ u.dev.log.flush.isSome = true) ∧
      Mem.readL u.mem (d.slot 0) 32 = recBytes { code := 2, d0 := l.clearD0, pcc := l.pcc, optime := l.optime, seq := l.seq } ∧
      (∀ a, d.slot 1 ≤ a → a < d.slot 131072 → Mem.read u.mem a = 0xFF) ∧
      ∀ a, a < d.slot 0 ∨ d.slot 131072 ≤ a → Mem.read u.mem a = Mem.read s.mem a) ∧
    s.makes .powerFail (fun u => u.log.frozen = false ∧ u.log.pf = true ∧ (d.ridge.on = true → tst u.ridge.evpend 13 = true) ∧
      (l.frozen = false → l.pendFull = false → (∀ b ∈ l.buckets, b.supp = 0) → newest u.log =
        some { code := 5, d0 := BitVec.ofNat 32 (l.buf.countP (·.pend)), pcc := l.pcc, optime := l.optime, seq := l.seq }) ∧
      (l.nvok = true → l.pendFull = false → l.erased = true ∨ l.clearing = false ∧ l.full = false → u.log.flush.isSome = true))

/-! ### Resets, boot, clocks, test port, mesh (chapters 14, 15) -/

/-- R301, R320, R342, R370, R374, R376, R378, R381 to R384: cold reset leaves every part as reset leaves it and the non-volatile memory as it was; the boot's stages; warm
reset stops cores, channels and ring, and the fast path scrubs the cores' memories and starts the cores anew, one whose RAM is bad on its resident program; a
tile's reset and its end; the key's words.
When the record of a warm reset is taken, what a torn erase leaves and what the key's words start anew are the model's (logs 61, 72, 89), as are a failing cell's
source LATCH, NVID at release, what RAM holds after cold reset, the order of the image's errors, how long KEY_ACK stands and the cause of a start on the resident
program (logs 37, 87, 1, 36, 120, 121). -/
def Obligations.BootAndResets : Prop :=
  ∀ (s : State) (st : Straps) (nv : NvFound) (ref cons : Bool) (failed : List (Nat × Nat × Nat)) (t n : Nat) (bad : List EccPlace) (w : Word), s.Inv →
    let d := s.dev
    let b := d.boot
    let boot := fun (e : BootDev) => { d with boot := e }
    let soft := fun (y : Core) => ({ y with evpend := 0 } : Core)
    let starts := fun (u : Dev) (k : CoreId) (cause : Nat) (x : Core) =>
      if x.ramBad then soft (u.core k) = x.restarted 5 d.clk.now
      else if d.selLoaded k = true then (u.core k).checking = some cause ∧ (u.core k).on = false else soft (u.core k) = x.restarted cause d.clk.now
    let awake := fun (k : CoreId) => d.hasCore k = true ∧ ∀ t, k = .rafter t → (d.tl t).rst = false
    let lost := fun (u : Dev) => ∀ t c r, (t, c, r) ∈ failed → d.hasC t c = true → r < 8 → r < (d.cl t c).cells.length →
      ((u.cl t c).cell r).mode = .failed ∧ u.pends 1 4 (.cluster t c)
    let up := { Dev.resetOf d.build st with
      boot := { (Dev.resetOf d.build st).boot with
        porst := false, booting := true, avsBusy := true
        nvid := word [(nv.mfr % 2 ^ 8, 24), (nv.dev % 2 ^ 16, 8), (if nv.answers && 24 ≤ nv.dens && nv.dens ≤ 28 then nv.dens else 0, 0)] }
      lnk := { (Dev.resetOf d.build st).lnk with acting := st.mstr } }
    (∃ u, exec .coldReset s = .next u ∧ u.pending = s.pending ∧ u.dev = Dev.resetOf d.build {} ∧
      (∀ a, Mem.read u.mem a = if nvBase ≤ a ∧ ¬ (d.log.clearing = true ∧ d.log.erased = false ∧ d.slot 0 + 4 ≤ a ∧ a < d.slot 131072) then Mem.read s.mem a
        else Mem.dflt a) ∧ u.dev.boot.porst = true ∧ u.dev.hp.closed = true ∧
      u.dev.ridge.on = false ∧ u.dev.flt.pend = [] ∧ u.dev.flt.safe = false ∧ u.dev.seq.phase = 0 ∧ u.dev.clk = {} ∧
      ∀ t c, (u.dev.tl t).core.on = false ∧ (u.dev.cl t c).loop.outOn = false ∧ (u.dev.cl t c).seq.ref = 0 ∧ (u.dev.cl t c).seq.st = .D) ∧
    (b.porst = false → s.gives (.coldBoot st nv ref) d) ∧
    (b.porst = true → ref = true → s.leads (.coldBoot st nv ref) up []) ∧
    (b.porst = true → ref = false → s.leads (.coldBoot st nv ref)
      { up with boot := { up.boot with clkState := 3, fofs := Config.oscOffset, losses := 1 } } [(8, 9, .device)]) ∧
    (b.booting = false → b.ir ≠ 0x12 ∨ d.seq.phase ≠ 0 → s.gives (.bootStageComplete failed) d) ∧
    (b.booting = false → b.ir = 0x12 → d.seq.phase = 0 → s.makes (.bootStageComplete failed) lost) ∧
    (b.booting = true →
      (b.stage = 0 → s.gives (.bootStageComplete failed) (boot { b with stage := 1 })) ∧
      (b.stage = 1 → s.makes (.bootStageComplete failed) fun u => u.boot.stage = 2 ∧ (24 ≤ fld b.nvid 7 0 → u.log.nvok = true)) ∧
      (b.stage = 2 → s.makes (.bootStageComplete failed) fun u => u.boot.stage = 3 ∧ u.boot.started = true ∧ u.hp.closed = false ∧
        (imgHeadErr s.mem d ≠ 0 → u.boot.imgerr = imgHeadErr s.mem d ∧ u.boot.nvimg = b.nvimg) ∧
        ∀ k, u.hasCore k = true → (∀ t, k = .rafter t → (u.tl t).rst = false) →
          (u.core k).on = true ∧ (u.core k).rcause = 0 ∧ (u.core k).pc = 0x00010000 ∧ (u.core k).loaded = false) ∧
      (b.stage = 3 → s.makes (.bootStageComplete failed) fun u => u.boot.stage = 4 ∧ lost u ∧ ∀ t, d.hasT t = true → (u.tl t).rem.bist = 1) ∧
      (4 ≤ b.stage → s.gives (.bootStageComplete failed) (boot { b with booting := false, stage := b.stage + 1 }))) ∧
    (b.porst = true ∨ b.started = false → s.gives .warmReset d) ∧
    (b.porst = false → b.started = true → s.makes .warmReset fun u => u.boot.wrst = true ∧ u.boot.fast = false ∧ u.hp.closed = true ∧ u.hp.ren = false ∧
      (∀ k, d.hasCore k = true → (u.core k).on = false ∧ (u.core k).loaded = false ∧ (u.core k).inq = [] ∧ (u.core k).outq = [] ∧ (u.core k).lref = []) ∧
      ∀ n, 1 ≤ n → n < 8 → n < d.dma.ch.length → (u.ch n).en = false ∧ ((d.ch n).st ≠ 4 → (u.ch n).st = 0 ∧ (u.ch n).desc = none)) ∧
    (b.wrst = false → s.gives (.warmFastPath n bad) d) ∧
    (b.wrst = true → s.makes (.warmFastPath n bad) fun u => u.boot.wrst = false ∧ u.boot.fast = true ∧ u.boot.shownStage = 6 ∧ u.boot.stage = b.stage ∧
      u.boot.startMs = d.clk.ms ∧ u.flt.corr = (if n = 0 then d.flt.corr else min 0xFFFF (d.flt.corr + n)) ∧ (0 < n → u.pends 8 4 .device) ∧
      ∀ k, d.hasCore k = true → (.coreRam k ∈ bad → u.pends 8 5 (coreScope k) ∧ (u.core k).ramBad = true) ∧
        (.coreRom k ∈ bad → u.pends 8 6 (coreScope k) ∧ (u.core k).dead = true)) ∧
    (b.fast = false → s.gives .fastPathDone d) ∧
    (b.fast = true → s.makes .fastPathDone fun u => u.boot.fast = false ∧ u.boot.shownStage = b.stage ∧ u.boot.stage = b.stage ∧ u.boot.warm = true ∧ u.boot.bootms = d.clk.ms - b.startMs ∧
      u.hp.closed = false ∧ ∀ k, awake k → starts u k 1 { d.core k with halted := false }) ∧
    (b.porst = true ∨ d.hasT t = false → s.gives (.tileReset t) d) ∧
    (b.porst = false → d.hasT t = true → s.makes (.tileReset t) fun u => (u.tl t).rst = true ∧
      soft (u.tl t).core = { ({ (d.tl t).core with halted := false } : Core).restarted (d.tl t).core.rcause d.clk.now with on := false, ramBad := (d.tl t).core.ramBad } ∧
      ∀ n, n < 8 → n < d.dma.ch.length → (d.ch n).desc.isSome = true → (d.ch n).wb = false → (d.ch n).st ≠ 4 → 4 ≤ (d.ch n).dsp →
        (d.ch n).bcast = false → (d.ch n).tile = t → (u.ch n).status = 4 ∧ (u.ch n).wb = true) ∧
    (d.hasT t = false ∨ (d.tl t).rst = false → s.gives (.tileResetEnd t) d) ∧
    (d.hasT t = true → (d.tl t).rst = true →
      (b.started = false ∨ b.wrst = true ∨ b.fast = true → s.gives (.tileResetEnd t) (d.onT t fun x => { x with rst := false })) ∧
      (b.started = true → b.wrst = false → b.fast = false → s.makes (.tileResetEnd t) fun u => (u.tl t).rst = false ∧
        starts u (.rafter t) 2 (d.tl t).core)) ∧
    (b.keyv = true → s.gives (.keyWord w cons) (boot { b with keyAck := false })) ∧
    (b.keyv = false → let l := if cons then b.keyw ++ [w] else [w]
      s.gives (.keyWord w cons) (boot { b with keyw := l, keyv := l.length == 8, keyAck := l.length == 8 }))

/-- R371, R377, R379, R400: the board stage's link; the reference lost, held over, glided from and returned; the test port's instructions, which stop and release the
cores and the loops, test, load or drive the boundary register, or access a register, a code that is not listed being BYPASS; a flit that fails, whose port is
bypassed at its fifth failure, and retrains.
Which flit a failure belongs to, FOFS in a glide, that SELFTEST clears remaps and bad spares, that a fourth failure sets ERR after three resends over AVSBus, and
the order of the boundary register's bits are the model's (logs 30, 88, 87, 90, 122). -/
def Obligations.BoardClocksTestMesh : Prop :=
  ∀ (s : State) (mv dr t p bits code : Nat) (again : Bool) (offset : Int), s.Inv →
    let d := s.dev
    let b := d.boot
    let boot := fun (e : BootDev) => { d with boot := e }
    let off := if b.vset + 20 < mv ∨ mv + 20 < b.vset then min 3 (b.avsOff + 1) else 0
    let listed := [0x00, 0x01, 0x02, 0x10, 0x11, 0x12, 0x13, 0x3F]
    let tests := [(Instr.extest bits, 0x00), (.idcode, 0x01), (.samplePreload bits, 0x02), (.corestop, 0x10), (.loopstop, 0x11), (.selftest, 0x12),
      (.bypass code, if code % 64 ∈ listed then 0x3F else code % 64)]
    let held := fun (code n : Nat) (was : Bool) => if n = code ∧ b.ir ≠ code then true else if n ≠ code ∧ b.ir = code then false else was
    let a := dr / 2 ^ 41 % 2 ^ 18 * 4
    let v := dr / 2 ^ 9 % 2 ^ 32
    let x := d.tl t
    let bypassed := fun (u : Dev) => boolAt (u.tl t).byp p = true ∧ boolAt (u.tl t).train p = false ∧ u.pur.bypass = min 0xFFFF (d.pur.bypass + 1) ∧
      u.pends 9 17 (.tile t)
    let cell := fun (i : Nat) => d.boundary[i]?
    let level := fun (x : BoundaryCell) => match x.sig with
      | .hintFull => some (decide (64 ≤ (d.tl x.tile).esc.fifo.length))
      | .droop => some (d.cl x.tile x.bit).loop.droop
      | .brdAlertN => some (!d.bud.pin)
      | .irq => some (d.flt.irq (x.bit + 1))
      | _ => none
    (∀ x ∈ d.boundary, x.bit < x.sig.width) ∧
    (∀ g t i, i < Signal.width g → d.hasT t = true → ∃ x ∈ d.boundary, x.sig = g ∧ x.bit = i ∧ (g ∈ tileSignals → x.tile = t)) ∧
    s.gives .avsRetry (boot (if b.avsBusy = false then b else if b.avsTries < 3 then { b with avsTries := b.avsTries + 1 }
      else { b with avsBusy := false, avsErr := true })) ∧
    s.gives .avsbusAcknowledge (boot { b with avsBusy := false }) ∧
    s.gives (.avsReadback mv) (boot { b with vread := mv, avsOff := off, avsErr := b.avsErr || decide (off = 3) }) ∧
    (b.clkState = 0 ∨ b.clkState = 4 → s.leads .refloss (boot { b with clkState := 1, losses := min 0xFFFF (b.losses + 1) }) [(8, 9, .device)]) ∧
    (b.clkState ≠ 0 → b.clkState ≠ 4 → s.gives .refloss d) ∧
    s.gives .holdoverExpiry (boot (if b.clkState = 1 then { b with clkState := 2 } else b)) ∧
    s.gives (.oscillatorGlideComplete offset) (boot (if b.clkState = 2 then { b with clkState := 3, fofs := offset, glides := min 0xFFFF (b.glides + 1) } else b)) ∧
    s.gives .referenceReturn (boot (if 1 ≤ b.clkState ∧ b.clkState ≤ 3 then { b with clkState := 4 } else b)) ∧
    (b.clkState = 4 → s.leads .refret (boot { b with clkState := 0, fofs := 0, glides := min 0xFFFF (b.glides + 1) }) [(8, 10, .device)]) ∧
    (b.clkState ≠ 4 → s.gives .refret d) ∧
    (∀ i n, (i, n) ∈ tests → s.makes i fun u => u.boot.ir = n ∧ (n = 0x01 → u.testCapture = some 0x34B59A3F) ∧
      (n = 0x3F ∨ n ∉ listed ∨ n = 0x00 ∧ d.seq.phase ≠ 0 → u.testActs = 0x3F ∧ u.testCapture = some 0 ∧ u.boot.bound = b.bound) ∧
      (n = 0x02 ∨ n = 0x00 ∧ d.seq.phase = 0 → ∃ got, u.testCapture = some got ∧ ∀ i x, cell i = some x → u.boot.bound.testBit i = bits.testBit i ∧
        u.testDrives i = (if n = 0x00 ∧ x.sig.dir ≠ .inp then some (bits.testBit i) else none) ∧
        ∀ y, (n = 0x02 ∨ x.sig.dir = .inp) → level x = some y → got.testBit i = y) ∧
      (∀ i, cell i = none → u.boot.bound.testBit i = true → b.bound.testBit i = true) ∧
      (∀ k, d.hasCore k = true → (u.core k).stopped = held 0x10 n (d.core k).stopped ∧ (b.ir = 0x10 → n ≠ 0x10 → (u.core k).wd = 0)) ∧
      (∀ t, d.hasT t = true → (u.tl t).rem.stopped = held 0x11 n (d.tl t).rem.stopped) ∧
      (n = 0x12 → d.seq.phase = 0 → ∀ t, d.hasT t = true → (u.tl t).rem.bist = 1 ∧ (u.tl t).rem.remaps = [] ∧ (u.tl t).rem.badSpares = [])) ∧
    (b.ir = 0x13 → a < 0x10000 →
      (dr / 2 ^ 59 % 2 = 1 → s.makes (.hostacc dr) fun u => u.hp.wstatAddr = a ∧
        u.hp.wstat = (if d.hp.closed then 4 else (devWrite .test a (BitVec.ofNat 32 v) d).1) ∧
        u.boot.dr = 2 ^ 59 + a / 4 * 2 ^ 41 + v * 2 ^ 9 + u.hp.wstat * 2) ∧
      (dr / 2 ^ 59 % 2 = 0 → s.makes (.hostacc dr) fun u => u.boot.dr = a / 4 * 2 ^ 41 + (readHost .test true s.mem a d).1.toNat * 2 ^ 9)) ∧
    (d.faces t p = false ∨ boolAt x.byp p = true → s.gives (.flitCrcError t p again) d ∧ s.gives (.portFramingLoss t p) d) ∧
    (d.faces t p = true → boolAt x.byp p = false → t < d.tiles.length → p < x.byp.length →
      let n := if again then x.tries.getD p 0 else 0
      s.makes (.portFramingLoss t p) bypassed ∧ (4 ≤ n → s.makes (.flitCrcError t p again) bypassed) ∧
      (n < 4 → s.makes (.flitCrcError t p again) fun u => (u.tl t).retry = min 0xFFFF (x.retry + 1) ∧
        u.pur.retry = min 0xFFFF (d.pur.retry + 1) ∧ u.pends 9 16 (.tile t) ∧ (p < x.tries.length → (u.tl t).tries.getD p 0 = n + 1) ∧
        ∀ n, d.neighbour t p = some n → (u.tl n).crcerr = min 0xFFFF ((d.tl n).crcerr + 1))) ∧
    (boolAt x.train p = true → s.gives (.portRetrained t p) (d.onT t fun x => { x with byp := x.byp.set p false, train := x.train.set p false, tries := x.tries.set p 0 })) ∧
    (boolAt x.train p = false → s.gives (.portRetrained t p) d)
end

