-- ==== Sys2Proof/Laws/State.lean ====
section
/-!
SUPPORT. Sys2Proof/Laws/State.lean: what each update of the block leaves and gives, one lemma for each field, so that no proof unfolds a record update.
-/
namespace Sys2Proof.Machine

/-! ### onT -/

@[simp] theorem Dev.onT_build (d : Dev) (t : Nat) (f : Tile → Tile) : (d.onT t f).build = d.build := rfl
@[simp] theorem Dev.onT_clk (d : Dev) (t : Nat) (f : Tile → Tile) : (d.onT t f).clk = d.clk := rfl
@[simp] theorem Dev.onT_tiles (d : Dev) (t : Nat) (f : Tile → Tile) : (d.onT t f).tiles = d.tiles.modify t f := rfl
@[simp] theorem Dev.onT_mirrors (d : Dev) (t : Nat) (f : Tile → Tile) : (d.onT t f).mirrors = d.mirrors := rfl
@[simp] theorem Dev.onT_seq (d : Dev) (t : Nat) (f : Tile → Tile) : (d.onT t f).seq = d.seq := rfl
@[simp] theorem Dev.onT_bud (d : Dev) (t : Nat) (f : Tile → Tile) : (d.onT t f).bud = d.bud := rfl
@[simp] theorem Dev.onT_lnk (d : Dev) (t : Nat) (f : Tile → Tile) : (d.onT t f).lnk = d.lnk := rfl
@[simp] theorem Dev.onT_thm (d : Dev) (t : Nat) (f : Tile → Tile) : (d.onT t f).thm = d.thm := rfl
@[simp] theorem Dev.onT_flt (d : Dev) (t : Nat) (f : Tile → Tile) : (d.onT t f).flt = d.flt := rfl
@[simp] theorem Dev.onT_log (d : Dev) (t : Nat) (f : Tile → Tile) : (d.onT t f).log = d.log := rfl
@[simp] theorem Dev.onT_dma (d : Dev) (t : Nat) (f : Tile → Tile) : (d.onT t f).dma = d.dma := rfl
@[simp] theorem Dev.onT_hp (d : Dev) (t : Nat) (f : Tile → Tile) : (d.onT t f).hp = d.hp := rfl
@[simp] theorem Dev.onT_boot (d : Dev) (t : Nat) (f : Tile → Tile) : (d.onT t f).boot = d.boot := rfl
@[simp] theorem Dev.onT_pur (d : Dev) (t : Nat) (f : Tile → Tile) : (d.onT t f).pur = d.pur := rfl
@[simp] theorem Dev.onT_marg (d : Dev) (t : Nat) (f : Tile → Tile) : (d.onT t f).marg = d.marg := rfl
@[simp] theorem Dev.onT_ridge (d : Dev) (t : Nat) (f : Tile → Tile) : (d.onT t f).ridge = d.ridge := rfl
@[simp] theorem Dev.onT_air (d : Dev) (t : Nat) (f : Tile → Tile) : (d.onT t f).air = d.air := rfl
@[simp] theorem Dev.onT_back (d : Dev) (t : Nat) (f : Tile → Tile) : (d.onT t f).back = d.back := rfl
@[simp] theorem Dev.onT_issued (d : Dev) (t : Nat) (f : Tile → Tile) : (d.onT t f).issued = d.issued := rfl
@[simp] theorem Dev.onT_xtrig (d : Dev) (t : Nat) (f : Tile → Tile) : (d.onT t f).xtrig = d.xtrig := rfl

/-! ### onLog -/

@[simp] theorem Dev.onLog_build (d : Dev) (f : LogDev → LogDev) : (d.onLog f).build = d.build := rfl
@[simp] theorem Dev.onLog_clk (d : Dev) (f : LogDev → LogDev) : (d.onLog f).clk = d.clk := rfl
@[simp] theorem Dev.onLog_tiles (d : Dev) (f : LogDev → LogDev) : (d.onLog f).tiles = d.tiles := rfl
@[simp] theorem Dev.onLog_mirrors (d : Dev) (f : LogDev → LogDev) : (d.onLog f).mirrors = d.mirrors := rfl
@[simp] theorem Dev.onLog_seq (d : Dev) (f : LogDev → LogDev) : (d.onLog f).seq = d.seq := rfl
@[simp] theorem Dev.onLog_bud (d : Dev) (f : LogDev → LogDev) : (d.onLog f).bud = d.bud := rfl
@[simp] theorem Dev.onLog_lnk (d : Dev) (f : LogDev → LogDev) : (d.onLog f).lnk = d.lnk := rfl
@[simp] theorem Dev.onLog_thm (d : Dev) (f : LogDev → LogDev) : (d.onLog f).thm = d.thm := rfl
@[simp] theorem Dev.onLog_flt (d : Dev) (f : LogDev → LogDev) : (d.onLog f).flt = d.flt := rfl
@[simp] theorem Dev.onLog_log (d : Dev) (f : LogDev → LogDev) : (d.onLog f).log = f d.log := rfl
@[simp] theorem Dev.onLog_dma (d : Dev) (f : LogDev → LogDev) : (d.onLog f).dma = d.dma := rfl
@[simp] theorem Dev.onLog_hp (d : Dev) (f : LogDev → LogDev) : (d.onLog f).hp = d.hp := rfl
@[simp] theorem Dev.onLog_boot (d : Dev) (f : LogDev → LogDev) : (d.onLog f).boot = d.boot := rfl
@[simp] theorem Dev.onLog_pur (d : Dev) (f : LogDev → LogDev) : (d.onLog f).pur = d.pur := rfl
@[simp] theorem Dev.onLog_marg (d : Dev) (f : LogDev → LogDev) : (d.onLog f).marg = d.marg := rfl
@[simp] theorem Dev.onLog_ridge (d : Dev) (f : LogDev → LogDev) : (d.onLog f).ridge = d.ridge := rfl
@[simp] theorem Dev.onLog_air (d : Dev) (f : LogDev → LogDev) : (d.onLog f).air = d.air := rfl
@[simp] theorem Dev.onLog_back (d : Dev) (f : LogDev → LogDev) : (d.onLog f).back = d.back := rfl
@[simp] theorem Dev.onLog_issued (d : Dev) (f : LogDev → LogDev) : (d.onLog f).issued = d.issued := rfl
@[simp] theorem Dev.onLog_xtrig (d : Dev) (f : LogDev → LogDev) : (d.onLog f).xtrig = d.xtrig := rfl

/-! ### onFlt -/

@[simp] theorem Dev.onFlt_build (d : Dev) (f : FaultDev → FaultDev) : (d.onFlt f).build = d.build := rfl
@[simp] theorem Dev.onFlt_clk (d : Dev) (f : FaultDev → FaultDev) : (d.onFlt f).clk = d.clk := rfl
@[simp] theorem Dev.onFlt_tiles (d : Dev) (f : FaultDev → FaultDev) : (d.onFlt f).tiles = d.tiles := rfl
@[simp] theorem Dev.onFlt_mirrors (d : Dev) (f : FaultDev → FaultDev) : (d.onFlt f).mirrors = d.mirrors := rfl
@[simp] theorem Dev.onFlt_seq (d : Dev) (f : FaultDev → FaultDev) : (d.onFlt f).seq = d.seq := rfl
@[simp] theorem Dev.onFlt_bud (d : Dev) (f : FaultDev → FaultDev) : (d.onFlt f).bud = d.bud := rfl
@[simp] theorem Dev.onFlt_lnk (d : Dev) (f : FaultDev → FaultDev) : (d.onFlt f).lnk = d.lnk := rfl
@[simp] theorem Dev.onFlt_thm (d : Dev) (f : FaultDev → FaultDev) : (d.onFlt f).thm = d.thm := rfl
@[simp] theorem Dev.onFlt_flt (d : Dev) (f : FaultDev → FaultDev) : (d.onFlt f).flt = f d.flt := rfl
@[simp] theorem Dev.onFlt_log (d : Dev) (f : FaultDev → FaultDev) : (d.onFlt f).log = d.log := rfl
@[simp] theorem Dev.onFlt_dma (d : Dev) (f : FaultDev → FaultDev) : (d.onFlt f).dma = d.dma := rfl
@[simp] theorem Dev.onFlt_hp (d : Dev) (f : FaultDev → FaultDev) : (d.onFlt f).hp = d.hp := rfl
@[simp] theorem Dev.onFlt_boot (d : Dev) (f : FaultDev → FaultDev) : (d.onFlt f).boot = d.boot := rfl
@[simp] theorem Dev.onFlt_pur (d : Dev) (f : FaultDev → FaultDev) : (d.onFlt f).pur = d.pur := rfl
@[simp] theorem Dev.onFlt_marg (d : Dev) (f : FaultDev → FaultDev) : (d.onFlt f).marg = d.marg := rfl
@[simp] theorem Dev.onFlt_ridge (d : Dev) (f : FaultDev → FaultDev) : (d.onFlt f).ridge = d.ridge := rfl
@[simp] theorem Dev.onFlt_air (d : Dev) (f : FaultDev → FaultDev) : (d.onFlt f).air = d.air := rfl
@[simp] theorem Dev.onFlt_back (d : Dev) (f : FaultDev → FaultDev) : (d.onFlt f).back = d.back := rfl
@[simp] theorem Dev.onFlt_issued (d : Dev) (f : FaultDev → FaultDev) : (d.onFlt f).issued = d.issued := rfl
@[simp] theorem Dev.onFlt_xtrig (d : Dev) (f : FaultDev → FaultDev) : (d.onFlt f).xtrig = d.xtrig := rfl

/-! ### onLnk -/

@[simp] theorem Dev.onLnk_build (d : Dev) (f : LinkDev → LinkDev) : (d.onLnk f).build = d.build := rfl
@[simp] theorem Dev.onLnk_clk (d : Dev) (f : LinkDev → LinkDev) : (d.onLnk f).clk = d.clk := rfl
@[simp] theorem Dev.onLnk_tiles (d : Dev) (f : LinkDev → LinkDev) : (d.onLnk f).tiles = d.tiles := rfl
@[simp] theorem Dev.onLnk_mirrors (d : Dev) (f : LinkDev → LinkDev) : (d.onLnk f).mirrors = d.mirrors := rfl
@[simp] theorem Dev.onLnk_seq (d : Dev) (f : LinkDev → LinkDev) : (d.onLnk f).seq = d.seq := rfl
@[simp] theorem Dev.onLnk_bud (d : Dev) (f : LinkDev → LinkDev) : (d.onLnk f).bud = d.bud := rfl
@[simp] theorem Dev.onLnk_lnk (d : Dev) (f : LinkDev → LinkDev) : (d.onLnk f).lnk = f d.lnk := rfl
@[simp] theorem Dev.onLnk_thm (d : Dev) (f : LinkDev → LinkDev) : (d.onLnk f).thm = d.thm := rfl
@[simp] theorem Dev.onLnk_flt (d : Dev) (f : LinkDev → LinkDev) : (d.onLnk f).flt = d.flt := rfl
@[simp] theorem Dev.onLnk_log (d : Dev) (f : LinkDev → LinkDev) : (d.onLnk f).log = d.log := rfl
@[simp] theorem Dev.onLnk_dma (d : Dev) (f : LinkDev → LinkDev) : (d.onLnk f).dma = d.dma := rfl
@[simp] theorem Dev.onLnk_hp (d : Dev) (f : LinkDev → LinkDev) : (d.onLnk f).hp = d.hp := rfl
@[simp] theorem Dev.onLnk_boot (d : Dev) (f : LinkDev → LinkDev) : (d.onLnk f).boot = d.boot := rfl
@[simp] theorem Dev.onLnk_pur (d : Dev) (f : LinkDev → LinkDev) : (d.onLnk f).pur = d.pur := rfl
@[simp] theorem Dev.onLnk_marg (d : Dev) (f : LinkDev → LinkDev) : (d.onLnk f).marg = d.marg := rfl
@[simp] theorem Dev.onLnk_ridge (d : Dev) (f : LinkDev → LinkDev) : (d.onLnk f).ridge = d.ridge := rfl
@[simp] theorem Dev.onLnk_air (d : Dev) (f : LinkDev → LinkDev) : (d.onLnk f).air = d.air := rfl
@[simp] theorem Dev.onLnk_back (d : Dev) (f : LinkDev → LinkDev) : (d.onLnk f).back = d.back := rfl
@[simp] theorem Dev.onLnk_issued (d : Dev) (f : LinkDev → LinkDev) : (d.onLnk f).issued = d.issued := rfl
@[simp] theorem Dev.onLnk_xtrig (d : Dev) (f : LinkDev → LinkDev) : (d.onLnk f).xtrig = d.xtrig := rfl

/-! ### onBoot -/

@[simp] theorem Dev.onBoot_build (d : Dev) (f : BootDev → BootDev) : (d.onBoot f).build = d.build := rfl
@[simp] theorem Dev.onBoot_clk (d : Dev) (f : BootDev → BootDev) : (d.onBoot f).clk = d.clk := rfl
@[simp] theorem Dev.onBoot_tiles (d : Dev) (f : BootDev → BootDev) : (d.onBoot f).tiles = d.tiles := rfl
@[simp] theorem Dev.onBoot_mirrors (d : Dev) (f : BootDev → BootDev) : (d.onBoot f).mirrors = d.mirrors := rfl
@[simp] theorem Dev.onBoot_seq (d : Dev) (f : BootDev → BootDev) : (d.onBoot f).seq = d.seq := rfl
@[simp] theorem Dev.onBoot_bud (d : Dev) (f : BootDev → BootDev) : (d.onBoot f).bud = d.bud := rfl
@[simp] theorem Dev.onBoot_lnk (d : Dev) (f : BootDev → BootDev) : (d.onBoot f).lnk = d.lnk := rfl
@[simp] theorem Dev.onBoot_thm (d : Dev) (f : BootDev → BootDev) : (d.onBoot f).thm = d.thm := rfl
@[simp] theorem Dev.onBoot_flt (d : Dev) (f : BootDev → BootDev) : (d.onBoot f).flt = d.flt := rfl
@[simp] theorem Dev.onBoot_log (d : Dev) (f : BootDev → BootDev) : (d.onBoot f).log = d.log := rfl
@[simp] theorem Dev.onBoot_dma (d : Dev) (f : BootDev → BootDev) : (d.onBoot f).dma = d.dma := rfl
@[simp] theorem Dev.onBoot_hp (d : Dev) (f : BootDev → BootDev) : (d.onBoot f).hp = d.hp := rfl
@[simp] theorem Dev.onBoot_boot (d : Dev) (f : BootDev → BootDev) : (d.onBoot f).boot = f d.boot := rfl
@[simp] theorem Dev.onBoot_pur (d : Dev) (f : BootDev → BootDev) : (d.onBoot f).pur = d.pur := rfl
@[simp] theorem Dev.onBoot_marg (d : Dev) (f : BootDev → BootDev) : (d.onBoot f).marg = d.marg := rfl
@[simp] theorem Dev.onBoot_ridge (d : Dev) (f : BootDev → BootDev) : (d.onBoot f).ridge = d.ridge := rfl
@[simp] theorem Dev.onBoot_air (d : Dev) (f : BootDev → BootDev) : (d.onBoot f).air = d.air := rfl
@[simp] theorem Dev.onBoot_back (d : Dev) (f : BootDev → BootDev) : (d.onBoot f).back = d.back := rfl
@[simp] theorem Dev.onBoot_issued (d : Dev) (f : BootDev → BootDev) : (d.onBoot f).issued = d.issued := rfl
@[simp] theorem Dev.onBoot_xtrig (d : Dev) (f : BootDev → BootDev) : (d.onBoot f).xtrig = d.xtrig := rfl

/-! ### onMir -/

@[simp] theorem Dev.onMir_build (d : Dev) (t : Nat) (f : Mirror → Mirror) : (d.onMir t f).build = d.build := rfl
@[simp] theorem Dev.onMir_clk (d : Dev) (t : Nat) (f : Mirror → Mirror) : (d.onMir t f).clk = d.clk := rfl
@[simp] theorem Dev.onMir_tiles (d : Dev) (t : Nat) (f : Mirror → Mirror) : (d.onMir t f).tiles = d.tiles := rfl
@[simp] theorem Dev.onMir_mirrors (d : Dev) (t : Nat) (f : Mirror → Mirror) : (d.onMir t f).mirrors = d.mirrors.modify t f := rfl
@[simp] theorem Dev.onMir_seq (d : Dev) (t : Nat) (f : Mirror → Mirror) : (d.onMir t f).seq = d.seq := rfl
@[simp] theorem Dev.onMir_bud (d : Dev) (t : Nat) (f : Mirror → Mirror) : (d.onMir t f).bud = d.bud := rfl
@[simp] theorem Dev.onMir_lnk (d : Dev) (t : Nat) (f : Mirror → Mirror) : (d.onMir t f).lnk = d.lnk := rfl
@[simp] theorem Dev.onMir_thm (d : Dev) (t : Nat) (f : Mirror → Mirror) : (d.onMir t f).thm = d.thm := rfl
@[simp] theorem Dev.onMir_flt (d : Dev) (t : Nat) (f : Mirror → Mirror) : (d.onMir t f).flt = d.flt := rfl
@[simp] theorem Dev.onMir_log (d : Dev) (t : Nat) (f : Mirror → Mirror) : (d.onMir t f).log = d.log := rfl
@[simp] theorem Dev.onMir_dma (d : Dev) (t : Nat) (f : Mirror → Mirror) : (d.onMir t f).dma = d.dma := rfl
@[simp] theorem Dev.onMir_hp (d : Dev) (t : Nat) (f : Mirror → Mirror) : (d.onMir t f).hp = d.hp := rfl
@[simp] theorem Dev.onMir_boot (d : Dev) (t : Nat) (f : Mirror → Mirror) : (d.onMir t f).boot = d.boot := rfl
@[simp] theorem Dev.onMir_pur (d : Dev) (t : Nat) (f : Mirror → Mirror) : (d.onMir t f).pur = d.pur := rfl
@[simp] theorem Dev.onMir_marg (d : Dev) (t : Nat) (f : Mirror → Mirror) : (d.onMir t f).marg = d.marg := rfl
@[simp] theorem Dev.onMir_ridge (d : Dev) (t : Nat) (f : Mirror → Mirror) : (d.onMir t f).ridge = d.ridge := rfl
@[simp] theorem Dev.onMir_air (d : Dev) (t : Nat) (f : Mirror → Mirror) : (d.onMir t f).air = d.air := rfl
@[simp] theorem Dev.onMir_back (d : Dev) (t : Nat) (f : Mirror → Mirror) : (d.onMir t f).back = d.back := rfl
@[simp] theorem Dev.onMir_issued (d : Dev) (t : Nat) (f : Mirror → Mirror) : (d.onMir t f).issued = d.issued := rfl
@[simp] theorem Dev.onMir_xtrig (d : Dev) (t : Nat) (f : Mirror → Mirror) : (d.onMir t f).xtrig = d.xtrig := rfl

/-! ### onCh -/

@[simp] theorem Dev.onCh_build (d : Dev) (n : Nat) (f : Chan → Chan) : (d.onCh n f).build = d.build := rfl
@[simp] theorem Dev.onCh_clk (d : Dev) (n : Nat) (f : Chan → Chan) : (d.onCh n f).clk = d.clk := rfl
@[simp] theorem Dev.onCh_tiles (d : Dev) (n : Nat) (f : Chan → Chan) : (d.onCh n f).tiles = d.tiles := rfl
@[simp] theorem Dev.onCh_mirrors (d : Dev) (n : Nat) (f : Chan → Chan) : (d.onCh n f).mirrors = d.mirrors := rfl
@[simp] theorem Dev.onCh_seq (d : Dev) (n : Nat) (f : Chan → Chan) : (d.onCh n f).seq = d.seq := rfl
@[simp] theorem Dev.onCh_bud (d : Dev) (n : Nat) (f : Chan → Chan) : (d.onCh n f).bud = d.bud := rfl
@[simp] theorem Dev.onCh_lnk (d : Dev) (n : Nat) (f : Chan → Chan) : (d.onCh n f).lnk = d.lnk := rfl
@[simp] theorem Dev.onCh_thm (d : Dev) (n : Nat) (f : Chan → Chan) : (d.onCh n f).thm = d.thm := rfl
@[simp] theorem Dev.onCh_flt (d : Dev) (n : Nat) (f : Chan → Chan) : (d.onCh n f).flt = d.flt := rfl
@[simp] theorem Dev.onCh_log (d : Dev) (n : Nat) (f : Chan → Chan) : (d.onCh n f).log = d.log := rfl
@[simp] theorem Dev.onCh_hp (d : Dev) (n : Nat) (f : Chan → Chan) : (d.onCh n f).hp = d.hp := rfl
@[simp] theorem Dev.onCh_boot (d : Dev) (n : Nat) (f : Chan → Chan) : (d.onCh n f).boot = d.boot := rfl
@[simp] theorem Dev.onCh_pur (d : Dev) (n : Nat) (f : Chan → Chan) : (d.onCh n f).pur = d.pur := rfl
@[simp] theorem Dev.onCh_marg (d : Dev) (n : Nat) (f : Chan → Chan) : (d.onCh n f).marg = d.marg := rfl
@[simp] theorem Dev.onCh_ridge (d : Dev) (n : Nat) (f : Chan → Chan) : (d.onCh n f).ridge = d.ridge := rfl
@[simp] theorem Dev.onCh_air (d : Dev) (n : Nat) (f : Chan → Chan) : (d.onCh n f).air = d.air := rfl
@[simp] theorem Dev.onCh_back (d : Dev) (n : Nat) (f : Chan → Chan) : (d.onCh n f).back = d.back := rfl
@[simp] theorem Dev.onCh_issued (d : Dev) (n : Nat) (f : Chan → Chan) : (d.onCh n f).issued = d.issued := rfl
@[simp] theorem Dev.onCh_xtrig (d : Dev) (n : Nat) (f : Chan → Chan) : (d.onCh n f).xtrig = d.xtrig := rfl

/-! ### onCore: the Ridge, or one tile -/

@[simp] theorem Dev.onCore_build (d : Dev) (k : CoreId) (f : Core → Core) : (d.onCore k f).build = d.build := by cases k <;> rfl
@[simp] theorem Dev.onCore_clk (d : Dev) (k : CoreId) (f : Core → Core) : (d.onCore k f).clk = d.clk := by cases k <;> rfl
@[simp] theorem Dev.onCore_mirrors (d : Dev) (k : CoreId) (f : Core → Core) : (d.onCore k f).mirrors = d.mirrors := by cases k <;> rfl
@[simp] theorem Dev.onCore_seq (d : Dev) (k : CoreId) (f : Core → Core) : (d.onCore k f).seq = d.seq := by cases k <;> rfl
@[simp] theorem Dev.onCore_bud (d : Dev) (k : CoreId) (f : Core → Core) : (d.onCore k f).bud = d.bud := by cases k <;> rfl
@[simp] theorem Dev.onCore_lnk (d : Dev) (k : CoreId) (f : Core → Core) : (d.onCore k f).lnk = d.lnk := by cases k <;> rfl
@[simp] theorem Dev.onCore_thm (d : Dev) (k : CoreId) (f : Core → Core) : (d.onCore k f).thm = d.thm := by cases k <;> rfl
@[simp] theorem Dev.onCore_flt (d : Dev) (k : CoreId) (f : Core → Core) : (d.onCore k f).flt = d.flt := by cases k <;> rfl
@[simp] theorem Dev.onCore_log (d : Dev) (k : CoreId) (f : Core → Core) : (d.onCore k f).log = d.log := by cases k <;> rfl
@[simp] theorem Dev.onCore_dma (d : Dev) (k : CoreId) (f : Core → Core) : (d.onCore k f).dma = d.dma := by cases k <;> rfl
@[simp] theorem Dev.onCore_hp (d : Dev) (k : CoreId) (f : Core → Core) : (d.onCore k f).hp = d.hp := by cases k <;> rfl
@[simp] theorem Dev.onCore_boot (d : Dev) (k : CoreId) (f : Core → Core) : (d.onCore k f).boot = d.boot := by cases k <;> rfl
@[simp] theorem Dev.onCore_pur (d : Dev) (k : CoreId) (f : Core → Core) : (d.onCore k f).pur = d.pur := by cases k <;> rfl
@[simp] theorem Dev.onCore_marg (d : Dev) (k : CoreId) (f : Core → Core) : (d.onCore k f).marg = d.marg := by cases k <;> rfl
@[simp] theorem Dev.onCore_air (d : Dev) (k : CoreId) (f : Core → Core) : (d.onCore k f).air = d.air := by cases k <;> rfl
@[simp] theorem Dev.onCore_back (d : Dev) (k : CoreId) (f : Core → Core) : (d.onCore k f).back = d.back := by cases k <;> rfl
@[simp] theorem Dev.onCore_issued (d : Dev) (k : CoreId) (f : Core → Core) : (d.onCore k f).issued = d.issued := by cases k <;> rfl
@[simp] theorem Dev.onCore_xtrig (d : Dev) (k : CoreId) (f : Core → Core) : (d.onCore k f).xtrig = d.xtrig := by cases k <;> rfl

/-! ### A tile read after an update -/

/-- A tile changed, read back. -/
theorem Dev.tl_onT (d : Dev) (t u : Nat) (f : Tile → Tile) : (d.onT t f).tl u = if t = u ∧ u < d.tiles.length then f (d.tl u) else d.tl u := by
  simp only [Dev.tl, Dev.onT, List.getD_eq_getElem?_getD, List.getElem?_modify]
  by_cases h : t = u
  · subst h
    by_cases hl : t < d.tiles.length
    · simp [hl]
    · simp [hl]
  · simp [h]

/-- A core changed, read back, where it exists. -/
theorem Dev.core_onCore (d : Dev) (k : CoreId) (f : Core → Core) (h : ∀ t, k = .rafter t → t < d.tiles.length) :
    (d.onCore k f).core k = f (d.core k) := by
  cases k with
  | ridge => rfl
  | rafter t => simp [Dev.core, Dev.onCore, Dev.tl_onT, h t rfl]

/-- A core that exists has its place in the list of tiles. -/
theorem Dev.hasCore_lt {d : Dev} {k : CoreId} (h : d.hasCore k = true) : ∀ t, k = .rafter t → t < d.tiles.length := by
  intro t hk
  subst hk
  by_cases hl : t < d.tiles.length
  · exact hl
  · have : d.tl t = {} := by simp [Dev.tl, List.getD_eq_getElem?_getD, List.getElem?_eq_none (Nat.le_of_not_lt hl)]
    simp [Dev.hasCore, Dev.hasT, this] at h

end Sys2Proof.Machine
end

