-- ==== Sys2Proof/Laws/Settle.lean ====
section
/-!
SUPPORT. Sys2Proof/Laws/Settle.lean: everything that the closing of a command can do: the work list, the events of windows and traces, the limits that have
changed.
-/
namespace Sys2Proof.Machine

/-- What a fold keeps if each step keeps it. -/
theorem foldl_keeps {α β γ : Type} (p : α → γ) (f : α → β → α) (hf : ∀ a b, p (f a b) = p a) (l : List β) (a : α) : p (l.foldl f a) = p a := by
  induction l generalizing a with
  | nil => rfl
  | cons b l ih => rw [List.foldl_cons, ih, hf]

/-- A fold of steps that each change nothing. -/
theorem foldl_id {α β : Type} (f : α → β → α) (l : List β) (a : α) (hf : ∀ b, f a b = a) : l.foldl f a = a := by
  induction l with
  | nil => rfl
  | cons b l ih => rw [List.foldl_cons, hf, ih]

@[simp] theorem Dev.on_true (d : Dev) (f : Dev → Dev) : d.on true f = f d := rfl
@[simp] theorem Dev.on_false (d : Dev) (f : Dev → Dev) : d.on false f = d := rfl

/-- A condition over a step keeps what the step keeps. -/
theorem Dev.on_keeps {γ : Type} (q : Dev → γ) (d : Dev) (p : Bool) (f : Dev → Dev) (hf : q (f d) = q d) : q (d.on p f) = q d := by
  cases p
  · rfl
  · exact hf

/-! ### The outcome of a command -/

/-- Every command that ends in `finM` answers a next state. -/
theorem finM_next (s : State) (m : List Host.Cell) (d : Dev) :
    finM s m d = .next { dev := settle s.mem s.dev m d, mem := m, pending := s.pending } := rfl
theorem fin_next (s : State) (d : Dev) :
    fin s d = .next { dev := settle s.mem s.dev s.mem d, mem := s.mem, pending := s.pending } := rfl

/-- Nothing waits on the work list, and no record is offered. -/
abbrev Dev.rests (d : Dev) : Prop := d.flt.todo = [] ∧ d.log.offers = none

/-! ### The work list -/

theorem runTodos_nil (n : Nat) (d : Dev) (h : d.flt.todo = []) : runTodos n d = d := by
  cases n with
  | zero =>
    have : d.flt = { d.flt with todo := [] } := by rw [← h]
    simp only [runTodos, Dev.onFlt]
    rw [← this]
  | succ n => simp [runTodos, h]

/-- Whatever a command has put on the work list, nothing stays on it. -/
theorem runTodos_todo (n : Nat) (d : Dev) : (runTodos n d).flt.todo = [] := by
  induction n generalizing d with
  | zero => rfl
  | succ n ih =>
    unfold runTodos
    split
    · assumption
    · exact ih _

/-- Whatever a command has put on the work list and offered to the recorder, nothing stays there. -/
theorem closing_done (n : Nat) (d : Dev) : (closing n d).flt.todo = [] ∧ (closing n d).log.offers = none := by
  induction n generalizing d with
  | zero => exact ⟨runTodos_todo 100000 d, rfl⟩
  | succ n ih =>
    unfold closing
    dsimp only
    split
    · rename_i h
      exact ⟨runTodos_todo 100000 d, Option.isNone_iff_eq_none.mp h⟩
    · exact ih _

theorem closing_nil (n : Nat) (d : Dev) (h : d.rests) : closing (n + 1) d = d := by
  unfold closing
  dsimp only
  rw [runTodos_nil _ _ h.1, if_pos (by rw [h.2]; rfl)]

/-! ### Events of windows and traces -/

theorem ev_keeps {γ : Type} (q : Dev → γ) (hq : ∀ d k f, q (Dev.onCore d k f) = q d) (k : CoreId) (n : Nat) (d : Dev) : q (ev k n d) = q d := hq d k _

theorem edgeEvents_keeps {γ : Type} (q : Dev → γ) (hq : ∀ d k f, q (Dev.onCore d k f) = q d) (old d : Dev) : q (edgeEvents old d) = q d := by
  unfold edgeEvents
  refine foldl_keeps q _ ?_ _ _
  intro e t
  dsimp only
  rw [Dev.on_keeps q, Dev.on_keeps q]
  · exact ev_keeps q hq _ _ _
  · rw [ev_keeps q hq, ev_keeps q hq]

/-! ### Limits -/

theorem syncTile_keeps {γ : Type} (q : Dev → γ) (hq : ∀ d t f, q (Dev.onPal d t f) = q d) (m0 : List Host.Cell) (old : Dev) (m : List Host.Cell) (t : Nat)
    (d : Dev) : q (syncTile m0 old m t d) = q d := by
  unfold syncTile
  dsimp only
  split
  · rfl
  · exact hq d t _

theorem syncAll_keeps {γ : Type} (q : Dev → γ) (hq : ∀ d t f, q (Dev.onPal d t f) = q d) (m0 : List Host.Cell) (old : Dev) (m : List Host.Cell) (d : Dev) :
    q (syncAll m0 old m d) = q d := by
  unfold syncAll
  exact foldl_keeps q _ (fun e t => syncTile_keeps q hq m0 old m t e) _ _

/-! ### The whole closing -/

/-- No command leaves anything on the work list. -/
theorem settle_todo (m0 : List Host.Cell) (old : Dev) (m : List Host.Cell) (d : Dev) : (settle m0 old m d).flt.todo = [] := by
  unfold settle
  rw [syncAll_keeps (fun d => d.flt.todo) (fun _ _ _ => rfl), edgeEvents_keeps (fun d => d.flt.todo) (fun d k f => by simp)]
  exact (closing_done _ _).1

/-- No command leaves a record offered. -/
theorem settle_offers (m0 : List Host.Cell) (old : Dev) (m : List Host.Cell) (d : Dev) : (settle m0 old m d).log.offers = none := by
  unfold settle
  rw [syncAll_keeps (fun d => d.log.offers) (fun _ _ _ => rfl), edgeEvents_keeps (fun d => d.log.offers) (fun d k f => by simp)]
  exact (closing_done _ _).2

/-- What of a tile the closing looks at. -/
def Tile.same (x y : Tile) : Prop :=
  x.clusters = y.clusters ∧ x.trace = y.trace ∧ x.cmap = y.cmap ∧ x.fmaxBad = y.fmaxBad ∧ x.fmaxOld = y.fmaxOld

theorem fcap_same {b c : BudDev} (h : b.ladcfg = c.ladcfg) (n : Nat) : b.fcap n = c.fcap n := by
  cases b
  cases c
  simp only at h
  subst h
  rfl

theorem limKeys_same {old d : Dev} (t : Nat) (h : (old.tl t).clusters = (d.tl t).clusters) (hl : old.bud.ladcfg = d.bud.ladcfg) :
    old.limKeys t = d.limKeys t := by
  have hk : old.limKey = d.limKey := by
    funext k
    simp only [Dev.limKey, fcap_same hl]
  simp only [Dev.limKeys, h, hk]

/-- A command that raises nothing, leaves memory and every cluster, trace, core map and Fmax store as they were, and the ladder's shape, closes with nothing
more to do. -/
theorem settle_same {old d : Dev} (m : List Host.Cell) (ht : d.rests) (hl : old.bud.ladcfg = d.bud.ladcfg)
    (hs : ∀ t, (old.tl t).same (d.tl t)) : settle m old m d = d := by
  have he : edgeEvents old d = d := by
    unfold edgeEvents
    refine foldl_id _ _ _ ?_
    intro t
    obtain ⟨h1, h2, _⟩ := hs t
    simp only [h1, h2, bne_self_eq_false, Dev.on_false]
    cases h : ((d.tl t).trace.st == 3)
    · simp
    · simp [bne, h]
  have hy : syncAll m old m d = d := by
    unfold syncAll
    refine foldl_id _ _ _ ?_
    intro t
    obtain ⟨h1, _, h3, h4, h5⟩ := hs t
    unfold syncTile
    dsimp only
    rw [if_pos]
    simp [limKeys_same t h1 hl, h3, h4, h5]
  unfold settle
  rw [closing_nil _ _ ht, he, hy]

/-- A command that changes one core alone. -/
theorem settle_core (m : List Host.Cell) (d : Dev) (k : CoreId) (f : Core → Core) (ht : d.rests) :
    settle m d m (d.onCore k f) = d.onCore k f := by
  refine settle_same m (by simpa [Dev.rests] using ht) (by simp) ?_
  intro t
  cases k with
  | ridge => exact ⟨rfl, rfl, rfl, rfl, rfl⟩
  | rafter u =>
    simp only [Dev.onCore, Dev.tl_onT]
    split <;> exact ⟨rfl, rfl, rfl, rfl, rfl⟩

/-- A command that changes no tile. -/
theorem settle_dev (m : List Host.Cell) {old d : Dev} (ht : d.rests) (hl : old.bud.ladcfg = d.bud.ladcfg) (hs : old.tiles = d.tiles) :
    settle m old m d = d := by
  refine settle_same m ht hl ?_
  intro t
  simp only [Dev.tl, hs]
  exact ⟨rfl, rfl, rfl, rfl, rfl⟩

/-- A command that changes nothing. -/
theorem settle_none (m : List Host.Cell) {d : Dev} (ht : d.rests) : settle m d m d = d := settle_dev m ht rfl rfl

/-! ### Changes that no limit and no window sees -/

/-- What the closing looks at of one cluster. -/
def Cluster.seen (d : Dev) (k : Cluster) : Bool × (Nat × Nat × Bool) := (k.quiet, d.limKey k)

/-- A command that raises nothing and changes of the clusters only what no limit and no window looks at closes with nothing more to do. -/
theorem settle_seen {old d : Dev} (m : List Host.Cell) (ht : d.rests) (hl : old.bud.ladcfg = d.bud.ladcfg)
    (hs : ∀ t, (old.tl t).clusters.map (Cluster.seen old) = (d.tl t).clusters.map (Cluster.seen old) ∧ (old.tl t).trace.st = (d.tl t).trace.st ∧
      (old.tl t).cmap = (d.tl t).cmap ∧ (old.tl t).fmaxBad = (d.tl t).fmaxBad ∧ (old.tl t).fmaxOld = (d.tl t).fmaxOld) :
    settle m old m d = d := by
  have hq : ∀ t, (old.tl t).clusters.map Cluster.quiet = (d.tl t).clusters.map Cluster.quiet := by
    intro t
    have h := congrArg (List.map Prod.fst) (hs t).1
    simpa [List.map_map, Function.comp_def, Cluster.seen] using h
  have hk : ∀ t, old.limKeys t = d.limKeys t := by
    intro t
    have h := congrArg (List.map Prod.snd) (hs t).1
    have hd : old.limKey = d.limKey := by
      funext k
      simp only [Dev.limKey, fcap_same hl]
    simp only [List.map_map, Function.comp_def, Cluster.seen] at h
    simp only [Dev.limKeys, ← hd]
    exact h
  have he : edgeEvents old d = d := by
    unfold edgeEvents
    refine foldl_id _ _ _ ?_
    intro t
    obtain ⟨_, h2, _⟩ := hs t
    simp only [hq t, h2, bne_self_eq_false, Dev.on_false]
    cases h : ((d.tl t).trace.st == 3)
    · simp
    · simp [bne, h]
  have hy : syncAll m old m d = d := by
    unfold syncAll
    refine foldl_id _ _ _ ?_
    intro t
    obtain ⟨_, _, h3, h4, h5⟩ := hs t
    unfold syncTile
    dsimp only
    rw [if_pos]
    simp [hk t, h3, h4, h5]
  unfold settle
  rw [closing_nil _ _ ht, he, hy]

/-- A command that changes one tile, but nothing of it that a limit, a window or the trace's end sees. -/
theorem settle_onT (m : List Host.Cell) (d : Dev) (t : Nat) (f : Tile → Tile) (ht : d.rests)
    (hf : ∀ x, (f x).clusters.map (Cluster.seen d) = x.clusters.map (Cluster.seen d) ∧ (f x).trace.st = x.trace.st ∧ (f x).cmap = x.cmap ∧
      (f x).fmaxBad = x.fmaxBad ∧ (f x).fmaxOld = x.fmaxOld) : settle m d m (d.onT t f) = d.onT t f := by
  refine settle_seen m (by simpa [Dev.rests] using ht) (by simp) ?_
  intro u
  simp only [Dev.tl_onT]
  split
  · obtain ⟨h1, h2, h3, h4, h5⟩ := hf (d.tl u)
    exact ⟨h1.symm, h2.symm, h3.symm, h4.symm, h5.symm⟩
  · exact ⟨rfl, rfl, rfl, rfl, rfl⟩

theorem map_modify_eq {α β : Type} (g : α → β) (f : α → α) (h : ∀ x, g (f x) = g x) (l : List α) (n : Nat) : (l.modify n f).map g = l.map g := by
  induction l generalizing n with
  | nil => simp
  | cons a l ih => cases n <;> simp [h, ih]

/-- A command that changes one cluster, but nothing of it that a limit or a window sees. -/
theorem settle_onC (m : List Host.Cell) (d : Dev) (t c : Nat) (f : Cluster → Cluster) (ht : d.rests)
    (hf : ∀ k, Cluster.seen d (f k) = Cluster.seen d k) : settle m d m (d.onC t c f) = d.onC t c f :=
  settle_onT m d t _ ht fun _ => ⟨map_modify_eq _ _ hf _ _, rfl, rfl, rfl, rfl⟩

/-- A command that changes one cell alone. -/
theorem settle_onR (m : List Host.Cell) (d : Dev) (t c r : Nat) (f : Cell → Cell) (ht : d.rests) :
    settle m d m (d.onR t c r f) = d.onR t c r f := settle_onC m d t c _ ht fun _ => rfl

end Sys2Proof.Machine
end

