-- ==== Sys2Proof/Laws/Aside.lean ====
section
/-!
SUPPORT. Sys2Proof/Laws/Aside.lean: fault handling, records, program events and limits change nothing but what `Dev.hard` leaves out, and lose no pending
fault.
-/
namespace Sys2Proof.Machine

/-! ### The relation -/

theorem Dev.Aside.refl (d : Dev) : d.Aside d := ⟨rfl, fun _ _ _ h => h, fun h => h⟩
theorem Dev.Aside.trans {d e f : Dev} (h : d.Aside e) (g : e.Aside f) : d.Aside f :=
  ⟨g.hard.trans h.hard, fun a b c x => g.pends a b c (h.pends a b c x), fun x => g.safe (h.safe x)⟩

/-- A step that leaves the fault unit alone and keeps the hard part. -/
theorem Dev.Aside.of {d e : Dev} (h : e.hard = d.hard) (hf : e.flt = d.flt) : d.Aside e :=
  ⟨h, fun _ _ _ x => by simpa [Dev.pends, hf] using x, fun x => by simpa [hf] using x⟩

theorem Dev.Aside.fold {β : Type} (f : Dev → β → Dev) (l : List β) (d : Dev) (hf : ∀ e b, Dev.Aside e (f e b)) : d.Aside (l.foldl f d) := by
  induction l generalizing d with
  | nil => exact .refl d
  | cons b l ih => exact (hf d b).trans (ih _)

theorem Dev.Aside.on {d : Dev} (p : Bool) {f : Dev → Dev} (h : d.Aside (f d)) : d.Aside (d.on p f) := by
  cases p
  · exact .refl d
  · exact h

/-! ### Hard parts -/

theorem Dev.hard_onT (d : Dev) (t : Nat) (f : Tile → Tile) (h : ∀ x, (f x).hard = x.hard) : (d.onT t f).hard = d.hard := by
  simp only [Dev.hard, Dev.onT, map_modify_eq Tile.hard f h]

theorem Tile.hard_onC (x : Tile) (c : Nat) (f : Cluster → Cluster) (h : ∀ k, (f k).hard = k.hard) : (x.onC c f).hard = x.hard := by
  simp only [Tile.hard, Tile.onC, map_modify_eq Cluster.hard f h]

theorem Dev.hard_onC (d : Dev) (t c : Nat) (f : Cluster → Cluster) (h : ∀ k, (f k).hard = k.hard) : (d.onC t c f).hard = d.hard :=
  d.hard_onT t _ fun x => x.hard_onC c f h

/-- A change of a tile's soft part. -/
theorem aside_onT (d : Dev) (t : Nat) (f : Tile → Tile) (h : ∀ x, (f x).hard = x.hard) : d.Aside (d.onT t f) := .of (d.hard_onT t f h) rfl
theorem aside_onC (d : Dev) (t c : Nat) (f : Cluster → Cluster) (h : ∀ k, (f k).hard = k.hard) : d.Aside (d.onC t c f) := .of (d.hard_onC t c f h) rfl
theorem aside_onSeq (d : Dev) (t c : Nat) (f : ClSeq → ClSeq) (h : ∀ q, (f q).hard = q.hard) : d.Aside (d.onSeq t c f) :=
  aside_onC d t c _ fun k => by simp only [Cluster.hard, h]
theorem aside_onPal (d : Dev) (t : Nat) (f : Pallet → Pallet)
    (h : ∀ p, (f p).sent = p.sent ∧ (f p).ptr = p.ptr ∧ (f p).ptrLow = p.ptrLow ∧ (f p).rcpt = p.rcpt ∧ (f p).out = p.out) : d.Aside (d.onPal t f) :=
  aside_onT d t _ fun x => by
    obtain ⟨h1, h2, h3, h4, h5⟩ := h x.pal
    simp only [Tile.hard, h1, h2, h3, h4, h5]
theorem aside_onLog (d : Dev) (f : LogDev → LogDev) (h : (f d.log).hard = d.log.hard) : d.Aside (d.onLog f) := .of (by simp only [Dev.hard, Dev.onLog, h]) rfl
theorem aside_addTodo (d : Dev) (x : Todo) : d.Aside (d.addTodo x) := ⟨rfl, fun _ _ _ h => h, fun h => h⟩

/-! ### Cells -/

theorem Cell.hard_cancel (x : Cell) : ({ x with shed := .steady, shedRun := 0 } : Cell).hard = x.hard := rfl

theorem Cluster.hard_cells (k : Cluster) (f : Cell → Cell) (h : ∀ x, (f x).hard = x.hard) : ({ k with cells := k.cells.map f } : Cluster).hard = k.hard := by
  simp [Cluster.hard, Function.comp_def, h]

theorem aside_onR (d : Dev) (t c r : Nat) (f : Cell → Cell) (h : ∀ x, (f x).hard = x.hard) : d.Aside (d.onR t c r f) :=
  aside_onC d t c _ fun k => by simp only [Cluster.hard, map_modify_eq Cell.hard f h]

/-! ### Records -/

theorem LogDev.hard_store (l : LogDev) (r : Rec) : (l.store r).hard = l.hard := rfl
theorem LogDev.hard_setBucket (l : LogDev) (b : Bucket) : (l.setBucket b).hard = l.hard := rfl

/-- What a flush is started with does not reach the hard part. -/
theorem LogDev.hard_flush (l : LogDev) (n : Option Nat) (b : Bool) : ({ l with flush := n, again := b } : LogDev).hard = l.hard := rfl

theorem LogDev.hard_startFlush (l : LogDev) : l.startFlush.hard = l.hard := by
  unfold LogDev.startFlush
  refine (LogDev.hard_flush _ _ _).trans (foldl_keeps LogDev.hard _ ?_ _ _)
  intro l b
  split
  · split <;> rfl
  · rfl

theorem LogDev.hard_trigger (l : LogDev) (b : Bool) : (l.trigger b).hard = l.hard := by
  unfold LogDev.trigger
  repeat' split
  all_goals first | rfl | exact l.hard_startFlush

theorem LogDev.hard_triggerIf (p : Bool) (b : Bool) (l : LogDev) : (if p then l.trigger b else l).hard = l.hard := by
  split
  · exact l.hard_trigger b
  · rfl

theorem aside_log (d : Dev) (l : LogDev) (h : l.hard = d.log.hard) : d.Aside { d with log := l } := .of (by simp only [Dev.hard, h]) rfl

theorem LogDev.hard_granted (l : LogDev) (r : Rec) : (l.granted r).hard = l.hard := by
  unfold LogDev.granted
  repeat' split
  all_goals rfl

/-- Taking a record at once. -/
theorem aside_takeNow (r : Rec) (d : Dev) : d.Aside (takeNow r d) := by
  unfold takeNow
  dsimp only
  split
  · split
    · refine .trans (e := { d with log := _ }) (aside_log d _ ((LogDev.hard_triggerIf _ _ _).trans ?_)) (aside_addTodo _ _)
      exact LogDev.hard_granted d.log r
    · split
      · exact aside_log d _ ((LogDev.hard_triggerIf _ _ _).trans (LogDev.hard_granted d.log r))
      · exact aside_log d _ ((LogDev.hard_triggerIf _ _ _).trans (LogDev.hard_granted d.log r))
  · refine .trans (e := { d with log := _ }) (aside_log d _ ?_) (aside_addTodo _ _)
    split <;> split <;> exact LogDev.hard_granted d.log r

/-- Taking a record, or offering it. -/
theorem aside_takeRec (r : Rec) (d : Dev) : d.Aside (takeRec r d) := by
  unfold takeRec
  split
  · exact aside_log d _ rfl
  · exact aside_takeNow r d

theorem aside_takeOffered (n : Nat) (l : List Rec) (d : Dev) : d.Aside (takeOffered n l d) := by
  induction n generalizing l d with
  | zero => exact .refl d
  | succ n ih =>
    unfold takeOffered
    split
    · exact (aside_takeNow ..).trans (ih _ _)
    · exact .refl d

theorem aside_takeOffers (d : Dev) : d.Aside (takeOffers d) := (aside_onLog d _ rfl).trans (aside_takeOffered ..)

theorem aside_offering (d : Dev) : d.Aside d.offering := aside_log d _ rfl

/-! ### Faults -/

theorem aside_onLoop (d : Dev) (t c : Nat) (f : ClLoop → ClLoop) (h : ∀ l, ({ f l with cellev := 0 } : ClLoop) = { l with cellev := 0 }) : d.Aside (d.onLoop t c f) :=
  aside_onC d t c _ fun k => by simp only [Cluster.hard, h]

theorem aside_evBit (sub src : Nat) (sc : Scope) (d : Dev) : d.Aside (evBit sub src sc d) := by
  unfold evBit
  split
  · exact .of rfl rfl
  · split
    · exact .refl d
    · split
      · exact aside_onLoop d _ _ _ (by intro _; rfl)
      · exact aside_onT d _ _ (by intro _; rfl)
      · exact aside_onT d _ _ (by intro _; rfl)
      · exact aside_onC d _ _ _ (by intro _; rfl)
      · split
        · exact aside_onT d _ _ (by intro _; rfl)
        · split
          · exact aside_onT d _ _ (by intro _; rfl)
          · exact .refl d
      · exact aside_onT d _ _ (by intro _; rfl)
      all_goals exact .of rfl rfl

theorem Pend.is_level (p : Pend) (n : Nat) (b : Bool) (sub src : Nat) (sc : Scope) : Pend.is { p with level := n, capped := b } sub src sc = p.is sub src sc := rfl

theorem FaultDev.note_mono (f : FaultDev) (sub src : Nat) (sc : Scope) (l a b : Nat) (x : Scope) (h : f.pend.any (·.is a b x) = true) :
    (f.note sub src sc l).pend.any (·.is a b x) = true := by
  unfold FaultDev.note
  dsimp only
  split
  · rw [List.any_map]
    rw [List.any_eq_true] at h ⊢
    obtain ⟨p, hp, hi⟩ := h
    refine ⟨p, hp, ?_⟩
    simp only [Function.comp]
    split
    · exact hi
    · exact hi
  · rw [List.any_append, h, Bool.true_or]

theorem FaultDev.note_self (f : FaultDev) (sub src : Nat) (sc : Scope) (l : Nat) : (f.note sub src sc l).pend.any (·.is sub src sc) = true := by
  unfold FaultDev.note
  dsimp only
  split
  · rename_i h
    rw [List.any_map]
    rw [List.any_eq_true] at h ⊢
    obtain ⟨p, hp, hi⟩ := h
    refine ⟨p, hp, ?_⟩
    simp only [Function.comp, hi, if_true]
    exact hi
  · simp [List.any_append, Pend.is]

theorem aside_note (d : Dev) (sub src : Nat) (sc : Scope) (l : Nat) : d.Aside (d.onFlt fun f => f.note sub src sc l) :=
  ⟨rfl, fun a b x h => d.flt.note_mono sub src sc l a b x h, fun h => h⟩

theorem aside_tdeg (d : Dev) (t : Nat) : d.Aside (d.onFlt fun f => { f with tdeg := f.tdeg.set t true }) := ⟨rfl, fun _ _ _ h => h, fun h => h⟩

theorem setBit_again (w : Word) (i : Nat) : setBit (setBit w i) i = setBit w i := by
  unfold setBit
  rw [BitVec.or_assoc, BitVec.or_self]

/-- The marks of level 2 (R244). -/
theorem aside_marks (l : Nat) (sc : Scope) (d : Dev) : d.Aside (if l < 2 then d else
    match sc with
    | .cluster t c => d.onFus t c fun l => { l with degraded := true }
    | .tile t => (d.onFlt fun f => { f with tdeg := f.tdeg.set t true }).onRem t fun r => { r with ctrl := setBit r.ctrl 0 }
    | .device => d.onFlt fun f => { f with degraded := true }) := by
  split
  · exact .refl d
  · split
    · exact aside_onC d _ _ _ (by intro _; rfl)
    · exact .trans (aside_tdeg d _) (aside_onT _ _ _ (by intro _; simp only [Tile.hard, setBit_again]))
    · exact ⟨rfl, fun _ _ _ h => h, fun h => h⟩

/-- What levels 4 and 5 put on the work list (R246, R247). -/
theorem aside_acts (sub src l : Nat) (sc : Scope) (d : Dev) : d.Aside (if l < 4 then d else
    (match sc with
      | .cluster t c => d.addTodo (.isolate t c)
      | .tile t => (d.tl t).clsOn.foldl (fun d c => d.addTodo (.isolate t c)) d
      | .device => d).on (l == 5 || sc == Scope.device) fun d => d.addTodo (.safe sub src)) := by
  split
  · exact .refl d
  · refine .trans ?_ (.on _ (aside_addTodo _ _))
    split
    · exact aside_addTodo _ _
    · exact .fold _ _ _ fun e b => aside_addTodo e _
    · exact .refl d

theorem aside_levelActs (sub src l : Nat) (sc : Scope) (d : Dev) : d.Aside (levelActs sub src l sc d) :=
  (aside_marks l sc d).trans (aside_acts sub src l sc _)

/-- Raising a fault. -/
theorem aside_raiseIn (sub src : Nat) (sc : Scope) (tile cluster : Nat) (d0 d1 : Word) (reg phase : Option Nat) (aux : Nat) (d : Dev) :
    d.Aside (raiseIn sub src sc tile cluster d0 d1 reg phase aux d) := by
  unfold raiseIn
  dsimp only
  refine .trans (.trans (aside_evBit sub src sc d) (aside_note _ sub src sc (d.flt.levelOf sub src sc))) (.trans ?_ (aside_levelActs _ _ _ _ _))
  split
  · exact aside_takeRec _ _
  · exact .on _ (aside_onLog _ _ (LogDev.hard_trigger _ _))

/-- A fault that has been raised is pending. -/
theorem raiseIn_pends (sub src : Nat) (sc : Scope) (tile cluster : Nat) (d0 d1 : Word) (reg phase : Option Nat) (aux : Nat) (d : Dev) :
    (raiseIn sub src sc tile cluster d0 d1 reg phase aux d).pends sub src sc := by
  unfold raiseIn
  dsimp only
  refine (aside_levelActs _ _ _ _ _).pends _ _ _ ?_
  split
  · exact (aside_takeRec _ _).pends _ _ _ (FaultDev.note_self _ _ _ _ _)
  · exact (Dev.Aside.on _ (aside_onLog _ _ (LogDev.hard_trigger _ _))).pends _ _ _ (FaultDev.note_self _ _ _ _ _)

theorem aside_raise (sub src : Nat) (sc : Scope) (d0 : Word) (d : Dev) : d.Aside (raise sub src sc d0 d) := aside_raiseIn ..
theorem raise_pends (sub src : Nat) (sc : Scope) (d0 : Word) (d : Dev) : (raise sub src sc d0 d).pends sub src sc := raiseIn_pends ..
theorem aside_raiseCell (src t c : Nat) (reg phase : Option Nat) (d : Dev) : d.Aside (raiseCell src t c reg phase d) :=
  (aside_evBit ..).trans (aside_raiseIn ..)
theorem raiseCell_pends (src t c : Nat) (reg phase : Option Nat) (d : Dev) : (raiseCell src t c reg phase d).pends 1 src (.cluster t c) := raiseIn_pends ..

/-! ### Isolation, safe state -/

theorem aside_cancelSheds (t c : Nat) (d : Dev) : d.Aside (cancelSheds t c d) :=
  .fold _ _ _ fun e r => (aside_onR e t c r _ (by intro _; rfl)).trans (aside_raiseCell ..)

theorem aside_pushRest (t : Nat) (y : Pay) (d : Dev) : d.Aside (pushRest t y d) := aside_onPal d t _ (by intro _; exact ⟨rfl, rfl, rfl, rfl, rfl⟩)
theorem aside_bumpTnum (t : Nat) (d : Dev) : d.Aside (bumpTnum t d) := aside_onPal d t _ (by intro _; exact ⟨rfl, rfl, rfl, rfl, rfl⟩)
theorem aside_pushState (t c : Nat) (s : PState) (b : Bool) (d : Dev) : d.Aside (pushState t c s b d) :=
  (aside_onPal d t _ fun _ => by cases b <;> exact ⟨rfl, rfl, rfl, rfl, rfl⟩).trans (aside_bumpTnum _ _)
theorem aside_dropState (t c : Nat) (d : Dev) : d.Aside (dropState t c d) := aside_onPal d t _ (by intro _; exact ⟨rfl, rfl, rfl, rfl, rfl⟩)
theorem aside_bandEval (t c : Nat) (d : Dev) : d.Aside (bandEval t c d) := .on _ (aside_onC d t c _ (by intro _; rfl))
theorem aside_setEnd (t c : Nat) (tgt : Option Nat) (n : Nat) (d : Dev) : d.Aside (setEnd t c tgt n d) :=
  (aside_onC d t c _ (by intro _; rfl)).trans (.on _ (aside_bandEval ..))
theorem aside_leaveScores (t c : Nat) (d : Dev) : d.Aside (leaveScores t c d) := aside_onT d t _ (by intro _; rfl)

theorem aside_endStarted (t c : Nat) (d : Dev) (x : Trans) : d.Aside (endStarted t c d x) :=
  ((aside_onPal d t _ (by intro _; exact ⟨rfl, rfl, rfl, rfl, rfl⟩)).trans (aside_pushRest ..)).trans (aside_addTodo ..)

theorem aside_preemptCur (t c : Nat) (d : Dev) : d.Aside (preemptCur t c d) := by
  unfold preemptCur
  dsimp only
  split
  · exact .refl d
  · refine .trans (.trans (.on _ ?_) (aside_onSeq _ _ _ _ (by intro _; rfl))) (.fold _ _ _ fun e x => aside_endStarted t c e x)
    exact (aside_onSeq _ _ _ _ (by intro _; rfl)).trans (aside_bandEval ..)

theorem aside_endWaiting (t : Nat) (d : Dev) (p : Nat × Trans) : d.Aside (endWaiting t d p) := by
  unfold endWaiting
  dsimp only
  refine .trans ?_ (aside_addTodo _ _)
  refine .trans ?_ (aside_pushRest _ _ _)
  refine .trans ?_ (aside_onSeq _ _ _ _ (by intro _; rfl))
  split
  · exact .refl d
  · exact aside_bumpTnum _ _

theorem aside_preempt (t c : Nat) (p : Trans → Bool) (d : Dev) : d.Aside (preempt t c p d) :=
  (aside_preemptCur ..).trans (.fold _ _ _ fun e x => aside_endWaiting t e x)

theorem aside_preemptAll (t : Nat) (cs : List Nat) (d : Dev) : d.Aside (preemptAll t cs d) :=
  .trans (.fold _ _ _ fun e c => aside_preemptCur t c e) (.fold _ _ _ fun e x => aside_endWaiting t e x)

theorem aside_descend (t c : Nat) (into : PState) (b : Bool) (d : Dev) : d.Aside (descend t c into b d) := by
  have go : ∀ (tgt : Option Nat) (n : Nat) (e : Dev), e.Aside
      (if b then setEnd t c tgt n (e.onSeq t c fun q => { q with move := none }) else e.onSeq t c fun q => { q with move := some (tgt, n) }) := by
    intro tgt n e
    split
    · exact .trans (aside_onSeq e t c _ (by intro _; rfl)) (aside_setEnd ..)
    · exact aside_onSeq e t c _ (by intro _; rfl)
  unfold descend
  dsimp only
  refine .trans (aside_onSeq d t c (fun q => { q with st := into, chg := .descending into, fromOff := false, qtr := false, deferred := false, track := false, atarget := q.movedTo })
    (by intro _; rfl)) ?_
  generalize (d.onSeq t c fun q => { q with st := into, chg := .descending into, fromOff := false, qtr := false, deferred := false, track := false, atarget := q.movedTo }) = e
  split
  · exact aside_onSeq _ _ _ _ (by intro _; rfl)
  · split
    · exact aside_onSeq _ _ _ _ (by intro _; rfl)
    · exact aside_onSeq _ _ _ _ (by intro _; rfl)
    · exact go _ _ _
    · split
      · exact go _ _ _
      · exact go _ _ _
    · exact go _ _ _

theorem aside_enterForced (t c : Nat) (into : PState) (d : Dev) : d.Aside (enterForced t c into d) := by
  unfold enterForced
  dsimp only
  split
  · split
    · refine .trans ?_ (aside_setEnd _ _ _ _ _)
      refine .trans ?_ (aside_dropState _ _ _)
      exact aside_onSeq _ _ _ _ (by intro _; rfl)
    · split
      · refine .trans ?_ (aside_descend _ _ _ _ _)
        refine .trans ?_ (aside_dropState _ _ _)
        exact aside_onSeq _ _ _ _ (by intro _; rfl)
      · refine .trans ?_ (aside_onSeq _ _ _ _ (by intro _; rfl))
        refine .trans ?_ (aside_dropState _ _ _)
        exact aside_onSeq _ _ _ _ (by intro _; rfl)
  · split
    · split
      · exact .trans (.trans (aside_onSeq _ _ _ _ (by intro _; rfl)) (aside_dropState ..)) (aside_pushState ..)
      · exact .on _ (aside_setEnd ..)
    · refine .trans ?_ (aside_leaveScores _ _ _)
      refine .trans ?_ (aside_descend _ _ _ _ _)
      refine .trans ?_ (aside_pushState _ _ _ _ _)
      refine .trans ?_ (aside_cancelSheds _ _ _)
      exact aside_dropState _ _ _

theorem aside_gen (d : Dev) (n t c : Nat) : d.Aside (d.onFlt fun f => { f with gen := (f.gen + 1) % n, isoTile := t, isoCluster := c }) :=
  ⟨rfl, fun _ _ _ h => h, fun h => h⟩

theorem aside_setTrust (t : Nat) (v : Int) (d : Dev) : d.Aside (setTrust t v d) := by
  unfold setTrust
  dsimp only
  refine .trans (aside_onT d t (fun x => { x with esc := { x.esc with trust := (clampI 0 16 v).toNat } }) (by intro _; rfl)) ?_
  split
  · exact aside_raise ..
  · split
    · exact aside_takeRec ..
    · exact .refl _

theorem aside_trustRelease (t : Nat) (d : Dev) : d.Aside (trustRelease t d) := by
  unfold trustRelease
  dsimp only
  split
  · exact .refl d
  · exact (aside_onT d t _ (by intro _; rfl)).trans (.on _ (aside_setTrust ..))

theorem aside_guardMoves (t c : Nat) (d : Dev) : d.Aside (guardMoves t c d) := by
  unfold guardMoves moveGuard
  dsimp only
  refine .trans (aside_onC d t c _ ?_) (.on _ (aside_onC _ _ _ _ (by intro _; rfl)))
  intro k
  split <;> rfl

theorem aside_holdInB1 (t c : Nat) (d : Dev) : d.Aside (holdInB1 t c d) := by
  unfold holdInB1
  dsimp only
  refine .trans ((aside_onSeq _ _ _ _ ?_).trans (aside_dropState _ _ _)) (.on _ ((aside_onSeq _ _ _ _ (by intro _; rfl)).trans (aside_pushState ..)))
  intro q
  rfl

theorem aside_isolateState (t c : Nat) (newly : Bool) (d : Dev) : d.Aside (isolateState t c newly d) := by
  unfold isolateState
  dsimp only
  split
  · split
    · exact .on _ (aside_holdInB1 ..)
    · exact aside_enterForced ..
  · exact .trans (.on _ (aside_pushState ..)) (aside_enterForced ..)

theorem aside_isolateOne (t c : Nat) (d : Dev) : d.Aside (isolateOne t c d) := by
  unfold isolateOne
  dsimp only
  split
  · exact .refl d
  · refine .trans (.trans ?_ (aside_guardMoves _ _ _)) (aside_isolateState _ _ _ _)
    split
    · exact .refl d
    · refine .trans ?_ (aside_gen _ _ _ _)
      refine .trans ?_ (aside_trustRelease _ _)
      refine .trans ?_ (aside_onT _ _ _ (by intro _; rfl))
      refine .trans ?_ (aside_onC _ _ _ _ (by intro _; rfl))
      exact aside_preempt _ _ _ _

theorem aside_isolate (t c : Nat) (d : Dev) : d.Aside (isolate t c d) := by
  unfold isolate
  dsimp only
  refine .trans (e := if _ then _ else _) ?_ (.fold _ _ _ fun e b => aside_isolateOne ..)
  split
  · exact aside_onT d t _ (by intro _; rfl)
  · exact .refl d

theorem aside_safe (d : Dev) (sub src : Nat) : d.Aside (d.onFlt fun f => { f with safe := true, safeSub := sub, safeSrc := src }) :=
  ⟨rfl, fun _ _ _ h => h, fun _ => rfl⟩

theorem aside_enterSafe (sub src : Nat) (d : Dev) : d.Aside (enterSafe sub src d) := by
  unfold enterSafe
  split
  · exact .refl d
  · refine .trans (aside_safe d sub src) ?_
    unfold lowestAll Dev.eachT
    exact (aside_offering _).trans <| .fold _ _ _ fun e t => (aside_preemptAll ..).trans (.fold _ _ _ fun e c => aside_enterForced t c _ e)

theorem aside_runTodo (x : Todo) (d : Dev) : d.Aside (runTodo x d) := by
  cases x
  · exact aside_raise ..
  · exact aside_isolate ..
  · exact aside_enterSafe ..

theorem aside_setTodo (d : Dev) (l : List Todo) : d.Aside (d.onFlt fun f => { f with todo := l }) := ⟨rfl, fun _ _ _ h => h, fun h => h⟩

theorem aside_runTodos (n : Nat) (d : Dev) : d.Aside (runTodos n d) := by
  induction n generalizing d with
  | zero => exact aside_setTodo d []
  | succ n ih =>
    unfold runTodos
    split
    · exact .refl d
    · exact (aside_setTodo d _).trans ((aside_runTodo ..).trans (ih _))

theorem aside_closing (n : Nat) (d : Dev) : d.Aside (closing n d) := by
  induction n generalizing d with
  | zero => exact (aside_runTodos ..).trans (aside_onLog _ _ rfl)
  | succ n ih =>
    unfold closing
    dsimp only
    split
    · exact aside_runTodos ..
    · exact (aside_runTodos ..).trans ((aside_takeOffers _).trans (ih _))

/-! ### The closing -/

theorem aside_ev (k : CoreId) (n : Nat) (d : Dev) : d.Aside (ev k n d) := by
  unfold ev
  cases k with
  | ridge =>
    refine .of ?_ rfl
    simp only [Dev.onCore, Dev.hard]
    split <;> rfl
  | rafter t => exact aside_onT d t _ fun x => by simp only [Tile.hard]; split <;> rfl

theorem aside_edgeEvents (old d : Dev) : d.Aside (edgeEvents old d) :=
  .fold _ _ _ fun _ _ => .trans (.on _ (aside_ev ..)) (.on _ ((aside_ev ..).trans (aside_ev ..)))

theorem Pallet.putLimit_keeps (p : Pallet) (k a b : Nat) :
    (p.putLimit k a b).sent = p.sent ∧ (p.putLimit k a b).ptr = p.ptr ∧ (p.putLimit k a b).ptrLow = p.ptrLow ∧ (p.putLimit k a b).rcpt = p.rcpt ∧
      (p.putLimit k a b).out = p.out := by
  unfold Pallet.putLimit
  dsimp only
  split <;> exact ⟨rfl, rfl, rfl, rfl, rfl⟩

theorem aside_syncTile (m0 : List Host.Cell) (old : Dev) (m : List Host.Cell) (t : Nat) (d : Dev) : d.Aside (syncTile m0 old m t d) := by
  unfold syncTile
  dsimp only
  split
  · exact .refl d
  · refine aside_onPal d t _ fun p => ?_
    generalize (d.tl t).cores = l
    induction l generalizing p with
    | nil => exact ⟨rfl, rfl, rfl, rfl, rfl⟩
    | cons k l ih =>
      rw [List.foldl_cons]
      have h := ih (if limNow m0 old t k = limNow m d t k then p else p.putLimit k (limNow m0 old t k) (limNow m d t k))
      have g : ∀ q : Pallet, q = (if limNow m0 old t k = limNow m d t k then p else p.putLimit k (limNow m0 old t k) (limNow m d t k)) →
          q.sent = p.sent ∧ q.ptr = p.ptr ∧ q.ptrLow = p.ptrLow ∧ q.rcpt = p.rcpt ∧ q.out = p.out := by
        intro q hq
        subst hq
        split
        · exact ⟨rfl, rfl, rfl, rfl, rfl⟩
        · exact p.putLimit_keeps ..
      obtain ⟨a1, a2, a3, a4, a5⟩ := h
      obtain ⟨b1, b2, b3, b4, b5⟩ := g _ rfl
      exact ⟨a1.trans b1, a2.trans b2, a3.trans b3, a4.trans b4, a5.trans b5⟩

theorem aside_syncAll (m0 : List Host.Cell) (old : Dev) (m : List Host.Cell) (d : Dev) : d.Aside (syncAll m0 old m d) :=
  .fold _ _ _ fun _ _ => aside_syncTile ..

/-- The closing of a command changes nothing but what `Dev.hard` leaves out. -/
theorem aside_settle (m0 : List Host.Cell) (old : Dev) (m : List Host.Cell) (d : Dev) : d.Aside (settle m0 old m d) :=
  ((aside_closing ..).trans (aside_edgeEvents ..)).trans (aside_syncAll ..)

/-- Every command that ends in `finM` or `fin` ends in the block it made, but for the closing. -/
theorem finM_aside (s : State) (m : List Host.Cell) (d : Dev) :
    ∃ t, finM s m d = .next t ∧ d.Aside t.dev ∧ t.mem = m ∧ t.pending = s.pending ∧ t.dev.flt.todo = [] ∧ t.dev.log.offers = none :=
  ⟨_, finM_next s m d, aside_settle .., rfl, rfl, settle_todo .., settle_offers ..⟩
theorem fin_aside (s : State) (d : Dev) :
    ∃ t, fin s d = .next t ∧ d.Aside t.dev ∧ t.mem = s.mem ∧ t.pending = s.pending ∧ t.dev.flt.todo = [] ∧ t.dev.log.offers = none :=
  finM_aside s s.mem d

/-! ### Reading the hard part -/

theorem Dev.hard_tl (d : Dev) (t : Nat) : d.hard.tl t = (d.tl t).hard := by
  have h : ({} : Tile) = ({} : Tile).hard := rfl
  simp only [Dev.tl, Dev.hard, List.getD_eq_getElem?_getD, List.getElem?_map]
  cases d.tiles[t]? with
  | none => exact h
  | some x => rfl

theorem Tile.hard_cl (x : Tile) (c : Nat) : x.hard.clusters.getD c {} = (x.clusters.getD c {}).hard := by
  have h : ({} : Cluster) = ({} : Cluster).hard := rfl
  simp only [Tile.hard, List.getD_eq_getElem?_getD, List.getElem?_map]
  cases x.clusters[c]? with
  | none => exact h
  | some x => rfl

theorem Cluster.hard_cell (k : Cluster) (r : Nat) : k.hard.cell r = (k.cell r).hard := by
  have h : ({} : Cell) = ({} : Cell).hard := rfl
  simp only [Cluster.hard, Cluster.cell, List.getD_eq_getElem?_getD, List.getElem?_map]
  cases k.cells[r]? with
  | none => exact h
  | some x => rfl

/-- A tile, a cluster and a cell after the closing of a command, but for their soft parts. -/
theorem Dev.Aside.tl {d e : Dev} (h : d.Aside e) (t : Nat) : (e.tl t).hard = (d.tl t).hard := by rw [← Dev.hard_tl, h.hard, Dev.hard_tl]
theorem Dev.Aside.cl {d e : Dev} (h : d.Aside e) (t c : Nat) : (e.cl t c).hard = (d.cl t c).hard := by
  simp only [Dev.cl]
  rw [← Tile.hard_cl, h.tl, Tile.hard_cl]
theorem Dev.Aside.cell {d e : Dev} (h : d.Aside e) (t c r : Nat) : ((e.cl t c).cell r).hard = ((d.cl t c).cell r).hard := by
  rw [← Cluster.hard_cell, h.cl, Cluster.hard_cell]

/-! ### Everything but the ports' queues -/

theorem butPallets_onPal (d : Dev) (t : Nat) (f : Pallet → Pallet) : (d.onPal t f).butPallets = d.butPallets := by
  simp only [Dev.butPallets, Dev.onPal, Dev.onT]
  rw [map_modify_eq]
  intro x
  rfl

/-- Limits that have changed reach nothing but the ports' queues. -/
theorem butPallets_syncAll (m0 : List Host.Cell) (old : Dev) (m : List Host.Cell) (d : Dev) : (syncAll m0 old m d).butPallets = d.butPallets :=
  syncAll_keeps Dev.butPallets butPallets_onPal m0 old m d

/-! ### A change made after what the closing may add -/

theorem map_modify_congr {α β : Type} (g : α → β) (f : α → α) (hf : ∀ x y, g x = g y → g (f x) = g (f y)) :
    ∀ (l m : List α) (n : Nat), l.map g = m.map g → (l.modify n f).map g = (m.modify n f).map g := by
  intro l
  induction l with
  | nil =>
    intro m n h
    cases m with
    | nil => rfl
    | cons => simp at h
  | cons a l ih =>
    intro m n h
    cases m with
    | nil => simp at h
    | cons b m =>
      simp only [List.map_cons, List.cons.injEq] at h
      cases n with
      | zero => simp only [List.modify_zero_cons, List.map_cons, h.2, hf a b h.1]
      | succ n => simp only [List.modify_succ_cons, List.map_cons, h.1, ih m n h.2]

/-- A change of a device part that leaves the fault unit alone and treats alike what differs in soft parts only. -/
theorem Dev.Aside.change {d e : Dev} (h : d.Aside e) (f : Dev → Dev) (hf : ∀ d e : Dev, d.hard = e.hard → (f d).hard = (f e).hard)
    (hp : ∀ d, (f d).flt = d.flt) : (f d).Aside (f e) :=
  ⟨hf _ _ h.hard, fun a b x y => by have := h.pends a b x (by simpa [Dev.pends, hp] using y); simpa [Dev.pends, hp] using this, fun y => by
    have := h.safe (by simpa [hp] using y); simpa [hp] using this⟩

/-- `d` with other tiles, `x` with other clusters: as functions, so that a rewrite reaches their argument once. -/
def Dev.putTiles (d : Dev) (l : List Tile) : Dev := { d with tiles := l }
def Tile.putClusters (x : Tile) (l : List Cluster) : Tile := { x with clusters := l }
def Dev.putXtrig (d : Dev) (l : List Nat) : Dev := { d with xtrig := l }
theorem Dev.hard_putTiles (d : Dev) (l : List Tile) : (d.putTiles l).hard = d.hard.putTiles (l.map Tile.hard) := rfl
theorem Tile.hard_putClusters (x : Tile) (l : List Cluster) : (x.putClusters l).hard = x.hard.putClusters (l.map Cluster.hard) := rfl
theorem Dev.hard_putXtrig (d : Dev) (l : List Nat) : (d.putXtrig l).hard = d.hard.putXtrig l := rfl

theorem Dev.hard_eta {d e : Dev} (h : d.hard = e.hard) (l m : List Tile) (hl : l.map Tile.hard = m.map Tile.hard) :
    (d.putTiles l).hard = (e.putTiles m).hard := by
  rw [Dev.hard_putTiles, Dev.hard_putTiles, h, hl]

theorem Dev.hard_tiles {d e : Dev} (h : d.hard = e.hard) : d.tiles.map Tile.hard = e.tiles.map Tile.hard := congrArg Dev.tiles h

theorem Dev.hard_onT_congr {d e : Dev} (h : d.hard = e.hard) (t : Nat) (f : Tile → Tile) (hf : ∀ x y, x.hard = y.hard → (f x).hard = (f y).hard) :
    (d.onT t f).hard = (e.onT t f).hard := Dev.hard_eta h _ _ (map_modify_congr _ f hf _ _ _ (Dev.hard_tiles h))

theorem Tile.hard_onC_congr {x y : Tile} (h : x.hard = y.hard) (c : Nat) (f : Cluster → Cluster) (hf : ∀ k l, k.hard = l.hard → (f k).hard = (f l).hard) :
    (x.onC c f).hard = (y.onC c f).hard := by
  show (x.putClusters _).hard = (y.putClusters _).hard
  rw [Tile.hard_putClusters, Tile.hard_putClusters, h, map_modify_congr Cluster.hard f hf x.clusters y.clusters c (congrArg Tile.clusters h)]

theorem Dev.Aside.onT {d e : Dev} (h : d.Aside e) (t : Nat) (f : Tile → Tile) (hf : ∀ x y, x.hard = y.hard → (f x).hard = (f y).hard) :
    (d.onT t f).Aside (e.onT t f) := h.change (·.onT t f) (fun _ _ g => Dev.hard_onT_congr g t f hf) fun _ => rfl

theorem Dev.Aside.onC {d e : Dev} (h : d.Aside e) (t c : Nat) (f : Cluster → Cluster) (hf : ∀ k l, k.hard = l.hard → (f k).hard = (f l).hard) :
    (d.onC t c f).Aside (e.onC t c f) := h.onT t _ fun _ _ g => Tile.hard_onC_congr g c f hf

theorem Dev.Aside.trace {d e : Dev} (h : d.Aside e) (t : Nat) : (e.tl t).trace = (d.tl t).trace := congrArg (·.trace) (h.tl t)

theorem idxs_congr {α β : Type} (g : α → β) (p : α → Bool) (hp : ∀ x y, g x = g y → p x = p y) :
    ∀ (l m : List α) (n : Nat), l.map g = m.map g → idxs p n l = idxs p n m := by
  intro l
  induction l with
  | nil => intro m n h; cases m with | nil => rfl | cons => simp at h
  | cons a l ih =>
    intro m n h
    cases m with
    | nil => simp at h
    | cons b m =>
      simp only [List.map_cons, List.cons.injEq] at h
      simp only [idxs, hp a b h.1, ih m _ h.2]

theorem Dev.hard_tilesOn {d e : Dev} (h : d.hard = e.hard) : d.tilesOn = e.tilesOn :=
  idxs_congr Tile.hard _ (fun x y g => by have := congrArg Tile.present g; exact this) _ _ _ (Dev.hard_tiles h)

/-- A change of a tile's trace. -/
theorem Dev.hard_onTrc_congr {d e : Dev} (h : d.hard = e.hard) (t : Nat) (f : Trace → Trace) : (d.onTrc t f).hard = (e.onTrc t f).hard :=
  Dev.hard_onT_congr h t _ fun x y k => by
    have q : ∀ x : Tile, ({ x with trace := f x.trace } : Tile).hard = { x.hard with trace := f x.hard.trace } := fun _ => rfl
    rw [q, q, k]

/-- A trigger event (R134). -/
theorem Dev.Aside.trcFireAt {d e : Dev} (h : d.Aside e) (t ns : Nat) (own : Bool) : (trcFireAt t ns own d).Aside (trcFireAt t ns own e) := by
  refine h.change _ ?_ ?_
  · intro d e g
    have ht : (d.tl t).trace = (e.tl t).trace := by
      have := congrArg (·.trace) ((Dev.hard_tl d t).symm.trans ((congrArg (Dev.tl · t) g).trans (Dev.hard_tl e t)))
      exact this
    have hx : d.xtrig = e.xtrig := by have := congrArg Dev.xtrig g; exact this
    unfold Machine.trcFireAt
    dsimp only
    rw [ht]
    split
    · split
      · show (Dev.putXtrig _ _).hard = (Dev.putXtrig _ _).hard
        rw [Dev.hard_putXtrig, Dev.hard_putXtrig, Dev.hard_onTrc_congr g, Dev.hard_tilesOn (Dev.hard_onTrc_congr g t _)]
        exact congrArg (fun l => Dev.putXtrig _ (l ++ _)) hx
      · exact Dev.hard_onTrc_congr g t _
    · split
      · exact Dev.hard_onTrc_congr g t _
      · exact g
  · intro d
    unfold Machine.trcFireAt
    dsimp only
    split
    · split <;> rfl
    · split <;> rfl

theorem Dev.Aside.trcEvent {d e : Dev} (h : d.Aside e) (t c n : Nat) : (trcEvent t c n d).Aside (trcEvent t c n e) := by
  have hk : e.clk = d.clk := by have := congrArg Dev.clk h.hard; exact this
  unfold Machine.trcEvent Machine.trcEventAt
  dsimp only
  rw [hk]
  rw [h.trace t]
  cases (fld (d.tl t).trace.trig 3 0 == n && fld (d.tl t).trace.cfg 4 0 == c)
  · exact h
  · exact h.trcFireAt t _ true

theorem trcEvent_pends (t c n : Nat) (d : Dev) (a b : Nat) (x : Scope) (h : d.pends a b x) : (trcEvent t c n d).pends a b x := by
  have hf : (trcEvent t c n d).flt = d.flt := by
    unfold trcEvent trcEventAt trcFireAt
    dsimp only
    cases (fld (d.tl t).trace.trig 3 0 == n && fld (d.tl t).trace.cfg 4 0 == c)
    · rfl
    · simp only [Dev.on_true]
      split
      · split <;> rfl
      · split <;> rfl
  simpa [Dev.pends, hf] using h

end Sys2Proof.Machine
end

