-- ==== Sys2Proof/Laws/Core.lean ====
section
/-!
SUPPORT. Sys2Proof/Laws/Core.lean: a register written and read back, what a write of a general register leaves, and the shape that an instruction on one
core ends in.
-/
namespace Sys2Proof.Machine

/-! ### A general register written -/

@[simp] theorem Core.wr_on (x : Core) (i : Nat) (v : Word) : (x.wr i v).on = x.on := by unfold Core.wr; split <;> rfl
@[simp] theorem Core.wr_halted (x : Core) (i : Nat) (v : Word) : (x.wr i v).halted = x.halted := by unfold Core.wr; split <;> rfl
@[simp] theorem Core.wr_stopped (x : Core) (i : Nat) (v : Word) : (x.wr i v).stopped = x.stopped := by unfold Core.wr; split <;> rfl
@[simp] theorem Core.wr_checking (x : Core) (i : Nat) (v : Word) : (x.wr i v).checking = x.checking := by unfold Core.wr; split <;> rfl
@[simp] theorem Core.wr_dead (x : Core) (i : Nat) (v : Word) : (x.wr i v).dead = x.dead := by unfold Core.wr; split <;> rfl
@[simp] theorem Core.wr_pc (x : Core) (i : Nat) (v : Word) : (x.wr i v).pc = x.pc := by unfold Core.wr; split <;> rfl
@[simp] theorem Core.wr_z (x : Core) (i : Nat) (v : Word) : (x.wr i v).z = x.z := by unfold Core.wr; split <;> rfl
@[simp] theorem Core.wr_n (x : Core) (i : Nat) (v : Word) : (x.wr i v).n = x.n := by unfold Core.wr; split <;> rfl
@[simp] theorem Core.wr_c (x : Core) (i : Nat) (v : Word) : (x.wr i v).c = x.c := by unfold Core.wr; split <;> rfl
@[simp] theorem Core.wr_v (x : Core) (i : Nat) (v : Word) : (x.wr i v).v = x.v := by unfold Core.wr; split <;> rfl
@[simp] theorem Core.wr_e (x : Core) (i : Nat) (v : Word) : (x.wr i v).e = x.e := by unfold Core.wr; split <;> rfl
@[simp] theorem Core.wr_fails (x : Core) (i : Nat) (v : Word) : (x.wr i v).fails = x.fails := by unfold Core.wr; split <;> rfl
@[simp] theorem Core.wr_errOp (x : Core) (i : Nat) (v : Word) : (x.wr i v).errOp = x.errOp := by unfold Core.wr; split <;> rfl
@[simp] theorem Core.wr_errStatus (x : Core) (i : Nat) (v : Word) : (x.wr i v).errStatus = x.errStatus := by unfold Core.wr; split <;> rfl
@[simp] theorem Core.wr_evmask (x : Core) (i : Nat) (v : Word) : (x.wr i v).evmask = x.evmask := by unfold Core.wr; split <;> rfl
@[simp] theorem Core.wr_evpend (x : Core) (i : Nat) (v : Word) : (x.wr i v).evpend = x.evpend := by unfold Core.wr; split <;> rfl
@[simp] theorem Core.wr_active (x : Core) (i : Nat) (v : Word) : (x.wr i v).active = x.active := by unfold Core.wr; split <;> rfl
@[simp] theorem Core.wr_cause (x : Core) (i : Nat) (v : Word) : (x.wr i v).cause = x.cause := by unfold Core.wr; split <;> rfl
@[simp] theorem Core.wr_epc (x : Core) (i : Nat) (v : Word) : (x.wr i v).epc = x.epc := by unfold Core.wr; split <;> rfl
@[simp] theorem Core.wr_eflags (x : Core) (i : Nat) (v : Word) : (x.wr i v).eflags = x.eflags := by unfold Core.wr; split <;> rfl
@[simp] theorem Core.wr_evbase (x : Core) (i : Nat) (v : Word) : (x.wr i v).evbase = x.evbase := by unfold Core.wr; split <;> rfl
@[simp] theorem Core.wr_period (x : Core) (i : Nat) (v : Word) : (x.wr i v).period = x.period := by unfold Core.wr; split <;> rfl
@[simp] theorem Core.wr_periodE (x : Core) (i : Nat) (v : Word) : (x.wr i v).periodE = x.periodE := by unfold Core.wr; split <;> rfl
@[simp] theorem Core.wr_wd (x : Core) (i : Nat) (v : Word) : (x.wr i v).wd = x.wd := by unfold Core.wr; split <;> rfl
@[simp] theorem Core.wr_wdDue (x : Core) (i : Nat) (v : Word) : (x.wr i v).wdDue = x.wdDue := by unfold Core.wr; split <;> rfl
@[simp] theorem Core.wr_tcmp (x : Core) (i : Nat) (v : Word) : (x.wr i v).tcmp = x.tcmp := by unfold Core.wr; split <;> rfl
@[simp] theorem Core.wr_timer (x : Core) (i : Nat) (v : Word) : (x.wr i v).timer = x.timer := by unfold Core.wr; split <;> rfl
@[simp] theorem Core.wr_cycle (x : Core) (i : Nat) (v : Word) : (x.wr i v).cycle = x.cycle := by unfold Core.wr; split <;> rfl
@[simp] theorem Core.wr_lref (x : Core) (i : Nat) (v : Word) : (x.wr i v).lref = x.lref := by unfold Core.wr; split <;> rfl
@[simp] theorem Core.wr_lrlost (x : Core) (i : Nat) (v : Word) : (x.wr i v).lrlost = x.lrlost := by unfold Core.wr; split <;> rfl
@[simp] theorem Core.wr_inq (x : Core) (i : Nat) (v : Word) : (x.wr i v).inq = x.inq := by unfold Core.wr; split <;> rfl
@[simp] theorem Core.wr_outq (x : Core) (i : Nat) (v : Word) : (x.wr i v).outq = x.outq := by unfold Core.wr; split <;> rfl
@[simp] theorem Core.wr_rcause (x : Core) (i : Nat) (v : Word) : (x.wr i v).rcause = x.rcause := by unfold Core.wr; split <;> rfl
@[simp] theorem Core.wr_waiting (x : Core) (i : Nat) (v : Word) : (x.wr i v).waiting = x.waiting := by unfold Core.wr; split <;> rfl
@[simp] theorem Core.wr_loaded (x : Core) (i : Nat) (v : Word) : (x.wr i v).loaded = x.loaded := by unfold Core.wr; split <;> rfl
@[simp] theorem Core.wr_tag (x : Core) (i : Nat) (v : Word) : (x.wr i v).tag = x.tag := by unfold Core.wr; split <;> rfl
@[simp] theorem Core.wr_chk (x : Core) (i : Nat) (v : Word) : (x.wr i v).chk = x.chk := by unfold Core.wr; split <;> rfl
@[simp] theorem Core.wr_dirty (x : Core) (i : Nat) (v : Word) : (x.wr i v).dirty = x.dirty := by unfold Core.wr; split <;> rfl
@[simp] theorem Core.wr_epochs (x : Core) (i : Nat) (v : Word) : (x.wr i v).epochs = x.epochs := by unfold Core.wr; split <;> rfl

@[simp] theorem Core.rd_wr_self (x : Core) (i : Nat) (v : Word) (h : i % 16 ≠ 0) : (x.wr i v).rd i = v := by simp [Core.rd, Core.wr, h]
theorem Core.rd_wr_ne (x : Core) (i j : Nat) (v : Word) (h : i % 16 ≠ j % 16) : (x.wr i v).rd j = x.rd j := by
  simp only [Core.rd, Core.wr]
  split
  · rfl
  · split
    · rfl
    · simp [h]

/-! ### Overflow -/

theorem overflow_eq (x : Int) : overflow x = decide (x < -2 ^ 31 ∨ 2 ^ 31 ≤ x) := by
  rw [Bool.eq_iff_iff]
  simp only [overflow, Bool.or_eq_true, decide_eq_true_eq]
  omega

/-! ### An instruction on one core -/

/-- An instruction that changes its own core alone, where the core is ready. -/
theorem onReady_next {s : State} {k : CoreId} (f : Core → Core) (h : s.dev.rests) (hr : s.dev.ready k = true) :
    onReady k f s = .next { s with dev := s.dev.onCore k f } := by
  simp only [onReady, hr, Dev.on_true, fin_next, settle_core s.mem s.dev k f h]

/-- An instruction where the core is not ready. -/
theorem onReady_idle {s : State} {k : CoreId} (f : Core → Core) (h : s.dev.rests) (hr : s.dev.ready k = false) : onReady k f s = .next s := by
  simp only [onReady, hr, Dev.on_false, fin_next, settle_none s.mem h]

/-- A statused instruction where the core is not ready. -/
theorem onStatus_idle {s : State} {k : CoreId} {op : Nat} (f : List Host.Cell → Dev → Nat × List Host.Cell × Dev) (h : s.dev.rests)
    (hr : s.dev.ready k = false) : onStatus k op f s = .next s := by
  simp only [onStatus, hr, Bool.false_eq_true, if_false, fin_next, settle_none s.mem h]

/-- A statused instruction where the core is ready. -/
theorem onStatus_ready {s : State} {k : CoreId} {op : Nat} (f : List Host.Cell → Dev → Nat × List Host.Cell × Dev) (hr : s.dev.ready k = true) :
    onStatus k op f s = finM s (f s.mem s.dev).2.1 ((f s.mem s.dev).2.2.onCore k fun x => (x.status op (f s.mem s.dev).1).next 1) := by
  simp only [onStatus, hr, if_true]

end Sys2Proof.Machine
end

