-- ==== Sys2Proof/Laws/Forms.lean ====
section
/-!
SUPPORT. Sys2Proof/Laws/Forms.lean: how a statement about a command follows from the block its meaning makes.
-/
namespace Sys2Proof.Machine

theorem State.gives_of {s : State} {i : Instr} {e d : Dev} (h : exec i s = fin s e) (hs : settle s.mem s.dev s.mem e = d) : s.gives i d := by
  unfold State.gives
  rw [h, fin_next, hs]

theorem State.leads_of {s : State} {i : Instr} {e d : Dev} {l : List (Nat × Nat × Scope)} (h : exec i s = fin s e) (ha : d.Aside e)
    (hl : ∀ f ∈ l, e.pends f.1 f.2.1 f.2.2) : s.leads i d l := by
  obtain ⟨t, ht, h1, h2, h3, -⟩ := fin_aside s e
  exact ⟨t, h.trans ht, h2, h3, ha.trans h1, fun f hf => h1.pends _ _ _ (hl f hf)⟩

theorem State.makes_of {s : State} {i : Instr} {e : Dev} {p : Dev → Prop} (h : exec i s = fin s e) (hp : ∀ d, e.Aside d → p d) : s.makes i p := by
  obtain ⟨t, ht, h1, h2, h3, -⟩ := fin_aside s e
  exact ⟨t, h.trans ht, h2, h3, hp _ h1⟩

/-! ### Changes that close with nothing more to do -/

/-- `d` is `old` but for what no limit, no window and no trace event looks at, and nothing has been put on the work list or offered. -/
structure Dev.Calm (old d : Dev) : Prop where
  todo : d.flt.todo = old.flt.todo
  offers : d.log.offers = old.log.offers
  lad : old.bud.ladcfg = d.bud.ladcfg
  tiles : ∀ t, (old.tl t).clusters.map (Cluster.seen old) = (d.tl t).clusters.map (Cluster.seen old) ∧ (old.tl t).trace.st = (d.tl t).trace.st ∧
      (old.tl t).cmap = (d.tl t).cmap ∧ (old.tl t).fmaxBad = (d.tl t).fmaxBad ∧ (old.tl t).fmaxOld = (d.tl t).fmaxOld

theorem Dev.Calm.refl (d : Dev) : d.Calm d := ⟨rfl, rfl, rfl, fun _ => ⟨rfl, rfl, rfl, rfl, rfl⟩⟩

theorem Dev.Calm.settle {old d : Dev} (h : old.Calm d) (m : List Host.Cell) (ht : old.rests) : settle m old m d = d :=
  settle_seen m ⟨h.todo.trans ht.1, h.offers.trans ht.2⟩ h.lad h.tiles

theorem Dev.Calm.onT {old d : Dev} (h : old.Calm d) (t : Nat) (f : Tile → Tile)
    (hf : ∀ x, (f x).clusters.map (Cluster.seen old) = x.clusters.map (Cluster.seen old) ∧ (f x).trace.st = x.trace.st ∧ (f x).cmap = x.cmap ∧
      (f x).fmaxBad = x.fmaxBad ∧ (f x).fmaxOld = x.fmaxOld) : old.Calm (d.onT t f) := by
  refine ⟨by simpa using h.todo, by simpa using h.offers, by simpa using h.lad, fun u => ?_⟩
  obtain ⟨a1, a2, a3, a4, a5⟩ := h.tiles u
  simp only [Dev.tl_onT]
  split
  · obtain ⟨h1, h2, h3, h4, h5⟩ := hf (d.tl u)
    exact ⟨a1.trans h1.symm, a2.trans h2.symm, a3.trans h3.symm, a4.trans h4.symm, a5.trans h5.symm⟩
  · exact ⟨a1, a2, a3, a4, a5⟩

theorem Dev.Calm.onC {old d : Dev} (h : old.Calm d) (t c : Nat) (f : Cluster → Cluster) (hf : ∀ k, (f k).seen old = k.seen old) : old.Calm (d.onC t c f) :=
  h.onT t _ fun _ => ⟨map_modify_eq _ _ hf _ _, rfl, rfl, rfl, rfl⟩

theorem Dev.Calm.onR {old d : Dev} (h : old.Calm d) (t c r : Nat) (f : Cell → Cell) : old.Calm (d.onR t c r f) := h.onC t c _ fun _ => rfl

/-- A change of the device's own parts. -/
theorem Dev.Calm.dev {old d e : Dev} (h : old.Calm d) (h1 : e.flt.todo = d.flt.todo) (h0 : e.log.offers = d.log.offers)
    (h2 : e.bud.ladcfg = d.bud.ladcfg) (h3 : e.tiles = d.tiles) : old.Calm e :=
  ⟨h1.trans h.todo, h0.trans h.offers, h.lad.trans h2.symm, fun t => by simpa only [Dev.tl, h3] using h.tiles t⟩

theorem State.gives_calm {s : State} {i : Instr} {d : Dev} (h : exec i s = fin s d) (hi : s.Inv) (hc : s.dev.Calm d) : s.gives i d :=
  gives_of h (hc.settle s.mem hi.2)

/-! ### A cluster, a cell or a tile changed where no limit and no window looks -/

theorem seen_of {d : Dev} {k l : Cluster} (h1 : l.esc.wins = k.esc.wins) (h2 : l.esc.fband = k.esc.fband) (h3 : l.bud.heff = k.bud.heff)
    (h4 : l.thm.pt = k.thm.pt) (h5 : l.noClock = k.noClock) : l.seen d = k.seen d := by
  simp only [Cluster.seen, Cluster.quiet, Dev.limKey, h1, h2, h3, h4, h5]

end Sys2Proof.Machine
end

