-- ==== Sys2Proof/Laws/Mem.lean ====
section
/-!
SUPPORT. Sys2Proof/Laws/Mem.lean: reading what was written, and the canonical form that every memory operation keeps.
-/
namespace Sys2Proof.Machine

/-! ### Canonical form -/

@[simp] theorem Memory.wf_nil : Memory.wf [] = true := rfl

theorem Memory.wf_cons {c : Host.Cell} {m : List Host.Cell} :
    Memory.wf (c :: m) = true ↔ c.2 ≠ Mem.dflt c.1 ∧ (∀ e ∈ m, c.1 < e.1) ∧ Memory.wf m = true := by
  simp [Memory.wf, and_assoc]

/-- Every entry of a list with one more byte in front, or written, is an old entry or lies at that byte's address. -/
theorem Mem.cons_mem {m : List Host.Cell} {a : Nat} {b : Byte} {e : Host.Cell} (h : e ∈ Mem.cons a b m) : e ∈ m ∨ e.1 = a := by
  simp only [Mem.cons] at h
  split at h
  · exact .inl h
  · rcases List.mem_cons.1 h with rfl | h
    · exact .inr rfl
    · exact .inl h

theorem Mem.write_mem {m : List Host.Cell} {a : Nat} {b : Byte} {e : Host.Cell} (h : e ∈ Mem.write m a b) : e ∈ m ∨ e.1 = a := by
  induction m with
  | nil => exact Mem.cons_mem h
  | cons c m ih =>
    simp only [Mem.write] at h
    split at h
    · rcases Mem.cons_mem h with h | h
      · exact .inl (List.mem_cons_of_mem _ h)
      · exact .inr h
    · split at h
      · exact Mem.cons_mem h
      · rcases List.mem_cons.1 h with rfl | h
        · exact .inl List.mem_cons_self
        · rcases ih h with h | h
          · exact .inl (List.mem_cons_of_mem _ h)
          · exact .inr h

/-- A byte written keeps the canonical form. -/
theorem Mem.write_wf {m : List Host.Cell} (a : Nat) (b : Byte) (h : Memory.wf m = true) : Memory.wf (Mem.write m a b) = true := by
  induction m with
  | nil =>
    by_cases hb : b = Mem.dflt a
    · simp [Mem.write, Mem.cons, hb]
    · simp [Mem.write, Mem.cons, hb, Memory.wf]
  | cons c m ih =>
    have h' := Memory.wf_cons.1 h
    obtain ⟨h1, h2, h3⟩ := h'
    simp only [Mem.write]
    split
    · subst_vars
      simp only [Mem.cons]
      split
      · exact h3
      · exact Memory.wf_cons.2 ⟨by assumption, h2, h3⟩
    · split
      · rename_i hlt
        simp only [Mem.cons]
        split
        · exact h
        · refine Memory.wf_cons.2 ⟨by assumption, ?_, h⟩
          intro e he
          rcases List.mem_cons.1 he with rfl | he
          · exact hlt
          · exact Nat.lt_trans hlt (h2 e he)
      · rename_i hne hnlt
        refine Memory.wf_cons.2 ⟨h1, ?_, ih h3⟩
        intro e he
        rcases Mem.write_mem he with he | he
        · exact h2 e he
        · rw [he]; omega

/-- Bytes written one after another keep the canonical form. -/
theorem Mem.writeL_wf (l : List Byte) {m : List Host.Cell} (a : Nat) (h : Memory.wf m = true) : Memory.wf (Mem.writeL m a l) = true := by
  induction l generalizing m a with
  | nil => exact h
  | cons b l ih => exact ih (a + 1) (Mem.write_wf a b h)

/-- Entries dropped keep the canonical form. -/
theorem Mem.filter_wf (p : Host.Cell → Bool) {m : List Host.Cell} (h : Memory.wf m = true) : Memory.wf (m.filter p) = true := by
  induction m with
  | nil => rfl
  | cons c m ih =>
    obtain ⟨h1, h2, h3⟩ := Memory.wf_cons.1 h
    simp only [List.filter_cons]
    split
    · exact Memory.wf_cons.2 ⟨h1, fun e he => h2 e (List.mem_filter.1 he).1, ih h3⟩
    · exact ih h3

/-- A range put back to what it reads as unlisted keeps the canonical form. -/
theorem Mem.drop_wf (lo hi : Nat) {m : List Host.Cell} (h : Memory.wf m = true) : Memory.wf (Mem.drop m lo hi) = true := Mem.filter_wf _ h

/-- Steps that each keep the canonical form keep it together. -/
theorem Mem.foldl_wf {α β : Type} (f : List Host.Cell × β → α → List Host.Cell × β) (hf : ∀ r x, Memory.wf r.1 = true → Memory.wf (f r x).1 = true)
    (l : List α) (r : List Host.Cell × β) (h : Memory.wf r.1 = true) : Memory.wf (l.foldl f r).1 = true := by
  induction l generalizing r with
  | nil => exact h
  | cons x l ih => exact ih _ (hf r x h)

/-- The same for steps on memory alone. -/
theorem Mem.foldl_wf' {α : Type} (f : List Host.Cell → α → List Host.Cell) (hf : ∀ m x, Memory.wf m = true → Memory.wf (f m x) = true)
    (l : List α) (m : List Host.Cell) (h : Memory.wf m = true) : Memory.wf (l.foldl f m) = true := by
  induction l generalizing m with
  | nil => exact h
  | cons x l ih => exact ih _ (hf m x h)

/-! ### Read after write -/

/-- An address below every entry reads as unlisted. -/
theorem Mem.read_below {m : List Host.Cell} {a : Nat} (h : ∀ e ∈ m, a < e.1) : Mem.read m a = Mem.dflt a := by
  cases m with
  | nil => rfl
  | cons c m =>
    have := h c (by simp)
    simp [Mem.read, this, Nat.ne_of_lt this]

theorem Mem.read_cons_self (m : List Host.Cell) (a : Nat) (b : Byte) (h : ∀ e ∈ m, a < e.1) : Mem.read (Mem.cons a b m) a = b := by
  simp only [Mem.cons]
  split
  · rename_i hb; rw [Mem.read_below h, hb]
  · simp [Mem.read]

theorem Mem.read_cons_ne (m : List Host.Cell) (a x : Nat) (b : Byte) (hx : x ≠ a) (h : ∀ e ∈ m, a < e.1) :
    Mem.read (Mem.cons a b m) x = Mem.read m x := by
  simp only [Mem.cons]
  split
  · rfl
  · simp only [Mem.read, if_neg hx]
    split
    · rename_i hlt; exact (Mem.read_below fun e he => Nat.lt_trans hlt (h e he)).symm
    · rfl

/-- A byte written is read back. -/
theorem Mem.read_write_self {m : List Host.Cell} (a : Nat) (b : Byte) (h : Memory.wf m = true) : Mem.read (Mem.write m a b) a = b := by
  induction m with
  | nil => exact Mem.read_cons_self [] a b (by simp)
  | cons c m ih =>
    obtain ⟨_, h2, h3⟩ := Memory.wf_cons.1 h
    simp only [Mem.write]
    split
    · subst_vars; exact Mem.read_cons_self m c.1 b h2
    · split
      · rename_i hlt
        refine Mem.read_cons_self _ a b fun e he => ?_
        rcases List.mem_cons.1 he with rfl | he
        · exact hlt
        · exact Nat.lt_trans hlt (h2 e he)
      · rename_i hne hnlt
        simp only [Mem.read, if_neg hne, if_neg hnlt]
        exact ih h3

/-- A byte written leaves every other address as it was. -/
theorem Mem.read_write_ne {m : List Host.Cell} (a x : Nat) (b : Byte) (hx : x ≠ a) (h : Memory.wf m = true) :
    Mem.read (Mem.write m a b) x = Mem.read m x := by
  induction m with
  | nil => exact Mem.read_cons_ne [] a x b hx (by simp)
  | cons c m ih =>
    obtain ⟨_, h2, h3⟩ := Memory.wf_cons.1 h
    simp only [Mem.write]
    split
    · subst_vars
      rw [Mem.read_cons_ne m c.1 x b hx h2]
      simp only [Mem.read, if_neg hx]
      split
      · rename_i hlt; exact Mem.read_below fun e he => Nat.lt_trans hlt (h2 e he)
      · rfl
    · split
      · rename_i hlt
        refine Mem.read_cons_ne _ a x b hx fun e he => ?_
        rcases List.mem_cons.1 he with rfl | he
        · exact hlt
        · exact Nat.lt_trans hlt (h2 e he)
      · simp only [Mem.read]
        split
        · rfl
        · split
          · rfl
          · exact ih h3

/-- Bytes written leave every address outside them as it was. -/
theorem Mem.read_writeL_out (l : List Byte) {m : List Host.Cell} (a x : Nat) (hx : x < a ∨ a + l.length ≤ x) (h : Memory.wf m = true) :
    Mem.read (Mem.writeL m a l) x = Mem.read m x := by
  induction l generalizing m a with
  | nil => rfl
  | cons b l ih =>
    simp only [List.length_cons] at hx
    rw [Mem.writeL, ih (a + 1) (by omega) (Mem.write_wf a b h), Mem.read_write_ne a x b (by omega) h]

/-- Bytes written are read back. -/
theorem Mem.readL_writeL (l : List Byte) {m : List Host.Cell} (a : Nat) (h : Memory.wf m = true) : Mem.readL (Mem.writeL m a l) a l.length = l := by
  induction l generalizing m a with
  | nil => rfl
  | cons b l ih =>
    simp only [List.length_cons, Mem.readL, Mem.writeL]
    rw [Mem.read_writeL_out l (a + 1) a (by omega) (Mem.write_wf a b h), Mem.read_write_self a b h, ih (a + 1) (Mem.write_wf a b h)]

end Sys2Proof.Machine
end

