-- ==== Sys2Proof/WellFormed.lean ====
section
/-!
DEFINITION. Sys2Proof/WellFormed.lean: which terms of `Instr` name a command of the block: every position, number, field and word count within what the
manual gives it (R4 to R8, R269, R274, R304, R328, R386). The step gives ill-formed terms no meaning of their own: an absent tile, cluster or core takes no
command.
-/
namespace Sys2Proof

/-- A tile position t00 to t95 (R5). -/
def okT (t : Nat) : Bool := t < 96
/-- A cluster c00 to c17 (R8). -/
def okC (c : Nat) : Bool := c < 18
/-- A regulator of a cluster (R38). -/
def okR (r : Nat) : Bool := r < 8
/-- A phase of a cell, or a port of a router (R38, R400). -/
def okP (p : Nat) : Bool := p < 4
/-- A program core (R269). -/
def okK : CoreId → Bool
  | .ridge => true
  | .rafter t => okT t
/-- A writer of registers. -/
def okW : Writer → Bool
  | .rafter t => okT t
  | _ => true
/-- A register field of a KX instruction (R274). -/
def okG (a : Nat) : Bool := a < 16
/-- The 18-bit and 14-bit immediate fields (R274). -/
def ok18 (i : Nat) : Bool := i < 262144
def ok14 (i : Nat) : Bool := i < 16384
/-- A shift amount, a DMA channel, a slot of a Fusee store. -/
def ok5 (n : Nat) : Bool := n < 32
def okCh (n : Nat) : Bool := n < 8
def okSlot (n : Nat) : Bool := n < 24
/-- A host address (R304). -/
def okA (a : Nat) : Bool := a < 1048576
/-- A reading of one cell: its place and four phases. -/
def CellReading.ok (x : CellReading) : Bool := okT x.tile && okC x.cluster && okR x.reg && x.ima.length == 4
/-- A diode's code of 12 bits (R229). -/
def DiodeReading.ok (x : DiodeReading) : Bool := okT x.tile && okC x.cluster && decide (x.raw < 4096)
/-- A lane's error names a partial of Table 3-8. -/
def LaneDelta.ok (x : LaneDelta) : Bool := x.j < 160
/-- A place of Table 9-5. -/
def EccPlace.ok : EccPlace → Bool
  | .coreRam k | .coreRom k => okK k
  | .fuseeSlot t s => okT t && okSlot s
  | .fuseeBlock t off => okT t && 0xF080 ≤ off && off < 0xF440
  | .loopState t c => okT t && okC c
  | .fmax t k => okT t && decide (k < 10752)
  | .traceRecord t i => okT t && decide (i < 1024)
  | .burst n _ => decide (n < 8)
  | .logRecord q => decide (q < 2 ^ 32)
/-- Straps of Table 14-3. -/
def Straps.ok (x : Straps) : Bool := decide (x.pos < 64) && decide (x.lbud < 8) && decide (x.vsel < 4)

/-- A well-formed command. -/
def Instr.wf : Instr → Bool
  | .switchingBoundary rd => rd.all CellReading.ok
  | .pulseStart t c r p => okT t && okC c && okR r && okP p
  | .cycleLimit t c r p => okT t && okC c && okR r && okP p
  | .hiccup t c r p => okT t && okC c && okR r && okP p
  | .hiccupRetry t c r _ => okT t && okC c && okR r
  | .retryCountReset t c r _ => okT t && okC c && okR r
  | .uvlo t c r => okT t && okC c && okR r
  | .uvloRestart t c r => okT t && okC c && okR r
  | .short t c r p _ => okT t && okC c && okR r && okP p
  | .overshootTruncation t c r => okT t && okC c && okR r
  | .droopAssert t c r _ => okT t && okC c && okR r
  | .droopDeassert t c _ => okT t && okC c
  | .droopHoldoffEnd t c _ => okT t && okC c
  | .periodBoundary => true
  | .fallbackDutyWrite t c r => okT t && okC c && okR r
  | .clusterSample t c errs => okT t && okC c && errs.all LaneDelta.ok
  | .voteRepeat t c errs => okT t && okC c && errs.all LaneDelta.ok
  | .handover t c => okT t && okC c
  | .loopStall t c => okT t && okC c
  | .returnCluster w t c => okW w && okT t && okC c
  | .halt w t _ => okW w && okT t
  | .dual w t _ => okW w && okT t
  | .arraySelftestDone t failing => okT t && (failing.all fun l => decide (l < 1024))
  | .outerBoundary missed => missed.all okT
  | .shadowMirror t => okT t
  | .shadowLatchExpiry _ t _ => okT t
  | .tickBoundary _ => true
  | .marginPPeriod _ => true
  | .marginPLoss => true
  | .epochBoundary => true
  | .hintWord t _ _ => okT t
  | .hint t _ => okT t
  | .quietWindowMarker t _ => okT t
  | .slackReport t _ => okT t
  | .nextEventTime t _ => okT t
  | .cancel t _ => okT t
  | .forecastScore t _ _ => okT t
  | .quietWindowStart t c => okT t && okC c
  | .quietWindowEnd t c => okT t && okC c
  | .opreq t _ => okT t
  | .freq t _ => okT t
  | .fack t _ => okT t
  | .cpm t _ => okT t
  | .returnSlot t => okT t
  | .fackTimeout t tnum _ => okT t && decide (tnum < 128)
  | .admissionDeferExpiry t c _ => okT t && okC c
  | .start w => okW w
  | .stop w => okW w
  | .seqClspWrite w t c _ => okW w && okT t && okC c
  | .seqCllimWrite w t c _ => okW w && okT t && okC c
  | .seqClpsWrite w t c _ => okW w && okT t && okC c
  | .seqClgrWrite w t c _ => okW w && okT t && okC c
  | .cpmClear w t clr => okW w && okT t && decide (clr < 1024)
  | .capWrite w t c _ => okW w && okT t && c.all okC
  | .devlimWrite w _ => okW w
  | .localWrite w _ => okW w
  | .groupBudgetWrite w g _ => okW w && decide (g < 64)
  | .boardAlert _ => true
  | .alertRelease w => okW w
  | .linkTrained _ width => (width == 0 || width == 1 || width == 2 || width == 4)
  | .linkTrainRetry _ => true
  | .linkBlockTimeout _ => true
  | .retrain w => okW w
  | .forget w pos => okW w && decide (pos < 64)
  | .epoch _ frame => frame.length == 4
  | .report _ frame => frame.length == 8
  | .alloc _ frame => decide (4 ≤ frame.length) && decide (frame.length ≤ 67)
  | .collectionClose => true
  | .heartbeatLoss => true
  | .thermalRead raw => raw.all DiodeReading.ok
  | .thermalEvaluation => true
  | .thmRelease w t c => okW w && okT t && okC c
  | .thmRestore w t c => okW w && okT t && okC c
  | .faultAck w n _ => okW w && decide (1 ≤ n) && decide (n ≤ 11)
  | .safeEnter w => okW w
  | .safeRelease w => okW w
  | .scrubPass _ bad _ => bad.all EccPlace.ok
  | .add k a b c => okK k && okG a && okG b && okG c
  | .sub k a b c => okK k && okG a && okG b && okG c
  | .and k a b c => okK k && okG a && okG b && okG c
  | .or k a b c => okK k && okG a && okG b && okG c
  | .xor k a b c => okK k && okG a && okG b && okG c
  | .shl k a b c => okK k && okG a && okG b && okG c
  | .shr k a b c => okK k && okG a && okG b && okG c
  | .sra k a b c => okK k && okG a && okG b && okG c
  | .mul k a b c => okK k && okG a && okG b && okG c
  | .mulq k a b c => okK k && okG a && okG b && okG c
  | .clamp k a b c => okK k && okG a && okG b && okG c
  | .addi k a b imm18 => okK k && okG a && okG b && ok18 imm18
  | .andi k a b imm18 => okK k && okG a && okG b && ok18 imm18
  | .ori k a b imm18 => okK k && okG a && okG b && ok18 imm18
  | .xori k a b imm18 => okK k && okG a && okG b && ok18 imm18
  | .lui k a imm18 => okK k && okG a && ok18 imm18
  | .shli k a b sh => okK k && okG a && okG b && ok5 sh
  | .shri k a b sh => okK k && okG a && okG b && ok5 sh
  | .srai k a b sh => okK k && okG a && okG b && ok5 sh
  | .ldw k a b imm18 => okK k && okG a && okG b && ok18 imm18
  | .ldh k a b imm18 => okK k && okG a && okG b && ok18 imm18
  | .ldhu k a b imm18 => okK k && okG a && okG b && ok18 imm18
  | .ldb k a b imm18 => okK k && okG a && okG b && ok18 imm18
  | .ldbu k a b imm18 => okK k && okG a && okG b && ok18 imm18
  | .stw k a b imm18 => okK k && okG a && okG b && ok18 imm18
  | .sth k a b imm18 => okK k && okG a && okG b && ok18 imm18
  | .stb k a b imm18 => okK k && okG a && okG b && ok18 imm18
  | .branch k cond imm18 => okK k && okG cond && ok18 imm18
  | .jal k a imm18 => okK k && okG a && ok18 imm18
  | .jr k a b imm14 => okK k && okG a && okG b && ok14 imm14
  | .rete k => okK k
  | .wait k a b c _ => okK k && okG a && okG b && okG c
  | .waitComplete k _ => okK k
  | .arm k n => okK k && ok14 n
  | .disarm k n => okK k && ok14 n
  | .raise k n => okK k && ok14 n
  | .mfs k a n => okK k && okG a && ok14 n
  | .mts k b n => okK k && okG b && ok14 n
  | .undefinedEncoding k _ => okK k
  | .eventEntry k => okK k
  | .watchdogExpiry k => okK k
  | .setp k b c imm14 => okK k && okG b && okG c && ok14 imm14
  | .pstate k b imm14 => okK k && okG b && ok14 imm14
  | .capset k b c imm14 => okK k && okG b && okG c && ok14 imm14
  | .fmaxw k b c imm14 => okK k && okG b && okG c && ok14 imm14
  | .tblsel k b imm14 => okK k && okG b && ok14 imm14
  | .qry k a b imm14 => okK k && okG a && okG b && ok14 imm14
  | .post k b c imm14 => okK k && okG b && okG c && ok14 imm14
  | .send k b c imm14 => okK k && okG b && okG c && ok14 imm14
  | .recv k a b imm14 => okK k && okG a && okG b && ok14 imm14
  | .trig k b imm14 => okK k && okG b && ok14 imm14
  | .grant k b imm14 => okK k && okG b && ok14 imm14
  | .operationArrival src t => okW src && okT t
  | .lateRefusal dst => okW dst
  | .messageDelivery src t => okK src && t.all okT
  | .hostWrite addr be _ => okA addr && decide (be < 16)
  | .shstampRead _ t => okT t
  | .rcRead _ addr => okA addr
  | .wideRead _ addr => okA addr
  | .hlrefRead _ => true
  | .nop => true
  | .cmdSetp => true
  | .cmdPstate => true
  | .cmdCapset => true
  | .cmdFmaxw => true
  | .cmdTblsel => true
  | .cmdQry => true
  | .cmdTrig => true
  | .cmdGrant => true
  | .write => true
  | .read => true
  | .fence => true
  | .fenceComplete => true
  | .waitt => true
  | .waittComplete => true
  | .ping => true
  | .userCommand => true
  | .unknownOpcode => true
  | .programCommandDone _ => true
  | .programCommandTimeout => true
  | .commandRingFetch _ _ _ _ => true
  | .commandRingEnable w _ => okW w
  | .rhalt w _ => okW w
  | .rstart w => okW w
  | .fstartall w => okW w
  | .fhaltall w => okW w
  | .frelall w => okW w
  | .rafterHalt w t _ => okW w && okT t
  | .rafterStart w t => okW w && okT t
  | .loadCheck k => okK k
  | .fusCommit w t slot => okW w && okT t && okSlot slot
  | .fusInvalidate w t slot => okW w && okT t && okSlot slot
  | .fusMapw w t _ => okW w && okT t
  | .fusCommandComplete t => okT t
  | .run w t _ => okW w && okT t
  | .fusClctlWrite w t c _ => okW w && okT t && okC c
  | .armTrace w t => okW w && okT t
  | .stopTrace w t => okW w && okT t
  | .forceTrace w t => okW w && okT t
  | .armall w => okW w
  | .forceall w => okW w
  | .traceCrossTrigger t => okT t
  | .dmaEnable w n _ => okW w && okCh n
  | .dmaTailWrite w n _ => okW w && okCh n
  | .descriptorFetch n words => okCh n && words.length == 8
  | .sourceBurst n _ _ => okCh n
  | .destinationBurst n => okCh n
  | .descriptorWriteback n => okCh n
  | .abort w n => okW w && okCh n
  | .resume w n => okW w && okCh n
  | .skip w n => okW w && okCh n
  | .busError n _ => okCh n
  | .nvTimeout n => okCh n
  | .nvFetch w _ => okW w
  | .nvFetchDone _ => true
  | .flushPage _ => true
  | .optimeSecond => true
  | .millisecondBoundary => true
  | .heartbeat => true
  | .flush w => okW w
  | .freeze w => okW w
  | .thaw w => okW w
  | .freezeExpiry => true
  | .nonce w => okW w
  | .nonceExpiry => true
  | .clear w => okW w
  | .clearEraseDone => true
  | .powerFail => true
  | .coldReset => true
  | .coldBoot straps _ _ => straps.ok
  | .bootStageComplete failedCells => (failedCells.all fun p => okT p.1 && okC p.2.1 && okR p.2.2)
  | .warmReset => true
  | .warmFastPath _ bad => bad.all EccPlace.ok
  | .fastPathDone => true
  | .tileReset t => okT t
  | .tileResetEnd t => okT t
  | .keyWord _ _ => true
  | .avsSet w _ => okW w
  | .avsRetry => true
  | .avsReadback mv => decide (mv < 2048)
  | .refloss => true
  | .holdoverExpiry => true
  | .referenceReturn => true
  | .refret => true
  | .extest _ => true
  | .idcode => true
  | .samplePreload _ => true
  | .corestop => true
  | .loopstop => true
  | .selftest => true
  | .hostacc dr => decide (dr < 2 ^ 60)
  | .bypass code => code < 64
  | .flitCrcError t port _ => okT t && okP port
  | .portFramingLoss t port => okT t && okP port
  | .purlinRetry w t => okW w && okT t
  | .portRetrained t port => okT t && okP port
  | .oscillatorGlideComplete _ => true
  | .linkFrameCrcError _ => true
  | .malformedRequestFrame t _ => okT t
  | .bootstrapComplete t c => okT t && okC c
  | .cellPowerUpComplete t c => okT t && okC c
  | .avsbusAcknowledge => true
  | .brdAlertNHigh _ => true

end Sys2Proof
end

