-- ==== Sys2Proof/Tests/Slice0.lean ====
section
/-!
SUPPORT. Sys2Proof/Tests/Slice0.lean: tests of the model. Numbers come from the worked examples and tables of spec/. A theorem witness_<Statement>_<n>
shows a state and operands that meet the hypotheses of clauses of Obligations.<Statement>.
-/
namespace Sys2Proof.Tests
open Sys2Proof Sys2Proof.Machine

/-- A small block: two built tiles of eighteen clusters, the cores started, the host port open. -/
def w0 : State where
  dev :=
    { build := { clusters := [List.range 18, List.range 18], mesh := [[none, some 1, none, none], [none, none, none, some 0]], ridgeTile := 0 }
      tiles := List.replicate 2 { present := true, clusters := List.replicate 18 { present := true }, core := { on := true }
                                  fus := { bands := resetBands, trims := List.replicate 18 resetTrim, map := List.replicate 256 0xFF } }
      mirrors := List.replicate 2 {}
      hp := { closed := false }
      boot := { porst := false, started := true }
      ridge := { on := true } }

/-- The block that a command leaves. -/
def afterDev (s : State) (i : Instr) : Dev := match exec i s with | .next t => t.dev | _ => s.dev

/-- The block with one part changed: as a whole, tile 0, its cluster c00, that cluster's cell r0, the Ridge, the Rafter of tile 0. -/
def wD (f : Dev → Dev) : State := { w0 with dev := f w0.dev }
def wT (f : Tile → Tile) : State := wD fun d => d.onT 0 f
def wC (f : Cluster → Cluster) : State := wD fun d => d.onC 0 0 f
def wL (f : ClLoop → ClLoop) : State := wC fun k => { k with loop := f k.loop }
def wX (f : Cell → Cell) : State := wD fun d => d.onR 0 0 0 f
def wK (f : Core → Core) : State := wD fun d => d.onCore .ridge f
def wR (f : Core → Core) : State := wD fun d => d.onCore (.rafter 0) f


/-! ### Well-formedness: a term at the upper bound of every operand is accepted, and a term with one operand outside it refused, check by check -/

theorem test_wf_accepts_1 : (
     [.switchingBoundary [{ tile := 95, cluster := 17, reg := 7, v := 0, ima := [0, 0, 0, 0], vin := 0 }], .pulseStart 95 17 7 3,
      .cycleLimit 95 17 7 3, .hiccup 95 17 7 3, .hiccupRetry 95 17 7 0, .retryCountReset 95 17 7 0, .uvlo 95 17 7, .uvloRestart 95 17 7,
      .short 95 17 7 3 true, .overshootTruncation 95 17 7, .droopAssert 95 17 7 0, .droopDeassert 95 17 0, .droopHoldoffEnd 95 17 0,
      .fallbackDutyWrite 95 17 7, .clusterSample 95 17 [{ map := .M0, comb := false, j := 159, delta := 1 }],
      .voteRepeat 95 17 [{ map := .M0, comb := false, j := 159, delta := 1 }], .handover 95 17, .loopStall 95 17, .returnCluster (.rafter 95) 95 17,
      .halt (.rafter 95) 95 true, .dual (.rafter 95) 95 true, .arraySelftestDone 95 [1023], .outerBoundary [95], .shadowMirror 95,
      .shadowLatchExpiry .host 95 0, .hintWord 95 0 0, .hint 95 0, .quietWindowMarker 95 0, .slackReport 95 0, .nextEventTime 95 0, .cancel 95 0,
      .forecastScore 95 0 0, .quietWindowStart 95 17, .quietWindowEnd 95 17, .opreq 95 0, .freq 95 0, .fack 95 0, .cpm 95 0, .returnSlot 95,
      .fackTimeout 95 127 0, .admissionDeferExpiry 95 17 0, .start (.rafter 95), .stop (.rafter 95), .seqClspWrite (.rafter 95) 95 17 0,
      .seqCllimWrite (.rafter 95) 95 17 0, .seqClpsWrite (.rafter 95) 95 17 0, .seqClgrWrite (.rafter 95) 95 17 0, .cpmClear (.rafter 95) 95 1023,
      .capWrite (.rafter 95) 95 (some 17) 0, .devlimWrite (.rafter 95) 0, .localWrite (.rafter 95) 0, .groupBudgetWrite (.rafter 95) 63 0,
      .alertRelease (.rafter 95), .linkTrained .W 4, .retrain (.rafter 95), .forget (.rafter 95) 63, .epoch .W [0, 0, 0, 0],
      .report .W (List.replicate 8 0), .alloc .W (List.replicate 67 0), .thermalRead [⟨95, 17, 4095⟩]] : List Instr).all Instr.wf = true := by decide

theorem test_wf_accepts_2 : (
     [.thmRelease (.rafter 95) 95 17, .thmRestore (.rafter 95) 95 17, .faultAck (.rafter 95) 11 0, .safeEnter (.rafter 95), .safeRelease (.rafter 95),
      .scrubPass 0 [.coreRam .ridge, .coreRom (.rafter 95), .fuseeSlot 95 23, .fuseeBlock 95 0xF43C, .loopState 95 17, .fmax 95 10751, .traceRecord 95 1023, .burst 7 0, .logRecord 0] true,
      .add (.rafter 95) 15 15 15, .sub (.rafter 95) 15 15 15, .and (.rafter 95) 15 15 15, .or (.rafter 95) 15 15 15, .xor (.rafter 95) 15 15 15,
      .shl (.rafter 95) 15 15 15, .shr (.rafter 95) 15 15 15, .sra (.rafter 95) 15 15 15, .mul (.rafter 95) 15 15 15, .mulq (.rafter 95) 15 15 15,
      .clamp (.rafter 95) 15 15 15, .addi (.rafter 95) 15 15 262143, .andi (.rafter 95) 15 15 262143, .ori (.rafter 95) 15 15 262143,
      .xori (.rafter 95) 15 15 262143, .lui (.rafter 95) 15 262143, .shli (.rafter 95) 15 15 31, .shri (.rafter 95) 15 15 31,
      .srai (.rafter 95) 15 15 31, .ldw (.rafter 95) 15 15 262143, .ldh (.rafter 95) 15 15 262143, .ldhu (.rafter 95) 15 15 262143,
      .ldb (.rafter 95) 15 15 262143, .ldbu (.rafter 95) 15 15 262143, .stw (.rafter 95) 15 15 262143, .sth (.rafter 95) 15 15 262143,
      .stb (.rafter 95) 15 15 262143, .branch (.rafter 95) 15 262143, .jal (.rafter 95) 15 262143, .jr (.rafter 95) 15 15 16383, .rete (.rafter 95),
      .wait (.rafter 95) 15 15 15 true, .waitComplete (.rafter 95) 0, .arm (.rafter 95) 16383, .disarm (.rafter 95) 16383, .raise (.rafter 95) 16383,
      .mfs (.rafter 95) 15 16383, .mts (.rafter 95) 15 16383, .undefinedEncoding (.rafter 95) 0, .eventEntry (.rafter 95),
      .watchdogExpiry (.rafter 95), .setp (.rafter 95) 15 15 16383, .pstate (.rafter 95) 15 16383, .capset (.rafter 95) 15 15 16383,
      .fmaxw (.rafter 95) 15 15 16383, .tblsel (.rafter 95) 15 16383, .qry (.rafter 95) 15 15 16383, .post (.rafter 95) 15 15 16383,
      .send (.rafter 95) 15 15 16383, .recv (.rafter 95) 15 15 16383, .trig (.rafter 95) 15 16383, .grant (.rafter 95) 15 16383,
      .operationArrival (.rafter 95) 95, .lateRefusal (.rafter 95)] : List Instr).all Instr.wf = true := by decide

theorem test_wf_accepts_3 : (
     [.messageDelivery (.rafter 95) (some 95), .hostWrite 1048575 15 0, .shstampRead .host 95, .rcRead .host 1048575, .wideRead .host 1048575,
      .commandRingEnable (.rafter 95) true, .rhalt (.rafter 95) true, .rstart (.rafter 95), .fstartall (.rafter 95), .fhaltall (.rafter 95),
      .frelall (.rafter 95), .rafterHalt (.rafter 95) 95 true, .rafterStart (.rafter 95) 95, .loadCheck (.rafter 95), .fusCommit (.rafter 95) 95 23,
      .fusInvalidate (.rafter 95) 95 23, .fusMapw (.rafter 95) 95 0, .fusCommandComplete 95, .run (.rafter 95) 95 true,
      .fusClctlWrite (.rafter 95) 95 17 0, .armTrace (.rafter 95) 95, .stopTrace (.rafter 95) 95, .forceTrace (.rafter 95) 95, .armall (.rafter 95),
      .forceall (.rafter 95), .traceCrossTrigger 95, .dmaEnable (.rafter 95) 7 true, .dmaTailWrite (.rafter 95) 7 0,
      .descriptorFetch 7 (List.replicate 8 0), .sourceBurst 7 [] true, .destinationBurst 7, .descriptorWriteback 7, .abort (.rafter 95) 7,
      .resume (.rafter 95) 7, .skip (.rafter 95) 7, .busError 7 0, .nvTimeout 7, .nvFetch (.rafter 95) 0, .flush (.rafter 95), .freeze (.rafter 95),
      .thaw (.rafter 95), .nonce (.rafter 95), .clear (.rafter 95), .coldBoot { pos := 63, lbud := 7, vsel := 3 } {} true,
      .bootStageComplete [(95, 17, 7)], .tileReset 95, .tileResetEnd 95, .avsSet (.rafter 95) 0, .avsReadback 2047, .hostacc (2 ^ 60 - 1),
      .flitCrcError 95 3 true, .portFramingLoss 95 3, .bypass 63, .extest 5, .samplePreload 5, .warmFastPath 1 [.coreRam (.rafter 95)], .purlinRetry (.rafter 95) 95, .portRetrained 95 3, .malformedRequestFrame 95 0,
      .bootstrapComplete 95 17, .cellPowerUpComplete 95 17] : List Instr).all Instr.wf = true := by decide

theorem test_wf_refuses_1 : (
     [.switchingBoundary [{ tile := 96, cluster := 0, reg := 0, v := 0, ima := [0, 0, 0, 0], vin := 0 }],
      .switchingBoundary [{ tile := 0, cluster := 18, reg := 0, v := 0, ima := [0, 0, 0, 0], vin := 0 }],
      .switchingBoundary [{ tile := 0, cluster := 0, reg := 8, v := 0, ima := [0, 0, 0, 0], vin := 0 }],
      .switchingBoundary [{ tile := 0, cluster := 0, reg := 0, v := 0, ima := [0, 0, 0], vin := 0 }], .pulseStart 96 17 7 3, .pulseStart 95 18 7 3,
      .pulseStart 95 17 8 3, .pulseStart 95 17 7 4, .cycleLimit 96 17 7 3, .cycleLimit 95 18 7 3, .cycleLimit 95 17 8 3, .cycleLimit 95 17 7 4,
      .hiccup 96 17 7 3, .hiccup 95 18 7 3, .hiccup 95 17 8 3, .hiccup 95 17 7 4, .hiccupRetry 96 17 7 0, .hiccupRetry 95 18 7 0,
      .hiccupRetry 95 17 8 0, .retryCountReset 96 17 7 0, .retryCountReset 95 18 7 0, .retryCountReset 95 17 8 0, .uvlo 96 17 7, .uvlo 95 18 7,
      .uvlo 95 17 8, .uvloRestart 96 17 7, .uvloRestart 95 18 7, .uvloRestart 95 17 8, .short 96 17 7 3 true, .short 95 18 7 3 true,
      .short 95 17 8 3 true, .short 95 17 7 4 true, .overshootTruncation 96 17 7, .overshootTruncation 95 18 7, .overshootTruncation 95 17 8,
      .droopAssert 96 17 7 0, .droopAssert 95 18 7 0, .droopAssert 95 17 8 0, .droopDeassert 96 17 0, .droopDeassert 95 18 0, .droopHoldoffEnd 96 17 0,
      .droopHoldoffEnd 95 18 0, .fallbackDutyWrite 96 17 7, .fallbackDutyWrite 95 18 7, .fallbackDutyWrite 95 17 8,
      .clusterSample 96 17 [{ map := .M0, comb := false, j := 159, delta := 1 }],
      .clusterSample 95 18 [{ map := .M0, comb := false, j := 159, delta := 1 }],
      .clusterSample 95 17 [{ map := .M0, comb := false, j := 160, delta := 1 }],
      .voteRepeat 96 17 [{ map := .M0, comb := false, j := 159, delta := 1 }], .voteRepeat 95 18 [{ map := .M0, comb := false, j := 159, delta := 1 }],
      .voteRepeat 95 17 [{ map := .M0, comb := false, j := 160, delta := 1 }], .handover 96 17, .handover 95 18, .loopStall 96 17, .loopStall 95 18,
      .returnCluster (.rafter 96) 95 17, .returnCluster (.rafter 95) 96 17, .returnCluster (.rafter 95) 95 18, .halt (.rafter 96) 95 true,
      .halt (.rafter 95) 96 true] : List Instr).any Instr.wf = false := by decide

theorem test_wf_refuses_2 : (
     [.dual (.rafter 96) 95 true, .dual (.rafter 95) 96 true, .arraySelftestDone 96 [1023], .arraySelftestDone 95 [1024], .outerBoundary [96],
      .shadowMirror 96, .shadowLatchExpiry .host 96 0, .hintWord 96 0 0, .hint 96 0, .quietWindowMarker 96 0, .slackReport 96 0, .nextEventTime 96 0,
      .cancel 96 0, .forecastScore 96 0 0, .quietWindowStart 96 17, .quietWindowStart 95 18, .quietWindowEnd 96 17, .quietWindowEnd 95 18, .opreq 96 0,
      .freq 96 0, .fack 96 0, .cpm 96 0, .returnSlot 96, .fackTimeout 96 127 0, .fackTimeout 95 128 0, .admissionDeferExpiry 96 17 0,
      .admissionDeferExpiry 95 18 0, .start (.rafter 96), .stop (.rafter 96), .seqClspWrite (.rafter 96) 95 17 0, .seqClspWrite (.rafter 95) 96 17 0,
      .seqClspWrite (.rafter 95) 95 18 0, .seqCllimWrite (.rafter 96) 95 17 0, .seqCllimWrite (.rafter 95) 96 17 0,
      .seqCllimWrite (.rafter 95) 95 18 0, .seqClpsWrite (.rafter 96) 95 17 0, .seqClpsWrite (.rafter 95) 96 17 0, .seqClpsWrite (.rafter 95) 95 18 0,
      .seqClgrWrite (.rafter 96) 95 17 0, .seqClgrWrite (.rafter 95) 96 17 0, .seqClgrWrite (.rafter 95) 95 18 0, .cpmClear (.rafter 96) 95 1023,
      .cpmClear (.rafter 95) 96 1023, .cpmClear (.rafter 95) 95 1024, .capWrite (.rafter 96) 95 (some 17) 0, .capWrite (.rafter 95) 96 (some 17) 0,
      .capWrite (.rafter 95) 95 (some 18) 0, .devlimWrite (.rafter 96) 0, .localWrite (.rafter 96) 0, .groupBudgetWrite (.rafter 96) 63 0,
      .groupBudgetWrite (.rafter 95) 64 0, .alertRelease (.rafter 96), .linkTrained .W 3, .linkTrained .W 5, .retrain (.rafter 96),
      .forget (.rafter 96) 63, .forget (.rafter 95) 64, .epoch .W [0, 0, 0], .epoch .W [0, 0, 0, 0, 0], .report .W (List.replicate 7 0)] : List Instr).any Instr.wf = false := by decide

theorem test_wf_refuses_3 : (
     [.report .W (List.replicate 9 0), .alloc .W (List.replicate 68 0), .alloc .W (List.replicate 3 0), .thermalRead [⟨96, 17, 0⟩],
      .thermalRead [⟨0, 18, 0⟩], .thermalRead [⟨0, 0, 4096⟩], .thmRelease (.rafter 96) 95 17, .thmRelease (.rafter 95) 96 17,
      .thmRelease (.rafter 95) 95 18, .thmRestore (.rafter 96) 95 17, .thmRestore (.rafter 95) 96 17, .thmRestore (.rafter 95) 95 18,
      .faultAck (.rafter 96) 11 0, .faultAck (.rafter 95) 0 0, .faultAck (.rafter 95) 12 0, .safeEnter (.rafter 96), .safeRelease (.rafter 96),
      .scrubPass 0 [.coreRam (.rafter 96)] true, .scrubPass 0 [.coreRom (.rafter 96)] true, .scrubPass 0 [.fuseeSlot 96 0] true,
      .scrubPass 0 [.fuseeSlot 0 24] true, .scrubPass 0 [.fuseeBlock 96 0xF080] true, .scrubPass 0 [.fuseeBlock 95 0xF07F] true,
      .scrubPass 0 [.fuseeBlock 95 0xF440] true, .scrubPass 0 [.loopState 96 0] true,
      .scrubPass 0 [.loopState 0 18] true, .scrubPass 0 [.fmax 96 0] true, .scrubPass 0 [.fmax 0 10752] true, .add (.rafter 96) 15 15 15,
      .add (.rafter 95) 16 15 15, .add (.rafter 95) 15 16 15, .add (.rafter 95) 15 15 16, .sub (.rafter 96) 15 15 15, .sub (.rafter 95) 16 15 15,
      .sub (.rafter 95) 15 16 15, .sub (.rafter 95) 15 15 16, .and (.rafter 96) 15 15 15, .and (.rafter 95) 16 15 15, .and (.rafter 95) 15 16 15,
      .and (.rafter 95) 15 15 16, .or (.rafter 96) 15 15 15, .or (.rafter 95) 16 15 15, .or (.rafter 95) 15 16 15, .or (.rafter 95) 15 15 16,
      .xor (.rafter 96) 15 15 15, .xor (.rafter 95) 16 15 15, .xor (.rafter 95) 15 16 15, .xor (.rafter 95) 15 15 16, .shl (.rafter 96) 15 15 15,
      .shl (.rafter 95) 16 15 15, .shl (.rafter 95) 15 16 15, .shl (.rafter 95) 15 15 16, .shr (.rafter 96) 15 15 15, .shr (.rafter 95) 16 15 15,
      .shr (.rafter 95) 15 16 15, .shr (.rafter 95) 15 15 16, .sra (.rafter 96) 15 15 15, .sra (.rafter 95) 16 15 15, .sra (.rafter 95) 15 16 15,
      .sra (.rafter 95) 15 15 16, .mul (.rafter 96) 15 15 15, .mul (.rafter 95) 16 15 15] : List Instr).any Instr.wf = false := by decide

theorem test_wf_refuses_4 : (
     [.mul (.rafter 95) 15 16 15, .mul (.rafter 95) 15 15 16, .mulq (.rafter 96) 15 15 15, .mulq (.rafter 95) 16 15 15, .mulq (.rafter 95) 15 16 15,
      .mulq (.rafter 95) 15 15 16, .clamp (.rafter 96) 15 15 15, .clamp (.rafter 95) 16 15 15, .clamp (.rafter 95) 15 16 15,
      .clamp (.rafter 95) 15 15 16, .addi (.rafter 96) 15 15 262143, .addi (.rafter 95) 16 15 262143, .addi (.rafter 95) 15 16 262143,
      .addi (.rafter 95) 15 15 262144, .andi (.rafter 96) 15 15 262143, .andi (.rafter 95) 16 15 262143, .andi (.rafter 95) 15 16 262143,
      .andi (.rafter 95) 15 15 262144, .ori (.rafter 96) 15 15 262143, .ori (.rafter 95) 16 15 262143, .ori (.rafter 95) 15 16 262143,
      .ori (.rafter 95) 15 15 262144, .xori (.rafter 96) 15 15 262143, .xori (.rafter 95) 16 15 262143, .xori (.rafter 95) 15 16 262143,
      .xori (.rafter 95) 15 15 262144, .lui (.rafter 96) 15 262143, .lui (.rafter 95) 16 262143, .lui (.rafter 95) 15 262144,
      .shli (.rafter 96) 15 15 31, .shli (.rafter 95) 16 15 31, .shli (.rafter 95) 15 16 31, .shli (.rafter 95) 15 15 32, .shri (.rafter 96) 15 15 31,
      .shri (.rafter 95) 16 15 31, .shri (.rafter 95) 15 16 31, .shri (.rafter 95) 15 15 32, .srai (.rafter 96) 15 15 31, .srai (.rafter 95) 16 15 31,
      .srai (.rafter 95) 15 16 31, .srai (.rafter 95) 15 15 32, .ldw (.rafter 96) 15 15 262143, .ldw (.rafter 95) 16 15 262143,
      .ldw (.rafter 95) 15 16 262143, .ldw (.rafter 95) 15 15 262144, .ldh (.rafter 96) 15 15 262143, .ldh (.rafter 95) 16 15 262143,
      .ldh (.rafter 95) 15 16 262143, .ldh (.rafter 95) 15 15 262144, .ldhu (.rafter 96) 15 15 262143, .ldhu (.rafter 95) 16 15 262143,
      .ldhu (.rafter 95) 15 16 262143, .ldhu (.rafter 95) 15 15 262144, .ldb (.rafter 96) 15 15 262143, .ldb (.rafter 95) 16 15 262143,
      .ldb (.rafter 95) 15 16 262143, .ldb (.rafter 95) 15 15 262144, .ldbu (.rafter 96) 15 15 262143, .ldbu (.rafter 95) 16 15 262143,
      .ldbu (.rafter 95) 15 16 262143] : List Instr).any Instr.wf = false := by decide

theorem test_wf_refuses_5 : (
     [.ldbu (.rafter 95) 15 15 262144, .stw (.rafter 96) 15 15 262143, .stw (.rafter 95) 16 15 262143, .stw (.rafter 95) 15 16 262143,
      .stw (.rafter 95) 15 15 262144, .sth (.rafter 96) 15 15 262143, .sth (.rafter 95) 16 15 262143, .sth (.rafter 95) 15 16 262143,
      .sth (.rafter 95) 15 15 262144, .stb (.rafter 96) 15 15 262143, .stb (.rafter 95) 16 15 262143, .stb (.rafter 95) 15 16 262143,
      .stb (.rafter 95) 15 15 262144, .branch (.rafter 96) 15 262143, .branch (.rafter 95) 16 262143, .branch (.rafter 95) 15 262144,
      .jal (.rafter 96) 15 262143, .jal (.rafter 95) 16 262143, .jal (.rafter 95) 15 262144, .jr (.rafter 96) 15 15 16383,
      .jr (.rafter 95) 16 15 16383, .jr (.rafter 95) 15 16 16383, .jr (.rafter 95) 15 15 16384, .rete (.rafter 96), .wait (.rafter 96) 15 15 15 true,
      .wait (.rafter 95) 16 15 15 true, .wait (.rafter 95) 15 16 15 true, .wait (.rafter 95) 15 15 16 true, .waitComplete (.rafter 96) 0,
      .arm (.rafter 96) 16383, .arm (.rafter 95) 16384, .disarm (.rafter 96) 16383, .disarm (.rafter 95) 16384, .raise (.rafter 96) 16383,
      .raise (.rafter 95) 16384, .mfs (.rafter 96) 15 16383, .mfs (.rafter 95) 16 16383, .mfs (.rafter 95) 15 16384, .mts (.rafter 96) 15 16383,
      .mts (.rafter 95) 16 16383, .mts (.rafter 95) 15 16384, .undefinedEncoding (.rafter 96) 0, .eventEntry (.rafter 96),
      .watchdogExpiry (.rafter 96), .setp (.rafter 96) 15 15 16383, .setp (.rafter 95) 16 15 16383, .setp (.rafter 95) 15 16 16383,
      .setp (.rafter 95) 15 15 16384, .pstate (.rafter 96) 15 16383, .pstate (.rafter 95) 16 16383, .pstate (.rafter 95) 15 16384,
      .capset (.rafter 96) 15 15 16383, .capset (.rafter 95) 16 15 16383, .capset (.rafter 95) 15 16 16383, .capset (.rafter 95) 15 15 16384,
      .fmaxw (.rafter 96) 15 15 16383, .fmaxw (.rafter 95) 16 15 16383, .fmaxw (.rafter 95) 15 16 16383, .fmaxw (.rafter 95) 15 15 16384,
      .tblsel (.rafter 96) 15 16383] : List Instr).any Instr.wf = false := by decide

theorem test_wf_refuses_6 : (
     [.tblsel (.rafter 95) 16 16383, .tblsel (.rafter 95) 15 16384, .qry (.rafter 96) 15 15 16383, .qry (.rafter 95) 16 15 16383,
      .qry (.rafter 95) 15 16 16383, .qry (.rafter 95) 15 15 16384, .post (.rafter 96) 15 15 16383, .post (.rafter 95) 16 15 16383,
      .post (.rafter 95) 15 16 16383, .post (.rafter 95) 15 15 16384, .send (.rafter 96) 15 15 16383, .send (.rafter 95) 16 15 16383,
      .send (.rafter 95) 15 16 16383, .send (.rafter 95) 15 15 16384, .recv (.rafter 96) 15 15 16383, .recv (.rafter 95) 16 15 16383,
      .recv (.rafter 95) 15 16 16383, .recv (.rafter 95) 15 15 16384, .trig (.rafter 96) 15 16383, .trig (.rafter 95) 16 16383,
      .trig (.rafter 95) 15 16384, .grant (.rafter 96) 15 16383, .grant (.rafter 95) 16 16383, .grant (.rafter 95) 15 16384,
      .operationArrival (.rafter 96) 95, .operationArrival (.rafter 95) 96, .lateRefusal (.rafter 96), .messageDelivery (.rafter 96) (some 95),
      .messageDelivery (.rafter 95) (some 96), .hostWrite 1048576 15 0, .hostWrite 1048575 16 0, .shstampRead .host 96, .rcRead .host 1048576,
      .wideRead .host 1048576, .commandRingEnable (.rafter 96) true, .rhalt (.rafter 96) true, .rstart (.rafter 96), .fstartall (.rafter 96),
      .fhaltall (.rafter 96), .frelall (.rafter 96), .rafterHalt (.rafter 96) 95 true, .rafterHalt (.rafter 95) 96 true, .rafterStart (.rafter 96) 95,
      .rafterStart (.rafter 95) 96, .loadCheck (.rafter 96), .fusCommit (.rafter 96) 95 23, .fusCommit (.rafter 95) 96 23,
      .fusCommit (.rafter 95) 95 24, .fusInvalidate (.rafter 96) 95 23, .fusInvalidate (.rafter 95) 96 23, .fusInvalidate (.rafter 95) 95 24,
      .fusMapw (.rafter 96) 95 0, .fusMapw (.rafter 95) 96 0, .fusCommandComplete 96, .run (.rafter 96) 95 true, .run (.rafter 95) 96 true,
      .fusClctlWrite (.rafter 96) 95 17 0, .fusClctlWrite (.rafter 95) 96 17 0, .fusClctlWrite (.rafter 95) 95 18 0, .armTrace (.rafter 96) 95] : List Instr).any Instr.wf = false := by decide

theorem test_wf_refuses_7 : (
     [.armTrace (.rafter 95) 96, .stopTrace (.rafter 96) 95, .stopTrace (.rafter 95) 96, .forceTrace (.rafter 96) 95, .forceTrace (.rafter 95) 96,
      .armall (.rafter 96), .forceall (.rafter 96), .traceCrossTrigger 96, .dmaEnable (.rafter 96) 7 true, .dmaEnable (.rafter 95) 8 true,
      .dmaTailWrite (.rafter 96) 7 0, .dmaTailWrite (.rafter 95) 8 0, .descriptorFetch 8 (List.replicate 8 0), .descriptorFetch 7 (List.replicate 7 0),
      .sourceBurst 8 [] true, .destinationBurst 8, .descriptorWriteback 8, .abort (.rafter 96) 7, .abort (.rafter 95) 8, .resume (.rafter 96) 7,
      .resume (.rafter 95) 8, .skip (.rafter 96) 7, .skip (.rafter 95) 8, .busError 8 0, .nvTimeout 8, .nvFetch (.rafter 96) 0, .flush (.rafter 96),
      .freeze (.rafter 96), .thaw (.rafter 96), .nonce (.rafter 96), .clear (.rafter 96), .coldBoot { pos := 64 } {} true,
      .coldBoot { lbud := 8 } {} true, .coldBoot { vsel := 4 } {} true, .bootStageComplete [(96, 0, 0)], .bootStageComplete [(0, 18, 0)],
      .bootStageComplete [(0, 0, 8)], .tileReset 96, .tileResetEnd 96, .avsSet (.rafter 96) 0, .avsReadback 2048, .hostacc (2 ^ 60),
      .flitCrcError 96 3 true, .flitCrcError 95 4 true, .bypass 64, .warmFastPath 1 [.coreRam (.rafter 96)], .portFramingLoss 96 3, .portFramingLoss 95 4, .purlinRetry (.rafter 96) 95, .purlinRetry (.rafter 95) 96,
      .portRetrained 96 3, .portRetrained 95 4, .malformedRequestFrame 96 0, .bootstrapComplete 96 17, .bootstrapComplete 95 18,
      .cellPowerUpComplete 96 17, .cellPowerUpComplete 95 18] : List Instr).any Instr.wf = false := by decide

/-! ### Worked examples of the manual, with its own numbers -/

/-- R72's example: a settled cell at duty 320, a 10 mV droop. -/
theorem test_fallback :
    fbOut [40960, -8192, 0, 65536, -104858, 29491, 10617] [81920, 81920, 81920] [0, 0, 0] 8 = (86016, 336) := by decide

/-- A coefficient field from (index, coefficient) pairs. -/
def coefs (l : List (Nat × Int)) : Nat := l.foldl (fun n p => n + 2 ^ (18 * p.1) * (p.2 % 2 ^ 18).toNat) 0

/-- The set of the example of Table 3-7: C the unit matrix, and the rows it names of L, K, A and B. -/
def setOfTable37 : Nat :=
  coefs ((List.range 16).map (fun i => (20 * i + i, 32768)) ++
    [(320, 13107), (328, -1638), (320 + 16 * 8 + 8, 16384), (320 + 16 * 16 + 8, 8192), (320 + 16 * 16 + 9, 8192), (640, -98304), (648, -16384), (656, 16384),
     (800, 24576), (808, 49152), (816, -49152), (1120, 8192)])

/-- Table 3-7: one sample of t37.c05, regulator 0. -/
theorem test_sample :
    let x : SampleIn := { c := 5, xp := [-16, 0, 0, 0, 0, 0, 0, 0, 725, 741, 0, 0, 0, 0, 0, 0, 730], y := [-20, 0, 0, 0, 0, 0, 0, 0, 738, 748], f := [0, 0, 0, 0]
                          beta := [1310], miss := List.replicate 8 false, rep := [], lim := List.replicate 8 (0, 767) }
    let o := runSample setOfTable37 x fun a => a.word [] .M0
    (at0 o.nu 0, at0 o.nu 8, at0 o.nu 9) = (-4, 13, 7) ∧ (at0 o.xc 0, at0 o.xc 8, at0 o.xc 16) = (-18, 732, 735) ∧ (at0 o.d 0, at0 o.w 0) = (341, 54) ∧
      (at0 o.xp 0, at0 o.xp 16) = (-4, 735) := by
  dsimp only; decide +kernel

/-- The cluster of the outer loop's example, and its new words. -/
def outerExample : Cluster :=
  let cell := fun (im : Int) (sh : Int) => ({ latches := List.replicate 8 { ima := im, vin := 176, vcode := 0, miss := false }, sh := sh } : Cell)
  let k : Cluster := { present := true, cells := [cell 2300 3, cell 2340 0, cell 2360 0, cell 2480 0, cell 2290 0, cell 2350 0, cell 2330 0, cell 2350 0]
                       fus := { mg := 10 }, thm := { temp := 78 }, seq := { ref := 288 * 1000 } }
  k

/-- R125's example: icl, mg, tc, ρ and β of regulators 0 and 3. -/
theorem test_outer :
    let k := { outerExample with seq := { outerExample.seq with ref := absOf 360 } }
    let v := outerCluster [word [(0xF8, 24), (30, 16), (42, 0)], word [(10, 16), (8, 8), (70, 0)]] 16 2 (resetBands.getD 0 []) 0 5 k
    k.seq.rs = 1440 ∧ v.fus.icl = 18800 ∧ v.fus.mg = 12 ∧ v.fus.tc = -4 ∧ ((v.cell 0).sh, (v.cell 3).sh) = (3, -1) ∧
      ((v.cell 0).rhoN, (v.cell 3).rhoN) = (1439, 1435) ∧ ((v.cell 0).betaN, (v.cell 3).betaN) = (1339, 1336) := by
  dsimp only; decide

/-- The members of Table 7-6. -/
def claimsOfTable76 : List Claim :=
  [⟨0, 6000, 21000, 0⟩, ⟨1, 6000, 21000, 0⟩, ⟨2, 6000, 21000, 0⟩, ⟨3, 6000, 21000, 0⟩, ⟨4, 6000, 18000, 0⟩, ⟨5, 6000, 18000, 0⟩, ⟨6, 5500, 15500, 0⟩,
   ⟨7, 5500, 11500, 0⟩]

theorem test_allocation_107000 :
    allocate 107000 0 claimsOfTable76 = ([15000, 15000, 15000, 15000, 13200, 13200, 11500, 9100], false) := by decide

theorem test_allocation_57000 :
    allocate 57000 0 claimsOfTable76 = ([7500, 7500, 7500, 7500, 7200, 7200, 6500, 6100], false) := by decide

/-- Step 6 of Table 7-7: the floor of position 4 raised to 7,400 W. -/
theorem test_allocation_raised :
    allocate 57000 0 (claimsOfTable76.map fun x => if x.pos = 4 then { x with floor := 7400 } else x) =
      ([7309, 7309, 7309, 7308, 8324, 7046, 6372, 6023], false) := by decide

/-- The example of chapter 5: the three words of the hint, its edges, and the scaled steps at τ = 14. -/
theorem test_hint :
    let w : Word := 0x10FFC996
    let s := wT fun x => { x with esc := { x.esc with fifo := [⟨w, 0, 0⟩, ⟨0x14141919, 0, 0⟩, ⟨0x1F4, 0, 0⟩], trust := 14 } }
    let e := ((schedule 0 1 16 s.dev).tl 0).esc
    e.edges.map (fun g => (g.isEnd, g.ns, g.tag, g.dq)) = [(false, 2400, 9, [25, 25, 20, 20]), (true, 10400, 9, [-25, -25, -20, -20])] ∧
      e.edges.all (fun g => g.mask == List.range 10) = true ∧ [25, 20].map (fun v : Int => divHE (v * 14 * 25) 32) = [273, 219] := by
  dsimp only; decide +kernel

/-- Table 10-13: the handle of the example, and ERR where the operation completes with LOCKED. -/
theorem test_error_word :
    let h : Word := 0x7F0005
    let x := ({} : Core).complete 0x30 7
    hTile h = 0x7F ∧ hCl h = 5 ∧ hT h = false ∧ word [(x.fails, 16), (x.errOp, 8), (x.errStatus, 0)] = 0x00013007 := by dsimp only; decide

/-- Table 10-14: the late refusal as LREF reads it. -/
theorem test_late_refusal :
    lrefWord { lref := [{ status := 7, op := 0x30, tile := 12, cluster := 3, seq := 0 }] } = 0x018C3007 := by decide

/-- The rate-limited HICCUP of chapter 13: words 0 and 3 of its record. -/
theorem test_record :
    let r : Rec := { code := 0x0103, sub := 1, level := 0, fault := true, tile := 37, cluster := 5, reg := some 2, phase := some 1, rep := 3 }
    (recHead r).getD 0 0 = 0x01031100 ∧ (recHead r).getD 3 0 = 0x4A5AA000 := by dsimp only; decide

/-- Table 6-5: the OPREQ frame of the example is taken with its RID, code and FCODE, and DONE carries its receipt. -/
theorem test_descent :
    let s := wD fun d => d.onC 0 5 fun k => { k with seq := { k.seq with st := .A, atarget := 440, target := some 440 } }
    let d := palRequest 0 0x22959048 s.dev
    ((d.cl 0 5).seq.queue.map fun x => (x.rid, x.code, x.fcode)) = [(some 5, 400, 72)] ∧ (d.tl 0).pal.rcpt = 0 ∧
      word [(6, 28), (5, 20), (0, 18), (400, 8)] ||| 0xF = (0x6051900F : Word) := by
  dsimp only; decide

/-- The example of chapter 15: SEQ_CLPS of c15, a link cluster, reads 4 after cold reset; FSTATE 2 is out of its range. -/
theorem test_register :
    windowWord (liveView [] w0.dev 0) 0 0x78C = 4 ∧ domOf 15 = .K ∧ (tileChecks (liveView [] w0.dev 0) 7 0 0x78C 0x20).first = 1 ∧
    (tileChecks (liveView [] w0.dev 0) 7 0 0x78C 0x90).first = 0 := by decide

/-- FIPS 180-4's example message, on which R360 rests. -/
theorem test_sha256_abc : (sha256 [0x61, 0x62, 0x63]).take 4 = [0xBA, 0x78, 0x16, 0xBF] := by decide +kernel

/-! ### Single commands -/

/-- What the Ridge's register `a` holds after a command, with Z, N, C and V. -/
def after (i : Instr) (s : State) (a : Nat) : Option (Word × Bool × Bool × Bool × Bool) :=
  match exec i s with
  | .next t => let x := t.dev.core .ridge; some (x.rd a, x.z, x.n, x.c, x.v)
  | _ => none

/-- Table 10-13: LUI g1, 0x1FC; ORI g1, g1, 5; ADDI g2, g0, 400. -/
theorem test_lui : (after (.lui .ridge 1 0x1FC) w0 1).map (·.1) = some 0x007F0000 := by decide
theorem test_ori : (after (.ori .ridge 1 1 5) (wK fun x => { x with g := x.g.set 1 0x007F0000 }) 1).map (·.1) = some 0x007F0005 := by decide
theorem test_addi : (after (.addi .ridge 2 0 400) w0 2).map (·.1) = some 400 := by decide

/-- R277: signed overflow, and the carry of an addition that wraps. -/
theorem test_add_overflow :
    after (.add .ridge 3 1 2) (wK fun x => { x with g := (x.g.set 1 0x7FFFFFFF).set 2 1 }) 3 = some (0x80000000, false, true, false, true) := by decide
theorem test_add_carry :
    after (.add .ridge 3 1 2) (wK fun x => { x with g := (x.g.set 1 0xFFFFFFFF).set 2 1 }) 3 = some (0, true, false, true, false) := by decide

/-- R276, R277: C of SUB is 1 where there is no borrow. -/
theorem test_sub : after (.sub .ridge 1 1 2) (wK fun x => { x with g := (x.g.set 1 5).set 2 6 }) 1 = some (0xFFFFFFFF, false, true, false, false) := by
  decide

/-- R273: a write of g0 is discarded. -/
theorem test_g0 : (after (.addi .ridge 0 0 400) w0 0).map (·.1) = some 0 := by decide

/-- A shift by the low five bits of a register, and an arithmetic shift of a negative word. -/
theorem test_shl : (after (.shl .ridge 3 1 2) (wK fun x => { x with g := (x.g.set 1 1).set 2 33 }) 3).map (·.1) = some 2 := by decide
theorem test_srai : (after (.srai .ridge 3 1 31) (wK fun x => { x with g := x.g.set 1 0x80000000 }) 3).map (·.1) = some 0xFFFFFFFF := by decide

/-- R277: a byte load extends its sign; bytes lie low first. -/
theorem test_ldb :
    (after (.ldb .ridge 3 0 1) { w0 with mem := Mem.writeL [] ridgeD [0x12, 0x80, 0x34] } 3).map (·.1) = some 0xFFFFFF80 := by decide
theorem test_ldhu :
    (after (.ldhu .ridge 3 0 0) { w0 with mem := Mem.writeL [] ridgeD [0x12, 0x80, 0x34] } 3).map (·.1) = some 0x8012 := by decide

/-- An empty queue leaves the block as it is; a table row has no word. -/
theorem test_idle : step State.reset = .next State.reset := rfl
theorem test_no_words : decodeTableWord 8 0 = none ∧ w0.withFetchWord 8 0 = w0 := ⟨rfl, rfl⟩

/-- R384: after reset no core runs and the host port is closed. -/
theorem test_reset : State.reset.Inv ∧ State.reset.dev.ridge.on = false ∧ State.reset.dev.hp.closed = true ∧ State.reset.dev.boot.porst = true := by
  decide

/-! ### Hypotheses of the statements -/



theorem witness_GeneralRegisters_1 :
    let i : Nat := 15
    let j : Nat := 0
    i % 16 ≠ 0 ∧ i % 16 ≠ j % 16 := by dsimp only; decide

theorem witness_SumsAndProducts_1 :
    let s := w0
    let k : CoreId := .ridge
    s.Inv ∧ s.dev.ready k = true := by dsimp only; decide

theorem witness_SumsAndProducts_2 :
    let s := w0
    let k : CoreId := (.rafter 0)
    s.Inv ∧ s.dev.ready k = true := by dsimp only; decide

theorem witness_LogicAndShifts_1 :
    let s := w0
    let k : CoreId := .ridge
    s.Inv ∧ s.dev.ready k = true := by dsimp only; decide

theorem witness_LogicAndShifts_2 :
    let s := w0
    let k : CoreId := (.rafter 1)
    let sh : Nat := 31
    s.Inv ∧ s.dev.ready k = true ∧ sh < 32 := by dsimp only; decide

theorem witness_BranchesAndJumps_1 :
    let s := w0
    let k : CoreId := (.rafter 0)
    let cond : Nat := 14
    s.Inv ∧ s.dev.ready k = true ∧ cond < 15 ∧ (s.dev.core k).active = false := by dsimp only; decide

theorem witness_UndefinedAndNotReady_1 :
    let w : Word := 0
    let op := BitVec.toNat w / 2 ^ 26
    let a := BitVec.toNat w / 2 ^ 22 % 16
    let b := BitVec.toNat w / 2 ^ 18 % 16
    let c := BitVec.toNat w / 2 ^ 14 % 16
    (op = 0 ∨ 1 ≤ op ∧ op ≤ 11 ∧ BitVec.toNat w % 2 ^ 14 ≠ 0 ∨ op = 20 ∧ b ≠ 0 ∨ 21 ≤ op ∧ op ≤ 23 ∧ BitVec.toNat w % 2 ^ 18 / 32 ≠ 0 ∨ op = 32 ∧ (b ≠ 0 ∨ a = 15) ∨ op = 33 ∧ b ≠ 0 ∨ op = 34 ∧ c ≠ 0 ∨ op = 35 ∧ BitVec.toNat w % 2 ^ 26 ≠ 0) := by dsimp only; decide

theorem witness_UndefinedAndNotReady_2 :
    let w : Word := 0x04000000
    let op := BitVec.toNat w / 2 ^ 26
    let a := BitVec.toNat w / 2 ^ 22 % 16
    let b := BitVec.toNat w / 2 ^ 18 % 16
    (1 ≤ op ∧ op ≤ 11 ∧ BitVec.toNat w % 2 ^ 14 = 0 ∨ 16 ≤ op ∧ op ≤ 19 ∨ 24 ≤ op ∧ op ≤ 31 ∨ op = 32 ∧ b = 0 ∧ a ≠ 15 ∨ BitVec.toNat w = 35 * 2 ^ 26) := by dsimp only; decide

theorem witness_UndefinedAndNotReady_3 :
    let w : Word := 0xC0000040
    let op := BitVec.toNat w / 2 ^ 26
    48 ≤ op ∧ op ≤ 58 := by dsimp only; decide

theorem witness_UndefinedAndNotReady_4 :
    let s := w0
    let k : CoreId := .ridge
    let w : Word := 0xC0000040
    s.Inv ∧ s.dev.ready k = true ∧ inCode k (s.dev.core k).pc = true ∧ undefinedWord w = true := by dsimp only; decide

theorem witness_UndefinedAndNotReady_5 :
    let s := w0
    let k : CoreId := .ridge
    let w : Word := 0xC000003F
    s.Inv ∧ s.dev.ready k = true ∧ inCode k (s.dev.core k).pc = true ∧ undefinedWord w = false := by dsimp only; decide

theorem witness_UndefinedAndNotReady_6 :
    let s := wK fun x => { x with pc := 0x20000 }
    let k : CoreId := .ridge
    s.Inv ∧ s.dev.ready k = true ∧ inCode k (s.dev.core k).pc = false := by dsimp only; decide

theorem witness_UndefinedAndNotReady_7 :
    let s := wK fun x => { x with on := false }
    let k : CoreId := .ridge
    let i : Instr := (.setp .ridge 1 2 3)
    s.Inv ∧ kxCore i = some k ∧ s.dev.ready k = false := by dsimp only; decide

theorem witness_LoadsAndStores_1 :
    let s := wR fun x => { x with g := x.g.set 2 0x20fffc }
    let k : CoreId := (.rafter 0)
    let t : Nat := 0
    let b : Nat := 2
    let imm : Nat := 0
    let base : Nat := (storeBase 0 + 0xFFFC)
    let ea := BitVec.toNat ((s.dev.core k).rd b + sext18 imm)
    s.Inv ∧ s.dev.ready k = true ∧
      (ea < dataSize k ∧ base = dataBase k + ea ∨ k = CoreId.rafter t ∧ 2097152 ≤ ea ∧ ea < 2162688 ∧ base = storeBase t + (ea - 2097152) ∨ k = CoreId.rafter t ∧ 3145728 ≤ ea ∧ ea < 3188736 ∧ base = fmaxBase t + (ea - 3145728)) ∧
      ea % 4 = 0 ∧ ea % 2 = 0 := by dsimp only; decide

theorem witness_LoadsAndStores_2 :
    let s := w0
    let k : CoreId := .ridge
    let b : Nat := 0
    let imm : Nat := 0xFFFC
    let ea := BitVec.toNat ((s.dev.core k).rd b + sext18 imm)
    s.Inv ∧ s.dev.ready k = true ∧ ea < dataSize k ∧ ea % 4 = 0 ∧ ea % 2 = 0 := by dsimp only; decide

theorem witness_LoadsAndStores_3 :
    let s := w0
    let k : CoreId := .ridge
    let b : Nat := 0
    let imm : Nat := 0xFFFC
    let ea := BitVec.toNat ((s.dev.core k).rd b + sext18 imm)
    let j : Nat := 0
    s.Inv ∧ s.dev.ready k = true ∧ ea < dataSize k ∧ ea % 4 = 0 ∧ j < 4 ∧ ea % 2 = 0 ∧ j < 2 ∧ j < 1 := by dsimp only; decide

theorem witness_LoadsAndStores_4 :
    let s := w0
    let k : CoreId := .ridge
    let b : Nat := 0
    let imm : Nat := 0xFFFC
    let ea := BitVec.toNat ((s.dev.core k).rd b + sext18 imm)
    let q : Nat := dataBase k + ea + 4
    s.Inv ∧ s.dev.ready k = true ∧ ea < dataSize k ∧ ea % 4 = 0 ∧ (q < dataBase k + ea ∨ dataBase k + ea + 4 ≤ q) ∧ ea % 2 = 0 ∧
      (q < dataBase k + ea ∨ dataBase k + ea + 2 ≤ q) ∧ (q < dataBase k + ea ∨ dataBase k + ea + 1 ≤ q) := by dsimp only; decide

theorem witness_LoadsAndStores_5 :
    let s := wK fun x => { x with g := x.g.set 2 0x100000 }
    let b : Nat := 2
    let imm : Nat := 0
    let d := s.dev
    let ea := BitVec.toNat (d.ridge.rd b + sext18 imm)
    let at' := ea - 1048576
    s.Inv ∧ s.dev.ready CoreId.ridge = true ∧ ea % 4 = 0 ∧ 1048576 ≤ ea ∧ ea < 1507328 ∧ at' < 65536 := by dsimp only; decide

theorem witness_LoadsAndStores_6 :
    let s := wK fun x => { x with g := x.g.set 2 0x110000 }
    let b : Nat := 2
    let imm : Nat := 0
    let d := s.dev
    let ea := BitVec.toNat (d.ridge.rd b + sext18 imm)
    let at' := ea - 1048576
    s.Inv ∧ s.dev.ready CoreId.ridge = true ∧ ea % 4 = 0 ∧ 1048576 ≤ ea ∧ ea < 1507328 ∧ 65536 ≤ at' := by dsimp only; decide

theorem witness_LoadsAndStores_7 :
    let s := wR fun x => { x with g := x.g.set 2 0x100000 }
    let t : Nat := 0
    let b : Nat := 2
    let imm : Nat := 0
    let d := s.dev
    let k := CoreId.rafter t
    let ea := BitVec.toNat ((d.core k).rd b + sext18 imm)
    let a : Nat := 1
    let v := (d.core k).rd a
    let off := ea - 1048576
    let st := if windowReg off = false then 1 else (tileChecks (liveView s.mem d t) 9 t off v).first
    s.Inv ∧ s.dev.ready (CoreId.rafter t) = true ∧ ea % 4 = 0 ∧ 1048576 ≤ ea ∧ ea < 1052672 ∧ st ≠ 0 := by dsimp only; decide

theorem witness_LoadsAndStores_8 :
    let s := wR fun x => { x with g := x.g.set 2 0x10000c }
    let t : Nat := 0
    let a : Nat := 1
    let b : Nat := 2
    let imm : Nat := 0
    let d := s.dev
    let k := CoreId.rafter t
    let ea := BitVec.toNat ((d.core k).rd b + sext18 imm)
    let v := (d.core k).rd a
    let off := ea - 1048576
    let st := if windowReg off = false then 1 else (tileChecks (liveView s.mem d t) 9 t off v).first
    s.Inv ∧ s.dev.ready (CoreId.rafter t) = true ∧ ea % 4 = 0 ∧ 1048576 ≤ ea ∧ ea < 1052672 ∧ st = 0 := by dsimp only; decide

theorem witness_LoadsAndStores_9 :
    let s := wR fun x => { x with g := x.g.set 2 0x200000 }
    let t : Nat := 0
    let a : Nat := 1
    let b : Nat := 2
    let imm : Nat := 0
    let d := s.dev
    let k := CoreId.rafter t
    let ea := BitVec.toNat ((d.core k).rd b + sext18 imm)
    let o := ea - 2097152
    let live := ∃ n, slotAt o = some n ∧ slotLive s.mem (d.tl t) t n = true
    let all := [(Instr.stw k a b imm, 29, 4), (Instr.sth k a b imm, 30, 2), (Instr.stb k a b imm, 31, 1)]
    let i : Instr := (.stw (.rafter 0) 1 2 0)
    let op : Nat := 0x1D
    let n : Nat := 4
    s.Inv ∧ s.dev.ready (CoreId.rafter t) = true ∧ 2097152 ≤ ea ∧ ea < 2162688 ∧ (i, op, n) ∈ all ∧ ea % n = 0 ∧ ¬live ∧
      (o < 61568 ∨ 61824 ≤ o ∧ o < 62528) := by dsimp only; decide

theorem witness_LoadsAndStores_10 :
    let s := wR fun x => { x with g := x.g.set 2 0x200000 }
    let t : Nat := 0
    let a : Nat := 1
    let b : Nat := 2
    let imm : Nat := 0
    let d := s.dev
    let k := CoreId.rafter t
    let ea := BitVec.toNat ((d.core k).rd b + sext18 imm)
    let o := ea - 2097152
    let live := ∃ n, slotAt o = some n ∧ slotLive s.mem (d.tl t) t n = true
    let all := [(Instr.stw k a b imm, 29, 4), (Instr.sth k a b imm, 30, 2), (Instr.stb k a b imm, 31, 1)]
    let i : Instr := (.stw (.rafter 0) 1 2 0)
    let op : Nat := 0x1D
    let n : Nat := 4
    let j : Nat := 0
    s.Inv ∧ s.dev.ready (CoreId.rafter t) = true ∧ 2097152 ≤ ea ∧ ea < 2162688 ∧ (i, op, n) ∈ all ∧ ea % n = 0 ∧ ¬live ∧
      (o < 61568 ∨ 61824 ≤ o ∧ o < 62528) ∧ j < n := by dsimp only; decide

theorem witness_LoadsAndStores_11 :
    let s := wR fun x => { x with g := x.g.set 2 0x200000 }
    let t : Nat := 0
    let a : Nat := 1
    let b : Nat := 2
    let imm : Nat := 0
    let d := s.dev
    let k := CoreId.rafter t
    let ea := BitVec.toNat ((d.core k).rd b + sext18 imm)
    let o := ea - 2097152
    let live := ∃ n, slotAt o = some n ∧ slotLive s.mem (d.tl t) t n = true
    let all := [(Instr.stw k a b imm, 29, 4), (Instr.sth k a b imm, 30, 2), (Instr.stb k a b imm, 31, 1)]
    let i : Instr := (.stw (.rafter 0) 1 2 0)
    let op : Nat := 0x1D
    let n : Nat := 4
    let q : Nat := dataBase k + ea + 4
    s.Inv ∧ s.dev.ready (CoreId.rafter t) = true ∧ 2097152 ≤ ea ∧ ea < 2162688 ∧ (i, op, n) ∈ all ∧ ea % n = 0 ∧ ¬live ∧
      (o < 61568 ∨ 61824 ≤ o ∧ o < 62528) ∧ (q < storeBase t + o ∨ storeBase t + o + n ≤ q) := by dsimp only; decide

theorem witness_LoadsAndStores_12 :
    let s := wR fun x => { x with g := x.g.set 2 0x20f080 }
    let t : Nat := 0
    let a : Nat := 1
    let b : Nat := 2
    let imm : Nat := 0
    let d := s.dev
    let k := CoreId.rafter t
    let ea := BitVec.toNat ((d.core k).rd b + sext18 imm)
    let o := ea - 2097152
    let all := [(Instr.stw k a b imm, 29, 4), (Instr.sth k a b imm, 30, 2), (Instr.stb k a b imm, 31, 1)]
    let i : Instr := (.stw (.rafter 0) 1 2 0)
    let op : Nat := 0x1D
    let n : Nat := 4
    s.Inv ∧ s.dev.ready (CoreId.rafter t) = true ∧ 2097152 ≤ ea ∧ ea < 2162688 ∧ (i, op, n) ∈ all ∧ ea % n = 0 ∧ 61568 ≤ o ∧ o < 61824 := by dsimp only; decide

theorem witness_LoadsAndStores_13 :
    let s := wR fun x => { x with g := x.g.set 2 0x20f440 }
    let t : Nat := 0
    let a : Nat := 1
    let b : Nat := 2
    let imm : Nat := 0
    let d := s.dev
    let k := CoreId.rafter t
    let ea := BitVec.toNat ((d.core k).rd b + sext18 imm)
    let o := ea - 2097152
    let all := [(Instr.stw k a b imm, 29, 4), (Instr.sth k a b imm, 30, 2), (Instr.stb k a b imm, 31, 1)]
    let i : Instr := (.stw (.rafter 0) 1 2 0)
    let op : Nat := 0x1D
    let n : Nat := 4
    s.Inv ∧ s.dev.ready (CoreId.rafter t) = true ∧ 2097152 ≤ ea ∧ ea < 2162688 ∧ (i, op, n) ∈ all ∧ ea % n = 0 ∧ 62528 ≤ o := by dsimp only; decide

theorem witness_LoadsAndStores_14 :
    let s := wT fun x => { x with core := { x.core with g := x.core.g.set 2 0x20EFFC }, clusters := x.clusters.modify 0 fun k => { k with fus := { k.fus with slot := 19 } } }
    let t : Nat := 0
    let a : Nat := 1
    let b : Nat := 2
    let imm : Nat := 0
    let d := s.dev
    let k := CoreId.rafter t
    let ea := BitVec.toNat ((d.core k).rd b + sext18 imm)
    let o := ea - 2097152
    let live := ∃ n, slotAt o = some n ∧ slotLive s.mem (d.tl t) t n = true
    let all := [(Instr.stw k a b imm, 29, 4), (Instr.sth k a b imm, 30, 2), (Instr.stb k a b imm, 31, 1)]
    let i : Instr := (.stw (.rafter 0) 1 2 0)
    let op : Nat := 0x1D
    let n : Nat := 4
    s.Inv ∧ s.dev.ready (CoreId.rafter t) = true ∧ 2097152 ≤ ea ∧ ea < 2162688 ∧ (i, op, n) ∈ all ∧ ea % n = 0 ∧ live := by dsimp only; decide

theorem witness_RidgeOperationsSent_1 :
    let s := w0
    let b : Nat := 0
    let c : Nat := 0
    let imm : Nat := 0
    let d := s.dev
    let h := d.ridge.rd b
    let v := d.ridge.rd c
    s.Inv ∧ s.dev.ready CoreId.ridge = true ∧ handleOk Writer.ridge false h = true ∧ hT h = false ∧ imm < 64 ∧ BitVec.toNat v < 1024 ∧ imm < 16 ∧
      BitVec.toNat v < 2 ^ 16 ∧ imm < 256 ∧ imm < 1024 ∧ fld h 31 23 = 0 ∧ fld h 15 14 = 0 ∧ hTile h < 96 := by dsimp only; decide

theorem witness_RidgeOperationsSent_2 :
    let s := wK fun x => { x with g := x.g.set 1 0x800000 }
    let b : Nat := 1
    let c : Nat := 0
    let d := s.dev
    let h := d.ridge.rd b
    let v := d.ridge.rd c
    s.Inv ∧ s.dev.ready CoreId.ridge = true ∧ handleOk Writer.ridge false h = true ∧ hT h = true ∧ BitVec.toNat v < 2 ^ 16 ∧
      (fld h 31 23 ≠ 0 ∨ fld h 15 14 ≠ 0 ∨ 96 ≤ fld h 22 16) := by dsimp only; decide

theorem witness_RidgeOperationsSent_3 :
    let s := wK fun x => { x with g := x.g.set 1 0x800000 }
    let b : Nat := 1
    let c : Nat := 0
    let imm : Nat := 0
    let d := s.dev
    let h := d.ridge.rd b
    let v := d.ridge.rd c
    let marked := fld h 31 24 ≠ 0 ∨ fld h 15 5 ≠ 0 ∨ 18 ≤ fld h 4 0 ∨ tst h 23 = true ∧ fld h 4 0 ≠ 0
    let bad := marked ∨ 96 ≤ fld h 22 16
    let answers := (shadowView d (hTile h)).d.answersT (hTile h) = true ∧ boolAt d.pur.lost (hTile h) = false
    let plain := [(Instr.setp CoreId.ridge b c imm, 48, 64), (Instr.pstate CoreId.ridge b imm, 49, 16), (Instr.tblsel CoreId.ridge b imm, 52, 256), (Instr.grant CoreId.ridge b imm, 58, 1024)]
    let i : Instr := Instr.setp .ridge b c imm
    let op : Nat := 0x30
    let n : Nat := 64
    s.Inv ∧ s.dev.ready CoreId.ridge = true ∧ (i, op, n) ∈ plain ∧ imm < n ∧ ¬bad ∧ tst h 23 = true ∧ BitVec.toNat v < 1024 ∧ ¬answers := by dsimp only; decide

theorem witness_RidgeOperationsSent_4 :
    let s := w0
    let imm : Nat := 64
    s.Inv ∧ s.dev.ready CoreId.ridge = true ∧ 64 ≤ imm ∧ imm < 2 ^ 14 ∧ 16 ≤ imm ∧ 0 < imm := by dsimp only; decide

theorem witness_RidgeOperationsSent_5 :
    let s := w0
    let imm : Nat := 256
    s.Inv ∧ s.dev.ready CoreId.ridge = true ∧ 256 ≤ imm := by dsimp only; decide

theorem witness_RidgeOperationsSent_6 :
    let s := w0
    let imm : Nat := 1024
    s.Inv ∧ s.dev.ready CoreId.ridge = true ∧ 1024 ≤ imm := by dsimp only; decide

theorem witness_RidgeOperationsSent_7 :
    let s := wK fun x => { x with g := x.g.set 1 0x600000 }
    let b : Nat := 1
    let c : Nat := 0
    let imm : Nat := 0
    let d := s.dev
    let h := d.ridge.rd b
    let marked := fld h 31 24 ≠ 0 ∨ fld h 15 5 ≠ 0 ∨ 18 ≤ fld h 4 0 ∨ tst h 23 = true ∧ fld h 4 0 ≠ 0
    let bad := marked ∨ 96 ≤ fld h 22 16
    let plain := [(Instr.setp CoreId.ridge b c imm, 48, 64), (Instr.pstate CoreId.ridge b imm, 49, 16), (Instr.tblsel CoreId.ridge b imm, 52, 256), (Instr.grant CoreId.ridge b imm, 58, 1024)]
    let i : Instr := Instr.setp .ridge b c imm
    let op : Nat := 0x30
    let n : Nat := 64
    s.Inv ∧ s.dev.ready CoreId.ridge = true ∧ (i, op, n) ∈ plain ∧ imm < n ∧ bad := by dsimp only; decide

theorem witness_RidgeOperationsSent_8 :
    let s := wK fun x => { x with g := x.g.set 1 0x600000 }
    let b : Nat := 1
    let d := s.dev
    let h := d.ridge.rd b
    let marked := fld h 31 24 ≠ 0 ∨ fld h 15 5 ≠ 0 ∨ 18 ≤ fld h 4 0 ∨ tst h 23 = true ∧ fld h 4 0 ≠ 0
    let bad := marked ∨ 96 ≤ fld h 22 16
    s.Inv ∧ s.dev.ready CoreId.ridge = true ∧ bad ∧ (marked ∨ 96 ≤ fld h 22 16 ∧ ¬(fld h 22 16 = 127 ∧ tst h 23 = true)) := by dsimp only; decide

theorem witness_RidgeOperationsSent_9 :
    let s := wK fun x => { x with g := x.g.set 1 0xFF0000 }
    let b : Nat := 1
    let d := s.dev
    let h := d.ridge.rd b
    s.Inv ∧ s.dev.ready CoreId.ridge = true ∧ h = 16711680 := by dsimp only; decide

theorem witness_RidgeOperationsSent_10 :
    let s := wK fun x => { x with g := x.g.set 1 0x600000 }
    let b : Nat := 1
    let c : Nat := 0
    let imm : Nat := 63
    let d := s.dev
    let h := d.ridge.rd b
    let marked := fld h 31 24 ≠ 0 ∨ fld h 15 5 ≠ 0 ∨ 18 ≤ fld h 4 0 ∨ tst h 23 = true ∧ fld h 4 0 ≠ 0
    let bad := marked ∨ 96 ≤ fld h 22 16
    let plain := [(Instr.setp CoreId.ridge b c imm, 48, 64), (Instr.pstate CoreId.ridge b imm, 49, 16), (Instr.tblsel CoreId.ridge b imm, 52, 256), (Instr.grant CoreId.ridge b imm, 58, 1024)]
    let i : Instr := (.setp .ridge 1 0 63)
    let op : Nat := 0x30
    let n : Nat := 64
    s.Inv ∧ s.dev.ready CoreId.ridge = true ∧ (i, op, n) ∈ plain ∧ imm < n ∧ bad := by dsimp only; decide

theorem witness_RidgeOperationsSent_11 :
    let s := wK fun x => { x with g := x.g.set 1 0x810000 }
    let b : Nat := 1
    let c : Nat := 0
    let imm : Nat := 15
    let d := s.dev
    let h := d.ridge.rd b
    let v := d.ridge.rd c
    let marked := fld h 31 24 ≠ 0 ∨ fld h 15 5 ≠ 0 ∨ 18 ≤ fld h 4 0 ∨ tst h 23 = true ∧ fld h 4 0 ≠ 0
    let bad := marked ∨ 96 ≤ fld h 22 16
    let answers := (shadowView d (hTile h)).d.answersT (hTile h) = true ∧ boolAt d.pur.lost (hTile h) = false
    let plain := [(Instr.setp CoreId.ridge b c imm, 48, 64), (Instr.pstate CoreId.ridge b imm, 49, 16), (Instr.tblsel CoreId.ridge b imm, 52, 256), (Instr.grant CoreId.ridge b imm, 58, 1024)]
    let i : Instr := (.pstate .ridge 1 15)
    let op : Nat := 0x31
    let n : Nat := 16
    s.Inv ∧ s.dev.ready CoreId.ridge = true ∧ (i, op, n) ∈ plain ∧ imm < n ∧ ¬bad ∧ tst h 23 = true ∧ BitVec.toNat v < 1024 ∧ ¬answers := by dsimp only; decide

theorem witness_RidgeOperationsSent_12 :
    let s := wD fun d => { d with mirrors := [{ cur := { tile := d.tl 0 } }, {}], ridge := { d.ridge with g := d.ridge.g.set 1 0x800000 } }
    let b : Nat := 1
    let c : Nat := 0
    let imm : Nat := 63
    let d := s.dev
    let h := d.ridge.rd b
    let v := d.ridge.rd c
    let marked := fld h 31 24 ≠ 0 ∨ fld h 15 5 ≠ 0 ∨ 18 ≤ fld h 4 0 ∨ tst h 23 = true ∧ fld h 4 0 ≠ 0
    let bad := marked ∨ 96 ≤ fld h 22 16
    let answers := (shadowView d (hTile h)).d.answersT (hTile h) = true ∧ boolAt d.pur.lost (hTile h) = false
    let plain := [(Instr.setp CoreId.ridge b c imm, 48, 64), (Instr.pstate CoreId.ridge b imm, 49, 16), (Instr.tblsel CoreId.ridge b imm, 52, 256), (Instr.grant CoreId.ridge b imm, 58, 1024)]
    let i : Instr := (.setp .ridge 1 0 63)
    let op : Nat := 0x30
    let n : Nat := 64
    s.Inv ∧ s.dev.ready CoreId.ridge = true ∧ (i, op, n) ∈ plain ∧ imm < n ∧ ¬bad ∧ tst h 23 = true ∧ BitVec.toNat v < 1024 ∧ answers := by dsimp only; decide

theorem witness_RidgeOperationsSent_13 :
    let s := wD fun d => { d with ridge := { d.ridge with g := d.ridge.g.set 1 0x800000 } }
    let b : Nat := 1
    let c : Nat := 0
    let imm : Nat := 63
    let d := s.dev
    let h := d.ridge.rd b
    let v := d.ridge.rd c
    let marked := fld h 31 24 ≠ 0 ∨ fld h 15 5 ≠ 0 ∨ 18 ≤ fld h 4 0 ∨ tst h 23 = true ∧ fld h 4 0 ≠ 0
    let bad := marked ∨ 96 ≤ fld h 22 16
    let answers := (shadowView d (hTile h)).d.answersT (hTile h) = true ∧ boolAt d.pur.lost (hTile h) = false
    let plain := [(Instr.setp CoreId.ridge b c imm, 48, 64), (Instr.pstate CoreId.ridge b imm, 49, 16), (Instr.tblsel CoreId.ridge b imm, 52, 256), (Instr.grant CoreId.ridge b imm, 58, 1024)]
    let i : Instr := (.setp .ridge 1 0 63)
    let op : Nat := 0x30
    let n : Nat := 64
    s.Inv ∧ s.dev.ready CoreId.ridge = true ∧ (i, op, n) ∈ plain ∧ imm < n ∧ ¬bad ∧ tst h 23 = true ∧ BitVec.toNat v < 1024 ∧ ¬answers := by dsimp only; decide

theorem witness_RafterOperationsAct_1 :
    let s := w0
    let t : Nat := 0
    let b : Nat := 0
    let c : Nat := 0
    let imm : Nat := 0
    let d := s.dev
    let h := (d.core (CoreId.rafter t)).rd b
    let v := (d.core (CoreId.rafter t)).rd c
    let f : Flying := { src := Writer.rafter t, tile := t, cluster := if 48 = 51 then 0 else hCl h, op := 48, seq := 0, kind := OpKind.setp (BitVec.toNat v) imm }
    let st := (opChecks (liveView s.mem d t) f).first
    s.Inv ∧ s.dev.ready (CoreId.rafter t) = true ∧ t < 96 ∧ handleOk (Writer.rafter t) false h = true ∧ hT h = false ∧ imm < 64 ∧
      BitVec.toNat v < 1024 ∧ st ≠ 0 := by dsimp only; decide

theorem witness_RafterOperationsAct_2 :
    let s := w0
    let t : Nat := 0
    let b : Nat := 0
    let imm : Nat := 0
    let d := s.dev
    let h := (d.core (CoreId.rafter t)).rd b
    let f : Flying := { src := Writer.rafter t, tile := t, cluster := if 49 = 51 then 0 else hCl h, op := 49, seq := 0, kind := OpKind.regw (128 * hCl h + 12) (BitVec.ofNat 32 (16 * imm)) }
    let st := (opChecks (liveView s.mem d t) f).first
    s.Inv ∧ s.dev.ready (CoreId.rafter t) = true ∧ t < 96 ∧ handleOk (Writer.rafter t) false h = true ∧ hT h = false ∧ imm < 16 ∧ st = 0 := by dsimp only; decide

theorem witness_RafterOperationsAct_3 :
    let s := w0
    let t : Nat := 0
    let b : Nat := 0
    let c : Nat := 0
    let d := s.dev
    let h := (d.core (CoreId.rafter t)).rd b
    let v := (d.core (CoreId.rafter t)).rd c
    let f : Flying := { src := Writer.rafter t, tile := t, cluster := if 50 = 51 then 0 else hCl h, op := 50, seq := 0, kind := OpKind.regw (128 * hCl h + 24) v }
    let st := (opChecks (liveView s.mem d t) f).first
    s.Inv ∧ s.dev.ready (CoreId.rafter t) = true ∧ t < 96 ∧ handleOk (Writer.rafter t) false h = true ∧ hT h = false ∧ BitVec.toNat v < 2 ^ 16 ∧
      st ≠ 0 := by dsimp only; decide

theorem witness_RafterOperationsAct_4 :
    let s := w0
    let t : Nat := 0
    let b : Nat := 0
    let imm : Nat := 0
    let d := s.dev
    let h := (d.core (CoreId.rafter t)).rd b
    let f : Flying := { src := Writer.rafter t, tile := t, cluster := if 52 = 51 then 0 else hCl h, op := 52, seq := 0, kind := OpKind.regw (128 * hCl h + 116) (BitVec.ofNat 32 (imm % 64 + 256 * (imm / 64))) }
    let st := (opChecks (liveView s.mem d t) f).first
    s.Inv ∧ s.dev.ready (CoreId.rafter t) = true ∧ t < 96 ∧ handleOk (Writer.rafter t) false h = true ∧ hT h = false ∧ imm < 256 ∧ st ≠ 0 := by dsimp only; decide

theorem witness_RafterOperationsAct_5 :
    let s := w0
    let t : Nat := 0
    let b : Nat := 0
    let imm : Nat := 0
    let d := s.dev
    let h := (d.core (CoreId.rafter t)).rd b
    let f : Flying := { src := Writer.rafter t, tile := t, cluster := if 58 = 51 then 0 else hCl h, op := 58, seq := 0, kind := OpKind.regw (128 * hCl h + 20) (BitVec.ofNat 32 (imm % 4 + 256 * (imm / 4))) }
    let st := (opChecks (liveView s.mem d t) f).first
    s.Inv ∧ s.dev.ready (CoreId.rafter t) = true ∧ t < 96 ∧ handleOk (Writer.rafter t) false h = true ∧ hT h = false ∧ imm < 1024 ∧ st = 0 := by dsimp only; decide

theorem witness_RafterOperationsAct_6 :
    let s := w0
    let t : Nat := 0
    let b : Nat := 0
    let c : Nat := 0
    let d := s.dev
    let h := (d.core (CoreId.rafter t)).rd b
    let v := (d.core (CoreId.rafter t)).rd c
    let f : Flying := { src := Writer.rafter t, tile := t, cluster := if 51 = 51 then 0 else hCl h, op := 51, seq := 0, kind := OpKind.fmaxw (fld h 13 0) v }
    let st := (opChecks (liveView s.mem d t) f).first
    s.Inv ∧ s.dev.ready (CoreId.rafter t) = true ∧ t < 96 ∧ fld h 31 23 = 0 ∧ fld h 15 14 = 0 ∧ (hTile h = t ∨ hTile h = 127) ∧ st = 0 := by dsimp only; decide

theorem witness_RafterOperationsAct_7 :
    let s := wR fun x => { x with g := x.g.set 1 360 }
    let t : Nat := 0
    let b : Nat := 0
    let c : Nat := 1
    let imm : Nat := 20
    let d := s.dev
    let h := (d.core (CoreId.rafter t)).rd b
    let v := (d.core (CoreId.rafter t)).rd c
    let f : Flying := { src := Writer.rafter t, tile := t, cluster := if 48 = 51 then 0 else hCl h, op := 48, seq := 0, kind := OpKind.setp (BitVec.toNat v) imm }
    let st := (opChecks (liveView s.mem d t) f).first
    s.Inv ∧ s.dev.ready (CoreId.rafter t) = true ∧ t < 96 ∧ handleOk (Writer.rafter t) false h = true ∧ hT h = false ∧ imm < 64 ∧
      BitVec.toNat v < 1024 ∧ st = 0 := by dsimp only; decide

theorem witness_RafterOperationsAct_8 :
    let s := wR fun x => { x with g := x.g.set 1 360 }
    let t : Nat := 0
    let b : Nat := 0
    let c : Nat := 1
    let d := s.dev
    let h := (d.core (CoreId.rafter t)).rd b
    let v := (d.core (CoreId.rafter t)).rd c
    let f : Flying := { src := Writer.rafter t, tile := t, cluster := if 50 = 51 then 0 else hCl h, op := 50, seq := 0, kind := OpKind.regw (128 * hCl h + 24) v }
    let st := (opChecks (liveView s.mem d t) f).first
    s.Inv ∧ s.dev.ready (CoreId.rafter t) = true ∧ t < 96 ∧ handleOk (Writer.rafter t) false h = true ∧ hT h = false ∧ BitVec.toNat v < 2 ^ 16 ∧
      st = 0 := by dsimp only; decide

theorem witness_RafterOperationsAct_9 :
    let s := wR fun x => { x with g := x.g.set 1 0x800000 }
    let t : Nat := 0
    let b : Nat := 1
    let c : Nat := 0
    let d := s.dev
    let h := (d.core (CoreId.rafter t)).rd b
    let v := (d.core (CoreId.rafter t)).rd c
    let f : Flying := { src := Writer.rafter t, tile := t, cluster := if 50 = 51 then 0 else hCl h, op := 50, seq := 0, kind := OpKind.regw 3080 v }
    let st := (opChecks (liveView s.mem d t) f).first
    let far := fld h 22 16 ≠ t ∧ fld h 22 16 ≠ 127
    s.Inv ∧ s.dev.ready (CoreId.rafter t) = true ∧ t < 96 ∧ handleOk (Writer.rafter t) false h = true ∧ hT h = true ∧ BitVec.toNat v < 2 ^ 16 ∧
      st ≠ 0 ∧ (fld h 31 23 ≠ 0 ∨ fld h 15 14 ≠ 0 ∨ far) := by dsimp only; decide

theorem witness_RafterOperationsAct_10 :
    let s := wR fun x => { x with g := x.g.set 1 0x800000 }
    let t : Nat := 0
    let b : Nat := 1
    let d := s.dev
    let h := (d.core (CoreId.rafter t)).rd b
    let f : Flying := { src := Writer.rafter t, tile := t, cluster := if 57 = 51 then 0 else hCl h, op := 57, seq := 0, kind := OpKind.trig }
    let st := (opChecks (liveView s.mem d t) f).first
    s.Inv ∧ s.dev.ready (CoreId.rafter t) = true ∧ t < 96 ∧ handleOk (Writer.rafter t) false h = true ∧ hT h = true ∧ st = 0 := by dsimp only; decide

theorem witness_RafterOperationsAct_11 :
    let s := wR fun x => { x with g := x.g.set 1 0x800000 }
    let t : Nat := 0
    let b : Nat := 1
    let c : Nat := 0
    let imm : Nat := 0
    let d := s.dev
    let h := (d.core (CoreId.rafter t)).rd b
    let v := (d.core (CoreId.rafter t)).rd c
    let far := fld h 22 16 ≠ t ∧ fld h 22 16 ≠ 127
    let bad := fld h 31 24 ≠ 0 ∨ fld h 15 5 ≠ 0 ∨ 18 ≤ fld h 4 0 ∨ tst h 23 = true ∧ fld h 4 0 ≠ 0 ∨ far
    let plain := [(Instr.setp (CoreId.rafter t) b c imm, 48, 64), (Instr.pstate (CoreId.rafter t) b imm, 49, 16), (Instr.tblsel (CoreId.rafter t) b imm, 52, 256), (Instr.grant (CoreId.rafter t) b imm, 58, 1024)]
    let i : Instr := Instr.setp (.rafter t) b c imm
    let op : Nat := 0x30
    let n : Nat := 64
    s.Inv ∧ s.dev.ready (CoreId.rafter t) = true ∧ t < 96 ∧ (i, op, n) ∈ plain ∧ imm < n ∧ ¬bad ∧ tst h 23 = true ∧ BitVec.toNat v < 1024 ∧
      d.answersT t = true := by dsimp only; decide

theorem witness_RafterOperationsAct_12 :
    let s := wT fun x => { x with rst := true }
    let t : Nat := 0
    let b : Nat := 0
    let imm : Nat := 2
    let d := s.dev
    let h := (d.core (CoreId.rafter t)).rd b
    let f : Flying := { src := Writer.rafter t, tile := t, cluster := if 49 = 51 then 0 else hCl h, op := 49, seq := 0, kind := OpKind.regw (128 * hCl h + 12) (BitVec.ofNat 32 (16 * imm)) }
    let st := (opChecks (liveView s.mem d t) f).first
    s.Inv ∧ s.dev.ready (CoreId.rafter t) = true ∧ t < 96 ∧ handleOk (Writer.rafter t) false h = true ∧ hT h = false ∧ imm < 16 ∧ st ≠ 0 := by dsimp only; decide

theorem witness_RafterOperationsAct_13 :
    let s := wT fun x => { x with rst := true }
    let t : Nat := 0
    let b : Nat := 0
    let imm : Nat := 2
    let d := s.dev
    let h := (d.core (CoreId.rafter t)).rd b
    let f : Flying := { src := Writer.rafter t, tile := t, cluster := if 58 = 51 then 0 else hCl h, op := 58, seq := 0, kind := OpKind.regw (128 * hCl h + 20) (BitVec.ofNat 32 (imm % 4 + 256 * (imm / 4))) }
    let st := (opChecks (liveView s.mem d t) f).first
    s.Inv ∧ s.dev.ready (CoreId.rafter t) = true ∧ t < 96 ∧ handleOk (Writer.rafter t) false h = true ∧ hT h = false ∧ imm < 1024 ∧ st ≠ 0 := by dsimp only; decide

theorem witness_RafterOperationsAct_14 :
    let s := wT fun x => { x with rst := true }
    let t : Nat := 0
    let b : Nat := 0
    let c : Nat := 0
    let d := s.dev
    let h := (d.core (CoreId.rafter t)).rd b
    let v := (d.core (CoreId.rafter t)).rd c
    let f : Flying := { src := Writer.rafter t, tile := t, cluster := if 51 = 51 then 0 else hCl h, op := 51, seq := 0, kind := OpKind.fmaxw (fld h 13 0) v }
    let st := (opChecks (liveView s.mem d t) f).first
    s.Inv ∧ s.dev.ready (CoreId.rafter t) = true ∧ t < 96 ∧ fld h 31 23 = 0 ∧ fld h 15 14 = 0 ∧ (hTile h = t ∨ hTile h = 127) ∧ st ≠ 0 := by dsimp only; decide

theorem witness_RafterOperationsAct_15 :
    let s := wR fun x => { x with g := (x.g.set 1 0x800000).set 2 100 }
    let t : Nat := 0
    let b : Nat := 1
    let c : Nat := 2
    let d := s.dev
    let h := (d.core (CoreId.rafter t)).rd b
    let v := (d.core (CoreId.rafter t)).rd c
    let f : Flying := { src := Writer.rafter t, tile := t, cluster := if 50 = 51 then 0 else hCl h, op := 50, seq := 0, kind := OpKind.regw 3080 v }
    let st := (opChecks (liveView s.mem d t) f).first
    s.Inv ∧ s.dev.ready (CoreId.rafter t) = true ∧ t < 96 ∧ handleOk (Writer.rafter t) false h = true ∧ hT h = true ∧ BitVec.toNat v < 2 ^ 16 ∧
      st = 0 := by dsimp only; decide

theorem witness_RafterOperationsAct_16 :
    let s := wT fun x => { x with rst := true, core := { x.core with g := x.core.g.set 1 0x800000 } }
    let t : Nat := 0
    let b : Nat := 1
    let d := s.dev
    let h := (d.core (CoreId.rafter t)).rd b
    let f : Flying := { src := Writer.rafter t, tile := t, cluster := if 57 = 51 then 0 else hCl h, op := 57, seq := 0, kind := OpKind.trig }
    let st := (opChecks (liveView s.mem d t) f).first
    s.Inv ∧ s.dev.ready (CoreId.rafter t) = true ∧ t < 96 ∧ handleOk (Writer.rafter t) false h = true ∧ hT h = true ∧ st ≠ 0 := by dsimp only; decide

theorem witness_RafterOperationsAct_17 :
    let s := wT fun x => { x with fus := { x.fus with run := true } }
    let t : Nat := 0
    let b : Nat := 0
    let imm : Nat := 0
    let d := s.dev
    let h := (d.core (CoreId.rafter t)).rd b
    let f : Flying := { src := Writer.rafter t, tile := t, cluster := if 52 = 51 then 0 else hCl h, op := 52, seq := 0, kind := OpKind.regw (128 * hCl h + 116) (BitVec.ofNat 32 (imm % 64 + 256 * (imm / 64))) }
    let st := (opChecks (liveView s.mem d t) f).first
    s.Inv ∧ s.dev.ready (CoreId.rafter t) = true ∧ t < 96 ∧ handleOk (Writer.rafter t) false h = true ∧ hT h = false ∧ imm < 256 ∧ st = 0 := by dsimp only; decide

theorem witness_RafterOperationsAct_18 :
    let s := wR fun x => { x with g := (x.g.set 1 16383) }
    let t : Nat := 0
    let b : Nat := 1
    let c : Nat := 1
    let imm : Nat := 2
    let d := s.dev
    let h := (d.core (CoreId.rafter t)).rd b
    let far := fld h 22 16 ≠ t ∧ fld h 22 16 ≠ 127
    let bad := fld h 31 24 ≠ 0 ∨ fld h 15 5 ≠ 0 ∨ 18 ≤ fld h 4 0 ∨ tst h 23 = true ∧ fld h 4 0 ≠ 0 ∨ far
    let plain := [(Instr.setp (CoreId.rafter t) b c imm, 48, 64), (Instr.pstate (CoreId.rafter t) b imm, 49, 16), (Instr.tblsel (CoreId.rafter t) b imm, 52, 256), (Instr.grant (CoreId.rafter t) b imm, 58, 1024)]
    let i : Instr := Instr.setp (.rafter t) b c imm
    let op : Nat := 0x30
    let n : Nat := 64
    s.Inv ∧ s.dev.ready (CoreId.rafter t) = true ∧ t < 96 ∧ (i, op, n) ∈ plain ∧ imm < n ∧ bad := by dsimp only; decide

theorem witness_RafterOperationsAct_19 :
    let s := wR fun x => { x with g := (x.g.set 1 16383) }
    let t : Nat := 0
    let b : Nat := 1
    let d := s.dev
    let h := (d.core (CoreId.rafter t)).rd b
    let far := fld h 22 16 ≠ t ∧ fld h 22 16 ≠ 127
    let bad := fld h 31 24 ≠ 0 ∨ fld h 15 5 ≠ 0 ∨ 18 ≤ fld h 4 0 ∨ tst h 23 = true ∧ fld h 4 0 ≠ 0 ∨ far
    s.Inv ∧ s.dev.ready (CoreId.rafter t) = true ∧ t < 96 ∧ bad := by dsimp only; decide

theorem witness_RafterOperationsAct_20 :
    let s := wT fun x => { x with rst := true, core := { x.core with g := x.core.g.set 1 0x800000 } }
    let t : Nat := 0
    let b : Nat := 1
    let c : Nat := 0
    let d := s.dev
    let h := (d.core (CoreId.rafter t)).rd b
    let v := (d.core (CoreId.rafter t)).rd c
    let f : Flying := { src := Writer.rafter t, tile := t, cluster := if 50 = 51 then 0 else hCl h, op := 50, seq := 0, kind := OpKind.regw 3080 v }
    let st := (opChecks (liveView s.mem d t) f).first
    s.Inv ∧ s.dev.ready (CoreId.rafter t) = true ∧ t < 96 ∧ handleOk (Writer.rafter t) false h = true ∧ hT h = true ∧ BitVec.toNat v < 2 ^ 16 ∧
      st ≠ 0 := by dsimp only; decide

theorem witness_RafterOperationsAct_22 :
    let s := wR fun x => { x with g := (x.g.set 1 0x800000).set 2 200 }
    let t : Nat := 0
    let b : Nat := 1
    let c : Nat := 2
    let d := s.dev
    let h := (d.core (CoreId.rafter t)).rd b
    let v := (d.core (CoreId.rafter t)).rd c
    let f : Flying := { src := Writer.rafter t, tile := t, cluster := if 50 = 51 then 0 else hCl h, op := 50, seq := 0, kind := OpKind.regw 3080 v }
    let st := (opChecks (liveView s.mem d t) f).first
    s.Inv ∧ s.dev.ready (CoreId.rafter t) = true ∧ t < 96 ∧ handleOk (Writer.rafter t) false h = true ∧ hT h = true ∧ BitVec.toNat v < 2 ^ 16 ∧
      st = 0 := by dsimp only; decide

theorem witness_RafterOperationsAct_23 :
    let s := wR fun x => { x with g := (x.g.set 1 0x800000).set 2 200 }
    let t : Nat := 0
    let b : Nat := 1
    let d := s.dev
    let h := (d.core (CoreId.rafter t)).rd b
    let f : Flying := { src := Writer.rafter t, tile := t, cluster := if 57 = 51 then 0 else hCl h, op := 57, seq := 0, kind := OpKind.trig }
    let st := (opChecks (liveView s.mem d t) f).first
    s.Inv ∧ s.dev.ready (CoreId.rafter t) = true ∧ t < 96 ∧ handleOk (Writer.rafter t) false h = true ∧ hT h = true ∧ st = 0 := by dsimp only; decide

theorem witness_RafterOperationsAct_24 :
    let s := wT fun x => { x with clusters := x.clusters.map fun k => { k with isolated := true }, core := { x.core with g := x.core.g.set 1 0x800000 } }
    let t : Nat := 0
    let b : Nat := 1
    let c : Nat := 0
    let imm : Nat := 0
    let d := s.dev
    let h := (d.core (CoreId.rafter t)).rd b
    let v := (d.core (CoreId.rafter t)).rd c
    let far := fld h 22 16 ≠ t ∧ fld h 22 16 ≠ 127
    let bad := fld h 31 24 ≠ 0 ∨ fld h 15 5 ≠ 0 ∨ 18 ≤ fld h 4 0 ∨ tst h 23 = true ∧ fld h 4 0 ≠ 0 ∨ far
    let plain := [(Instr.setp (CoreId.rafter t) b c imm, 48, 64), (Instr.pstate (CoreId.rafter t) b imm, 49, 16), (Instr.tblsel (CoreId.rafter t) b imm, 52, 256), (Instr.grant (CoreId.rafter t) b imm, 58, 1024)]
    let i : Instr := (.setp (.rafter 0) 1 0 0)
    let op : Nat := 0x30
    let n : Nat := 64
    s.Inv ∧ s.dev.ready (CoreId.rafter t) = true ∧ t < 96 ∧ (i, op, n) ∈ plain ∧ imm < n ∧ ¬bad ∧ tst h 23 = true ∧ BitVec.toNat v < 1024 ∧
      d.answersT t = false := by dsimp only; decide

theorem witness_RafterOperationsAct_25 :
    let s := wT fun x => { x with core := { x.core with g := x.core.g.set 1 0x800000 } }
    let t : Nat := 0
    let b : Nat := 1
    let c : Nat := 0
    let imm : Nat := 255
    let d := s.dev
    let h := (d.core (CoreId.rafter t)).rd b
    let v := (d.core (CoreId.rafter t)).rd c
    let far := fld h 22 16 ≠ t ∧ fld h 22 16 ≠ 127
    let bad := fld h 31 24 ≠ 0 ∨ fld h 15 5 ≠ 0 ∨ 18 ≤ fld h 4 0 ∨ tst h 23 = true ∧ fld h 4 0 ≠ 0 ∨ far
    let plain := [(Instr.setp (CoreId.rafter t) b c imm, 48, 64), (Instr.pstate (CoreId.rafter t) b imm, 49, 16), (Instr.tblsel (CoreId.rafter t) b imm, 52, 256), (Instr.grant (CoreId.rafter t) b imm, 58, 1024)]
    let i : Instr := (.tblsel (.rafter 0) 1 255)
    let op : Nat := 0x34
    let n : Nat := 256
    s.Inv ∧ s.dev.ready (CoreId.rafter t) = true ∧ t < 96 ∧ (i, op, n) ∈ plain ∧ imm < n ∧ ¬bad ∧ tst h 23 = true ∧ BitVec.toNat v < 1024 ∧
      d.answersT t = true := by dsimp only; decide

theorem witness_RafterOperationsAct_26 :
    let s := wT fun x => { x with core := { x.core with g := x.core.g.set 1 0x80001F } }
    let t : Nat := 0
    let b : Nat := 1
    let c : Nat := 0
    let imm : Nat := 1023
    let d := s.dev
    let h := (d.core (CoreId.rafter t)).rd b
    let far := fld h 22 16 ≠ t ∧ fld h 22 16 ≠ 127
    let bad := fld h 31 24 ≠ 0 ∨ fld h 15 5 ≠ 0 ∨ 18 ≤ fld h 4 0 ∨ tst h 23 = true ∧ fld h 4 0 ≠ 0 ∨ far
    let plain := [(Instr.setp (CoreId.rafter t) b c imm, 48, 64), (Instr.pstate (CoreId.rafter t) b imm, 49, 16), (Instr.tblsel (CoreId.rafter t) b imm, 52, 256), (Instr.grant (CoreId.rafter t) b imm, 58, 1024)]
    let i : Instr := (.grant (.rafter 0) 1 1023)
    let op : Nat := 0x3A
    let n : Nat := 1024
    s.Inv ∧ s.dev.ready (CoreId.rafter t) = true ∧ t < 96 ∧ (i, op, n) ∈ plain ∧ imm < n ∧ bad := by dsimp only; decide

theorem witness_PurlinDeliveries_1 :
    let s := wD fun d => { d with back := [(.host, { status := 3, op := 0x30, tile := 1, cluster := 0, seq := 0 })] }
    let r : Refused := { status := 3, op := 0x30, tile := 1, cluster := 0, seq := 0 }
    s.Inv ∧ (List.find? (fun x => x.fst == Writer.host) s.dev.back = some (Writer.host, r)) ∧ s.dev.hp.hlref.length < 8 := by dsimp only; decide

theorem witness_PurlinDeliveries_2 :
    let s := wD fun d => { d with back := [(.ridge, { status := 3, op := 0x30, tile := 1, cluster := 0, seq := 0 })] }
    let k : CoreId := .ridge
    let r : Refused := { status := 3, op := 0x30, tile := 1, cluster := 0, seq := 0 }
    s.Inv ∧ (List.find? (fun x => x.fst == coreWriter k) s.dev.back = some (coreWriter k, r)) ∧ (s.dev.core k).on = true := by dsimp only; decide

theorem witness_PurlinDeliveries_4 :
    let s := wR fun x => { x with outq := [{ src := .rafter 0, dst := some 1, bcast := false, tag := 0, words := [5, 6], no := 0 }] }
    let k : CoreId := (.rafter 0)
    let into : Option Nat := (some 1)
    let m : Msg := { src := .rafter 0, dst := some 1, bcast := false, tag := 0, words := [5, 6], no := 0 }
    let dst := match into with | none => CoreId.ridge | some n => CoreId.rafter n
    let d := { s.dev with wire := s.dev.wire.filter fun y => y.no != m.no }.onCore k fun x => { x with outq := x.outq.filter fun y => y.no != m.no }
    s.Inv ∧
      (List.find? (fun m => m.bcast && into.isSome || !m.bcast && m.dst == into) (List.filter (fun x => x.src == k) s.dev.wire ++ (s.dev.core k).outq) = some m) ∧
      m.bcast = false ∧ m.src = k ∧ s.dev.first (coreWriter k) into m.no = true ∧ d.deliverTo dst = 0 := by dsimp only; decide

theorem witness_PurlinDeliveries_5 :
    let s := wD fun d => { d with pur := { d.pur with lost := d.pur.lost.set 1 true }, tiles := d.tiles.modify 0 fun x => { x with core := { x.core with outq := [{ src := .rafter 0, dst := some 1, bcast := false, tag := 0, words := [5, 6], no := 0 }] } } }
    let k : CoreId := (.rafter 0)
    let into : Option Nat := (some 1)
    let m : Msg := { src := .rafter 0, dst := some 1, bcast := false, tag := 0, words := [5, 6], no := 0 }
    let dst := match into with | none => CoreId.ridge | some n => CoreId.rafter n
    let d := { s.dev with wire := s.dev.wire.filter fun y => y.no != m.no }.onCore k fun x => { x with outq := x.outq.filter fun y => y.no != m.no }
    s.Inv ∧
      (List.find? (fun m => m.bcast && into.isSome || !m.bcast && m.dst == into) (List.filter (fun x => x.src == k) s.dev.wire ++ (s.dev.core k).outq) = some m) ∧
      m.bcast = false ∧ m.src = k ∧ s.dev.first (coreWriter k) into m.no = true ∧ d.deliverTo dst ≠ 0 := by dsimp only; decide

theorem witness_PurlinDeliveries_6 :
    let s := wD fun d => { d with air := [{ src := .host, tile := 0, cluster := 0, op := 0x31, seq := 0, kind := .regw 0x0C 0, no := 0 }] }
    let src : Writer := .host
    let t : Nat := 0
    let f : Flying := { src := .host, tile := 0, cluster := 0, op := 0x31, seq := 0, kind := .regw 0x0C 0, no := 0 }
    let d := { s.dev with air := s.dev.air.filter fun g => g.no != f.no }
    let k := opChecks (liveView s.mem d t) f
    let st := { k with absent := k.absent || boolAt d.pur.lost t }.arrival
    s.Inv ∧ (List.find? (fun f => f.src == src && f.tile == t) s.dev.air = some f) ∧ s.dev.noMsgBefore src t f.no = true ∧ st = 0 := by dsimp only; decide

theorem witness_PurlinDeliveries_7 :
    let s := wD fun d => { d with air := [{ src := .host, tile := 2, cluster := 0, op := 0x31, seq := 0, kind := .regw 0x0C 0, no := 0 }] }
    let src : Writer := .host
    let t : Nat := 2
    let f : Flying := { src := .host, tile := 2, cluster := 0, op := 0x31, seq := 0, kind := .regw 0x0C 0, no := 0 }
    let d := { s.dev with air := s.dev.air.filter fun g => g.no != f.no }
    let k := opChecks (liveView s.mem d t) f
    let st := { k with absent := k.absent || boolAt d.pur.lost t }.arrival
    s.Inv ∧ (List.find? (fun f => f.src == src && f.tile == t) s.dev.air = some f) ∧ s.dev.noMsgBefore src t f.no = true ∧ st ≠ 0 := by dsimp only; decide

theorem witness_PurlinDeliveries_8 :
    let s := wD fun d => { d with ridge := { d.ridge with outq := [{ src := .ridge, dst := none, bcast := true, tag := 0, words := [5], no := 0 }] } }
    let k : CoreId := .ridge
    let t : Nat := 1
    let m : Msg := { src := .ridge, dst := none, bcast := true, tag := 0, words := [5], no := 0 }
    s.Inv ∧
      (List.find? (fun m => m.bcast || !m.bcast && m.dst == some t) (List.filter (fun x => x.src == k) s.dev.wire ++ (s.dev.core k).outq) = some m) ∧
      m.bcast = true ∧ m.src = k ∧ s.dev.first (coreWriter k) none m.no = true ∧
      (∀ (y : Msg), y ∈ List.filter (fun x => x.src == k) s.dev.wire ++ (s.dev.core k).outq → y.no < m.no → y.dst = none) := by dsimp only; decide

theorem witness_SamplesAndRepeats_1 :
    let s := w0
    let t : Nat := 0
    let c : Nat := 0
    let d := s.dev
    let r := (d.tl t).rem
    let S := 48 * d.clk.per + 3 * if c < 16 then c else c - 2
    let done := fun (j : VoteJob) => ∃ e, j.fin = some e ∧ e ≤ S
    let turn := fun (j : VoteJob) => r.queue.find? (fun j => j.c == c && j.fin.isNone) = some j ∧
      (j.own = true ∨ ∀ q ∈ r.queue, q.c ≠ c → S < q.seen ∨ done q ∨ q.own = false ∧ q.fin = none)
    s.Inv ∧ d.hasC t c = true := by dsimp only; decide

theorem witness_SamplesAndRepeats_2 :
    let s := w0
    let t : Nat := 2
    let c : Nat := 0
    let d := s.dev
    s.Inv ∧ d.hasC t c = false := by dsimp only; decide

theorem witness_SamplesAndRepeats_3 :
    let s := wT fun x => { x with rem := { x.rem with queue := [{ c := 0, xp := [], y := [], f := [], miss := [], slot := 0, beta := [], pre := [], rep := [], lims := [], prev := [], errs := [], start := 0, seen := 0 }] } }
    let t : Nat := 0
    let c : Nat := 0
    let d := s.dev
    let r := (d.tl t).rem
    let S := 48 * d.clk.per + 3 * if c < 16 then c else c - 2
    let done := fun (j : VoteJob) => ∃ e, j.fin = some e ∧ e ≤ S
    let turn := fun (j : VoteJob) => r.queue.find? (fun j => j.c == c && j.fin.isNone) = some j ∧
      (j.own = true ∨ ∀ q ∈ r.queue, q.c ≠ c → S < q.seen ∨ done q ∨ q.own = false ∧ q.fin = none)
    let j : VoteJob := { c := 0, xp := [], y := [], f := [], miss := [], slot := 0, beta := [], pre := [], rep := [], lims := [], prev := [], errs := [], start := 0, seen := 0 }
    let k := d.cl t c
    let x := d.tl t
    let fell := k.loop.outOn = false ∨ k.loop.fb = true ∧ (x.fus.run = false ∨ x.fus.runDue = true ∨ r.bist = 1 ∨ r.halted = true ∨ k.loop.handed = true ∧ k.loop.retDue = false)
    s.Inv ∧ d.hasC t c = true ∧ turn j ∧ fell := by dsimp only; decide

theorem witness_SamplesAndRepeats_4 :
    let s := wD fun d => { d with tiles := (d.onT 0 fun x => { x with rem := { x.rem with queue := [{ c := 1, xp := [], y := [], f := [], miss := [], slot := 0, beta := [], pre := [], rep := [], lims := [], prev := [], errs := [], start := 0, seen := 0, own := true, fin := some 0 }, { c := 0, xp := [], y := [], f := [], miss := [], slot := 0, beta := [], pre := [], rep := [], lims := [], prev := [], errs := [], start := 0, seen := 0, own := true }] }, clusters := x.clusters.modify 0 fun k => { k with loop := { k.loop with outOn := true, fb := false } } }).tiles }
    let t : Nat := 0
    let c : Nat := 0
    let d := s.dev
    let r := (d.tl t).rem
    let S := 48 * d.clk.per + 3 * if c < 16 then c else c - 2
    let done := fun (j : VoteJob) => ∃ e, j.fin = some e ∧ e ≤ S
    let turn := fun (j : VoteJob) => r.queue.find? (fun j => j.c == c && j.fin.isNone) = some j ∧
      (j.own = true ∨ ∀ q ∈ r.queue, q.c ≠ c → S < q.seen ∨ done q ∨ q.own = false ∧ q.fin = none)
    let k := d.cl t c
    let j : VoteJob := { c := 0, xp := [], y := [], f := [], miss := [], slot := 0, beta := [], pre := [], rep := [], lims := [], prev := [], errs := [], start := 0, seen := 0, own := true }
    s.Inv ∧ d.hasC t c = true ∧ turn j ∧ k.loop.fb = false ∧ k.loop.outOn = true ∧ k.seq.move = none ∧ k.seq.held = [] ∧ k.seq.queue = [] ∧
      k.seq.cur = none ∧ k.seq.chg = Chg.none := by dsimp only; decide

theorem witness_SamplesAndRepeats_5 :
    let s := wT fun x => { x with rem := { x.rem with queue := [{ c := 0, xp := [], y := [], f := [], miss := [], slot := 0, beta := [], pre := [], rep := [], lims := [], prev := [], errs := [], start := 0, seen := 0 }] } }
    let t : Nat := 0
    let c : Nat := 0
    let d := s.dev
    let r := (d.tl t).rem
    let S := 48 * d.clk.per + 3 * if c < 16 then c else c - 2
    let done := fun (j : VoteJob) => ∃ e, j.fin = some e ∧ e ≤ S
    let turn := fun (j : VoteJob) => r.queue.find? (fun j => j.c == c && j.fin.isNone) = some j ∧
      (j.own = true ∨ ∀ q ∈ r.queue, q.c ≠ c → S < q.seen ∨ done q ∨ q.own = false ∧ q.fin = none)
    let k := d.cl t c
    let x := d.tl t
    let fell := k.loop.outOn = false ∨ k.loop.fb = true ∧ (x.fus.run = false ∨ x.fus.runDue = true ∨ r.bist = 1 ∨ r.halted = true ∨ k.loop.handed = true ∧ k.loop.retDue = false)
    let j : VoteJob := { c := 0, xp := [], y := [], f := [], miss := [], slot := 0, beta := [], pre := [], rep := [], lims := [], prev := [], errs := [], start := 0, seen := 0 }
    s.Inv ∧ d.hasC t c = true ∧ turn j ∧ fell := by dsimp only; decide

theorem witness_SamplesAndRepeats_6 :
    let s := wT fun x => { x with rem := { x.rem with queue := [{ c := 0, xp := [], y := [], f := [], miss := [], slot := 0, beta := [], pre := [], rep := [], lims := [], prev := [], errs := [], start := 0, seen := 0 }] }, clusters := x.clusters.modify 0 fun k => { k with loop := { k.loop with outOn := true, fb := false } } }
    let t : Nat := 0
    let c : Nat := 0
    let d := s.dev
    let r := (d.tl t).rem
    let S := 48 * d.clk.per + 3 * if c < 16 then c else c - 2
    let done := fun (j : VoteJob) => ∃ e, j.fin = some e ∧ e ≤ S
    let turn := fun (j : VoteJob) => r.queue.find? (fun j => j.c == c && j.fin.isNone) = some j ∧
      (j.own = true ∨ ∀ q ∈ r.queue, q.c ≠ c → S < q.seen ∨ done q ∨ q.own = false ∧ q.fin = none)
    let k := d.cl t c
    let j : VoteJob := { c := 0, xp := [], y := [], f := [], miss := [], slot := 0, beta := [], pre := [], rep := [], lims := [], prev := [], errs := [], start := 0, seen := 0 }
    s.Inv ∧ d.hasC t c = true ∧ turn j ∧ k.loop.fb = false ∧ k.loop.outOn = true ∧ k.seq.move = none ∧ k.seq.held = [] ∧ k.seq.queue = [] ∧
      k.seq.cur = none ∧ k.seq.chg = Chg.none := by dsimp only; decide

theorem witness_ClockBoundaries_1 :
    let s := w0
    let d := s.dev
    s.Inv ∧ d.ridge.runs = true := by dsimp only; decide

theorem witness_ClockBoundaries_2 :
    let s := w0
    let d := s.dev
    let t : Nat := 0
    let c : Nat := 0
    let q := (d.cl t c).seq
    s.Inv ∧ d.hasC t c = true ∧ ((d.cl t c).loop.outOn = false ∨ q.ref = q.endv) := by dsimp only; decide

theorem witness_ClockBoundaries_4 :
    let s := w0
    let d := s.dev
    let k : CoreId := CoreId.ridge
    s.Inv ∧ d.hasCore k = true := by dsimp only; decide

theorem witness_ClockBoundaries_5 :
    let s := wD fun d => { d with ridge := { d.ridge with wd := 199 }, tiles := (d.onC 0 0 fun k => { k with loop := { k.loop with outOn := true }, seq := { k.seq with endv := 5 } }).tiles }
    let d := s.dev
    let k := d.clk
    let t : Nat := 0
    let c : Nat := 0
    let q := (d.cl t c).seq
    s.Inv ∧ d.hasC t c = true ∧ (d.cl t c).loop.outOn = true ∧ q.track = false ∧ q.movedAt < max k.now (6 * (k.sw + 1)) := by dsimp only; decide

theorem witness_HintTokens_1 :
    let s := wT fun x => { x with esc := { x.esc with discard := 1 } }
    let t : Nat := 0
    let ns : Nat := 0
    let d := { s.dev with clk := { s.dev.clk with now := max s.dev.clk.now ns } }
    let e := (d.tl t).esc
    s.Inv ∧ s.dev.hasT t = true ∧ 0 < e.discard := by dsimp only; decide

theorem witness_HintTokens_2 :
    let s := w0
    let t : Nat := 0
    let ns : Nat := 0
    let d := { s.dev with clk := { s.dev.clk with now := max s.dev.clk.now ns } }
    let e := (d.tl t).esc
    s.Inv ∧ s.dev.hasT t = true ∧ e.discard = 0 ∧ e.fifo.length < 64 := by dsimp only; decide

theorem witness_HintTokens_3 :
    let s := wT fun x => { x with esc := { x.esc with fifo := List.replicate 64 ⟨0x30000000, 0, 0⟩ } }
    let t : Nat := 0
    let ns : Nat := 0
    let d := { s.dev with clk := { s.dev.clk with now := max s.dev.clk.now ns } }
    let e := (d.tl t).esc
    s.Inv ∧ s.dev.hasT t = true ∧ e.discard = 0 ∧ 64 ≤ e.fifo.length ∧ e.partialN = 0 := by dsimp only; decide

theorem witness_HintTokens_4 :
    let s := wT fun x => { x with esc := { x.esc with fifo := [⟨0x100040FA, 0, 0⟩, ⟨0xFF, 0, 0⟩, ⟨1, 0, 0⟩] } }
    let t : Nat := 0
    let ns : Nat := 4016
    let w : Word := 0x100040FA
    let v : Word := 0xFF
    let u : Word := 1
    let r : List HintWord := []
    let d := { s.dev with clk := { s.dev.clk with now := max s.dev.clk.now ns } }
    let e := (d.tl t).esc
    let ready := fun (last : Nat) => (last + 15) / 16 * 16 + 16 ≤ ns ∧ ∀ p, e.lastSched = some p → p + 8 ≤ ns
    let mask := List.filter (fun c => tst w (14 + c) && d.live t c) (List.range 14)
    let i : Nat := 0
    let j : Nat := 0
    let k : Nat := 0
    let a : Nat := 0
    let b : Nat := 0
    let dq := [sgn 8 (fld v 7 0), sgn 8 (fld v 15 8), sgn 8 (fld v 23 16), sgn 8 (fld v 31 24)]
    s.Inv ∧ s.dev.hasT t = true ∧ e.fifo = { w := w, ns := i } :: { w := v, ns := j } :: { w := u, ns := k } :: r ∧ fld w 31 28 = 1 ∧ ready k ∧
      fld w 27 14 ≠ 0 ∧ fld w 7 0 ≤ 250 ∧ fld u 31 16 = 0 ∧ mask ≠ [] ∧ (e.edges.length + if fld u 15 0 = 0 then 1 else 2) ≤ 32 ∧
      (∀ (q : Int), q ∈ dq → q ≤ 0) := by dsimp only; decide

theorem witness_HintTokens_5 :
    let s := wT fun x => { x with esc := { x.esc with fifo := [⟨0x50004001, 0, 0⟩], edges := [{ id := 0, hint := 0, tag := 0, isEnd := false, ns := 0, sched := 0, dq := [0,0,0,0], mask := [0], all := [0] }] } }
    let t : Nat := 0
    let ns : Nat := 16
    let w : Word := 0x50004001
    let r : List HintWord := []
    let d := { s.dev with clk := { s.dev.clk with now := max s.dev.clk.now ns } }
    let e := (d.tl t).esc
    let ready := fun (last : Nat) => (last + 15) / 16 * 16 + 16 ≤ ns ∧ ∀ p, e.lastSched = some p → p + 8 ≤ ns
    let mask := List.filter (fun c => tst w (14 + c) && d.live t c) (List.range 14)
    let i : Nat := 0
    s.Inv ∧ s.dev.hasT t = true ∧ e.fifo = { w := w, ns := i } :: r ∧ fld w 31 28 = 5 ∧ ready i ∧ fld w 27 14 ≠ 0 ∧ fld w 7 1 = 0 ∧ mask ≠ [] := by dsimp only; decide

theorem witness_HintTokens_6 :
    let s := wT fun x => { x with esc := { x.esc with fifo := [⟨0x30001000, 0, 0⟩, ⟨7, 0, 0⟩] } }
    let t : Nat := 0
    let ns : Nat := 16
    let w : Word := 0x30001000
    let v : Word := 7
    let r : List HintWord := []
    let d := { s.dev with clk := { s.dev.clk with now := max s.dev.clk.now ns } }
    let e := (d.tl t).esc
    let ready := fun (last : Nat) => (last + 15) / 16 * 16 + 16 ≤ ns ∧ ∀ p, e.lastSched = some p → p + 8 ≤ ns
    let i : Nat := 0
    let j : Nat := 0
    let a : Nat := 0
    s.Inv ∧ s.dev.hasT t = true ∧ e.fifo = { w := w, ns := i } :: { w := v, ns := j } :: r ∧ fld w 31 28 = 3 ∧ ready j ∧ fld w 21 16 = 0 ∧
      fld v 31 24 = 0 := by dsimp only; decide

theorem witness_QuietWindows_1 :
    let s := wT fun x => { x with esc := { x.esc with fifo := [⟨0x20004132, 0, 0⟩] }, clusters := x.clusters.modify 0 fun k => { k with seq := { k.seq with st := .A, target := some 360, endv := 5 } } }
    let t : Nat := 0
    let c : Nat := 0
    s.Inv ∧ s.dev.hasT t = true ∧ (List.find? (fun x => !x.inForce && decide (x.w ≤ s.dev.clk.tick)) (s.dev.cl t c).esc.wins = none) ∧
      (List.find? (fun x => x.inForce && decide (x.e ≤ s.dev.clk.tick)) (s.dev.cl t c).esc.wins = none) := by dsimp only; decide

theorem witness_QuietWindows_2 :
    let s := wT fun x => { x with esc := { x.esc with fifo := [⟨0x20004132, 0, 0⟩] }, clusters := x.clusters.modify 0 fun k => { k with seq := { k.seq with st := .A, target := some 360, endv := 5 } } }
    let t : Nat := 0
    let c : Nat := 0
    let ns : Nat := 16
    let w : Word := 0x20004132
    let r : List HintWord := []
    let d := { s.dev with clk := { s.dev.clk with now := max s.dev.clk.now ns } }
    let e := (d.tl t).esc
    let ready := fun (last : Nat) => (last + 15) / 16 * 16 + 16 ≤ ns ∧ ∀ p, e.lastSched = some p → p + 8 ≤ ns
    let mask := fun lo n => (List.range n).filter fun c => tst w (lo + c) && d.live t c
    let k := d.cl t c
    let i : Nat := 0
    s.Inv ∧ s.dev.hasT t = true ∧ e.fifo = { w := w, ns := i } :: r ∧ fld w 31 28 = 2 ∧ ready i ∧ fld w 27 14 ≠ 0 ∧ fld w 13 11 = 0 ∧
      1 ≤ fld w 10 8 ∧ fld w 10 8 ≤ 4 ∧ fld w 7 6 = 0 ∧ 1 ≤ fld w 5 0 ∧ fld w 5 0 ≤ 50 ∧ mask 14 14 = [c] ∧ k.esc.wins = [] ∧ k.esc.lastEnd = none ∧
      k.seq.st = PState.A ∧ k.seq.chg = Chg.none := by dsimp only; decide

theorem witness_QuietWindows_3 :
    let s := wT fun x => { x with esc := { x.esc with fifo := [⟨0x40000400, 0, 0⟩, ⟨5, 0, 0⟩] }, clusters := x.clusters.modify 0 fun k => { k with seq := { k.seq with st := .A, target := some 360, endv := 5 } } }
    let t : Nat := 0
    let ns : Nat := 16
    let w : Word := 0x40000400
    let v : Word := 5
    let r : List HintWord := []
    let d := { s.dev with clk := { s.dev.clk with now := max s.dev.clk.now ns } }
    let e := (d.tl t).esc
    let ready := fun (last : Nat) => (last + 15) / 16 * 16 + 16 ≤ ns ∧ ∀ p, e.lastSched = some p → p + 8 ≤ ns
    let mask := fun lo n => (List.range n).filter fun c => tst w (lo + c) && d.live t c
    let i : Nat := 0
    let j : Nat := 0
    let a : Nat := 0
    s.Inv ∧ s.dev.hasT t = true ∧ e.fifo = { w := w, ns := i } :: { w := v, ns := j } :: r ∧ fld w 31 28 = 4 ∧ ready j ∧ fld w 27 10 ≠ 0 ∧
      fld w 9 0 = 0 ∧ fld v 31 24 = 0 ∧ fld v 23 0 ≠ 0 ∧ mask 10 18 ≠ [] ∧ (∀ (c : Nat), c ∈ mask 10 18 → (d.cl t c).seq.heading = PState.A) := by dsimp only; decide

theorem witness_ForecastScores_1 :
    let s := wT fun x => { x with esc := { x.esc with edges := [{ id := 0, hint := 0, tag := 0, isEnd := false, ns := 0, sched := 0, dq := [0,0,0,0], mask := [], all := [] }] } }
    let t : Nat := 0
    let id : Nat := 0
    let ns : Nat := 575
    let d := { s.dev with clk := { s.dev.clk with now := max s.dev.clk.now ns } }
    let e := (d.tl t).esc
    let g : Edge := (e.edges.headD { id := 0, hint := 0, tag := 0, isEnd := false, ns := 0, sched := 0, dq := [], mask := [], all := [] })
    s.Inv ∧ t < s.dev.tiles.length ∧ (List.find? (fun g => g.id == id) e.edges = some g) ∧ (ns < g.ns + 576 ∨ g.mask ≠ []) := by dsimp only; decide

theorem witness_ForecastScores_2 :
    let s := wT fun x => { x with esc := { x.esc with edges := [{ id := 0, hint := 0, tag := 0, isEnd := false, ns := 0, sched := 0, dq := [0,0,0,0], mask := [], all := [] }] } }
    let t : Nat := 0
    let id : Nat := 0
    let ns : Nat := 576
    let d := { s.dev with clk := { s.dev.clk with now := max s.dev.clk.now ns } }
    let e := (d.tl t).esc
    let g : Edge := (e.edges.headD { id := 0, hint := 0, tag := 0, isEnd := false, ns := 0, sched := 0, dq := [], mask := [], all := [] })
    s.Inv ∧ t < s.dev.tiles.length ∧ (List.find? (fun g => g.id == id) e.edges = some g) ∧ g.ns + 576 ≤ ns ∧ g.mask = [] ∧ g.folded = false ∧
      g.applied = [] := by dsimp only; decide

theorem witness_ForecastScores_3 :
    let s := wT fun x => { x with esc := { x.esc with edges := [{ id := 0, hint := 0, tag := 0, isEnd := false, ns := 0, sched := 0, dq := [0,0,0,0], mask := [], all := [], folded := true }] } }
    let t : Nat := 0
    let id : Nat := 0
    let ns : Nat := 576
    let d := { s.dev with clk := { s.dev.clk with now := max s.dev.clk.now ns } }
    let e := (d.tl t).esc
    let g : Edge := (e.edges.headD { id := 0, hint := 0, tag := 0, isEnd := false, ns := 0, sched := 0, dq := [], mask := [], all := [] })
    s.Inv ∧ t < s.dev.tiles.length ∧ (List.find? (fun g => g.id == id) e.edges = some g) ∧ g.ns + 576 ≤ ns ∧ g.mask = [] ∧ g.folded = true := by dsimp only; decide

theorem witness_ForecastScores_4 :
    let s := wT fun x => { x with esc := { x.esc with edges := [{ id := 0, hint := 0, tag := 0, isEnd := false, ns := 0, sched := 0, dq := [0,0,0,0], mask := [], all := [], applied := [(0, [1, 2, 3, 4], 0, [0, 0, 0, 0])] }] } }
    let t : Nat := 0
    let id : Nat := 0
    let ns : Nat := 576
    let d := { s.dev with clk := { s.dev.clk with now := max s.dev.clk.now ns } }
    let e := (d.tl t).esc
    let g : Edge := (e.edges.headD { id := 0, hint := 0, tag := 0, isEnd := false, ns := 0, sched := 0, dq := [], mask := [], all := [] })
    let parts := g.applied.flatMap fun a => [0, 1, 2, 3].map fun q =>
      let near := (e.edges ++ e.past).filter fun y => y.id != id && y.all.contains a.1 && decide (a.2.2.1 < y.ns + 384) && decide (y.ns ≤ g.ns + 192)
      let post := ((d.cl t a.1).esc.qhist.filter fun x => decide (g.ns + 192 ≤ x.ns) && decide (x.ns < g.ns + 576)).map fun x => at0 x.q q
      (divHE (sumI post) 8 - at0 a.2.2.2 q, 100 * at0 (near.foldl (fun f y => List.zipWith (· + ·) f y.dq) g.dq) q)
    let err := List.foldl (fun x1 x2 => x1 + x2) 0 (List.map (fun p => (p.fst - p.snd).natAbs) parts)
    let mag := max (List.foldl (fun x1 x2 => x1 + x2) 0 (List.map (fun p => p.snd.natAbs) parts)) (400 * g.applied.length)
    let drooped := ∃ a, a ∈ g.applied ∧ ∃ x, x ∈ (d.cl t a.fst).loop.droops ∧ g.ns ≤ x + 48 ∧ x < g.ns + 576
    let isGood := 4 * err ≤ mag ∧ ¬drooped
    let worse := fun (good fair : Prop) => (good ∧ drooped) ∨ (fair ∧ ¬ drooped)
    let isFair := worse (4 * err ≤ mag) (mag < 4 * err ∧ 2 * err ≤ mag)
    s.Inv ∧ t < s.dev.tiles.length ∧ (List.find? (fun g => g.id == id) e.edges = some g) ∧ g.ns + 576 ≤ ns ∧ g.mask = [] ∧ g.folded = false ∧
      g.applied ≠ [] ∧ isGood ∧ ¬isFair ∧ ¬(¬isGood ∧ ¬isFair) ∧ tst e.cfgE 1 = true := by dsimp only; decide

theorem witness_ForecastScores_5 :
    let s := w0
    let t : Nat := 0
    let id : Nat := 0
    let ns : Nat := 576
    let d := { s.dev with clk := { s.dev.clk with now := max s.dev.clk.now ns } }
    let e := (d.tl t).esc
    s.Inv ∧ t < s.dev.tiles.length ∧ (List.find? (fun g => g.id == id) e.edges = none) := by dsimp only; decide

theorem witness_ForecastScores_6 :
    let s := wT fun x => { x with esc := { x.esc with cfgE := 2, edges := [{ id := 0, hint := 0, tag := 0, isEnd := false, ns := 48, sched := 0, dq := [0,0,0,0], mask := [], all := [], applied := [(0, [1, 2, 3, 4], 0, [-200, 0, 0, 0])] }] }, clusters := x.clusters.modify 0 fun k => { k with loop := { k.loop with droops := [] } } }
    let t : Nat := 0
    let id : Nat := 0
    let ns : Nat := 624
    let d := { s.dev with clk := { s.dev.clk with now := max s.dev.clk.now ns } }
    let e := (d.tl t).esc
    let g : Edge := (e.edges.headD { id := 0, hint := 0, tag := 0, isEnd := false, ns := 0, sched := 0, dq := [], mask := [], all := [] })
    let parts := g.applied.flatMap fun a => [0, 1, 2, 3].map fun q =>
      let near := (e.edges ++ e.past).filter fun y => y.id != id && y.all.contains a.1 && decide (a.2.2.1 < y.ns + 384) && decide (y.ns ≤ g.ns + 192)
      let post := ((d.cl t a.1).esc.qhist.filter fun x => decide (g.ns + 192 ≤ x.ns) && decide (x.ns < g.ns + 576)).map fun x => at0 x.q q
      (divHE (sumI post) 8 - at0 a.2.2.2 q, 100 * at0 (near.foldl (fun f y => List.zipWith (· + ·) f y.dq) g.dq) q)
    let err := List.foldl (fun x1 x2 => x1 + x2) 0 (List.map (fun p => (p.fst - p.snd).natAbs) parts)
    let mag := max (List.foldl (fun x1 x2 => x1 + x2) 0 (List.map (fun p => p.snd.natAbs) parts)) (400 * g.applied.length)
    let drooped := ∃ a, a ∈ g.applied ∧ ∃ x, x ∈ (d.cl t a.fst).loop.droops ∧ g.ns ≤ x + 48 ∧ x < g.ns + 576
    let isGood := 4 * err ≤ mag ∧ ¬drooped
    let worse := fun (good fair : Prop) => (good ∧ drooped) ∨ (fair ∧ ¬ drooped)
    let isFair := worse (4 * err ≤ mag) (mag < 4 * err ∧ 2 * err ≤ mag)
    s.Inv ∧ t < s.dev.tiles.length ∧ (List.find? (fun g => g.id == id) e.edges = some g) ∧ g.ns + 576 ≤ ns ∧ g.mask = [] ∧ g.folded = false ∧
      g.applied ≠ [] ∧ ¬isGood ∧ isFair ∧ tst e.cfgE 1 = true := by dsimp only; decide

theorem witness_ForecastScores_7 :
    let s := wT fun x => { x with esc := { x.esc with cfgE := 0, edges := [{ id := 0, hint := 0, tag := 0, isEnd := false, ns := 48, sched := 0, dq := [0,0,0,0], mask := [], all := [], applied := [(0, [1, 2, 3, 4], 0, [-201, 0, 0, 0])] }] }, clusters := x.clusters.modify 0 fun k => { k with loop := { k.loop with droops := [] } } }
    let t : Nat := 0
    let id : Nat := 0
    let ns : Nat := 624
    let d := { s.dev with clk := { s.dev.clk with now := max s.dev.clk.now ns } }
    let e := (d.tl t).esc
    let g : Edge := (e.edges.headD { id := 0, hint := 0, tag := 0, isEnd := false, ns := 0, sched := 0, dq := [], mask := [], all := [] })
    let parts := g.applied.flatMap fun a => [0, 1, 2, 3].map fun q =>
      let near := (e.edges ++ e.past).filter fun y => y.id != id && y.all.contains a.1 && decide (a.2.2.1 < y.ns + 384) && decide (y.ns ≤ g.ns + 192)
      let post := ((d.cl t a.1).esc.qhist.filter fun x => decide (g.ns + 192 ≤ x.ns) && decide (x.ns < g.ns + 576)).map fun x => at0 x.q q
      (divHE (sumI post) 8 - at0 a.2.2.2 q, 100 * at0 (near.foldl (fun f y => List.zipWith (· + ·) f y.dq) g.dq) q)
    let err := List.foldl (fun x1 x2 => x1 + x2) 0 (List.map (fun p => (p.fst - p.snd).natAbs) parts)
    let mag := max (List.foldl (fun x1 x2 => x1 + x2) 0 (List.map (fun p => p.snd.natAbs) parts)) (400 * g.applied.length)
    let drooped := ∃ a, a ∈ g.applied ∧ ∃ x, x ∈ (d.cl t a.fst).loop.droops ∧ g.ns ≤ x + 48 ∧ x < g.ns + 576
    let worse := fun (good fair : Prop) => (good ∧ drooped) ∨ (fair ∧ ¬ drooped)
    let isGood := 4 * err ≤ mag ∧ ¬drooped
    let isFair := worse (4 * err ≤ mag) (mag < 4 * err ∧ 2 * err ≤ mag)
    s.Inv ∧ t < s.dev.tiles.length ∧ (List.find? (fun g => g.id == id) e.edges = some g) ∧ g.ns + 576 ≤ ns ∧ g.mask = [] ∧ g.folded = false ∧
      g.applied ≠ [] ∧ ¬isGood ∧ ¬isFair ∧ tst e.cfgE 1 = false := by dsimp only; decide

theorem witness_ForecastScores_8 :
    let s := wT fun x => { x with esc := { x.esc with cfgE := 2, edges := [{ id := 0, hint := 0, tag := 0, isEnd := false, ns := 48, sched := 0, dq := [0,0,0,0], mask := [], all := [], applied := [(0, [1, 2, 3, 4], 0, [-201, 0, 0, 0])] }] }, clusters := x.clusters.modify 0 fun k => { k with loop := { k.loop with droops := [] } } }
    let t : Nat := 0
    let id : Nat := 0
    let ns : Nat := 624
    let d := { s.dev with clk := { s.dev.clk with now := max s.dev.clk.now ns } }
    let e := (d.tl t).esc
    let g : Edge := (e.edges.headD { id := 0, hint := 0, tag := 0, isEnd := false, ns := 0, sched := 0, dq := [], mask := [], all := [] })
    let parts := g.applied.flatMap fun a => [0, 1, 2, 3].map fun q =>
      let near := (e.edges ++ e.past).filter fun y => y.id != id && y.all.contains a.1 && decide (a.2.2.1 < y.ns + 384) && decide (y.ns ≤ g.ns + 192)
      let post := ((d.cl t a.1).esc.qhist.filter fun x => decide (g.ns + 192 ≤ x.ns) && decide (x.ns < g.ns + 576)).map fun x => at0 x.q q
      (divHE (sumI post) 8 - at0 a.2.2.2 q, 100 * at0 (near.foldl (fun f y => List.zipWith (· + ·) f y.dq) g.dq) q)
    let err := List.foldl (fun x1 x2 => x1 + x2) 0 (List.map (fun p => (p.fst - p.snd).natAbs) parts)
    let mag := max (List.foldl (fun x1 x2 => x1 + x2) 0 (List.map (fun p => p.snd.natAbs) parts)) (400 * g.applied.length)
    let drooped := ∃ a, a ∈ g.applied ∧ ∃ x, x ∈ (d.cl t a.fst).loop.droops ∧ g.ns ≤ x + 48 ∧ x < g.ns + 576
    let worse := fun (good fair : Prop) => (good ∧ drooped) ∨ (fair ∧ ¬ drooped)
    let isGood := 4 * err ≤ mag ∧ ¬drooped
    let isFair := worse (4 * err ≤ mag) (mag < 4 * err ∧ 2 * err ≤ mag)
    s.Inv ∧ t < s.dev.tiles.length ∧ (List.find? (fun g => g.id == id) e.edges = some g) ∧ g.ns + 576 ≤ ns ∧ g.mask = [] ∧ g.folded = false ∧
      g.applied ≠ [] ∧ tst e.cfgE 1 = true ∧ ¬isGood ∧ ¬isFair := by dsimp only; decide

theorem witness_PalletRequests_1 :
    let s := w0
    let t : Nat := 0
    let w : Word := 0
    let frames := [Instr.opreq t w, Instr.freq t w, Instr.fack t w, Instr.cpm t w, Instr.malformedRequestFrame t w]
    let i : Instr := Instr.cpm t w
    s.Inv ∧ s.dev.hasT t = true ∧ w = 0 ∧ i ∈ frames := by dsimp only; decide

theorem witness_PalletRequests_2 :
    let s := w0
    let t : Nat := 0
    let w : Word := 0xA0000000
    let d := s.dev
    let frames := [Instr.opreq t w, Instr.freq t w, Instr.fack t w, Instr.cpm t w, Instr.malformedRequestFrame t w]
    let st : Nat := 9
    let i : Instr := Instr.cpm t w
    s.Inv ∧ s.dev.hasT t = true ∧ receipt t w d = st ∧ st ≠ 0 ∧ st ≠ 15 ∧ i ∈ frames := by dsimp only; decide

theorem witness_PalletRequests_3 :
    let s := wC fun k => { k with seq := { k.seq with st := .A } }
    let t : Nat := 0
    let w : Word := (word [(1, 29), (120, 8)])
    let d := s.dev
    let c := fld w 22 18
    let k := d.cl t c
    let room := d.live t c = true ∧ k.seq.st = PState.A ∧ k.seq.chg = Chg.none ∧ fld k.seq.clgrE 1 0 ≠ 2 ∧ d.held = false ∧ List.countP (fun x => x.rid.isSome) k.seq.queue < 4 ∧ (d.tl t).reqs < 16
    s.Inv ∧ s.dev.hasT t = true ∧ fld w 31 29 = 1 ∧ (c < 14 ∨ fld w 7 0 = 0) ∧ codeLo (domOf c) ≤ fld w 17 8 ∧ fld w 17 8 ≤ codeHi (domOf c) ∧ room := by dsimp only; decide

theorem witness_PalletRequests_4 :
    let s := wC fun k => { k with seq := { k.seq with st := .A } }
    let t : Nat := 0
    let w : Word := (word [(2, 29), (1, 8), (7, 0)])
    let d := s.dev
    let c := fld w 22 18
    let k := d.cl t c
    let room := d.live t c = true ∧ k.seq.st = PState.A ∧ k.seq.chg = Chg.none ∧ fld k.seq.clgrE 1 0 ≠ 2 ∧ d.held = false ∧ List.countP (fun x => x.rid.isSome) k.seq.queue < 4 ∧ (d.tl t).reqs < 16
    s.Inv ∧ s.dev.hasT t = true ∧ fld w 31 29 = 2 ∧ fld w 17 9 = 0 ∧ fld w 7 0 ≠ 0 ∧ room := by dsimp only; decide

theorem witness_PalletRequests_5 :
    let s := w0
    let t : Nat := 0
    let w : Word := (word [(4, 29), (9, 18), (3, 8), (0x80, 0)])
    let d := s.dev
    let c := fld w 22 18
    s.Inv ∧ s.dev.hasT t = true ∧ fld w 31 29 = 4 ∧ fld w 28 23 = 0 ∧ fld w 17 10 = 0 ∧ c < 10 ∧ d.live t c = true := by dsimp only; decide

theorem witness_PalletRequests_6 :
    let s := wT fun x => { x with pal := { x.pal with awaits := [{ tnum := 0, c := 0, st := some .B1, sent := 0 }] }, clusters := x.clusters.modify 0 fun k => { k with loop := { k.loop with outOn := true }, seq := { k.seq with chg := .asked .B1 } } }
    let t : Nat := 0
    let w : Word := (word [(3, 29)])
    let d := s.dev
    let a : Await := { tnum := 0, c := 0, st := some .B1, sent := 0 }
    let q := (d.cl t a.c).seq
    s.Inv ∧ s.dev.hasT t = true ∧ fld w 31 29 = 3 ∧ fld w 20 0 = 0 ∧ (List.find? (fun a => a.tnum == fld w 28 21) (d.tl t).pal.awaits = some a) ∧
      a.st = some PState.B1 ∧ q.chg = Chg.asked PState.B1 ∧ q.chgTnum = a.tnum ∧ (d.cl t a.c).loop.outOn = true := by dsimp only; decide

theorem witness_PalletRequests_7 :
    let s := wT fun x => { x with pal := { x.pal with awaits := [{ tnum := 0, c := 0, st := some .B2, sent := 0 }] }, clusters := x.clusters.modify 0 fun k => { k with loop := { k.loop with outOn := true }, seq := { k.seq with chg := .asked .B2 } } }
    let t : Nat := 0
    let w : Word := (word [(3, 29)])
    let d := s.dev
    let a : Await := { tnum := 0, c := 0, st := some .B2, sent := 0 }
    let q := (d.cl t a.c).seq
    s.Inv ∧ s.dev.hasT t = true ∧ fld w 31 29 = 3 ∧ fld w 20 0 = 0 ∧ (List.find? (fun a => a.tnum == fld w 28 21) (d.tl t).pal.awaits = some a) ∧
      a.st = some PState.B2 ∧ q.chg = Chg.asked PState.B2 ∧ q.chgTnum = a.tnum ∧ (d.cl t a.c).loop.outOn = true := by dsimp only; decide

theorem witness_PalletRequests_8 :
    let s := wT fun x => { x with pal := { x.pal with awaits := [{ tnum := 31, c := 0, st := none, sent := 0 }] } }
    let t : Nat := 0
    let w : Word := (word [(3, 29), (31, 21)])
    let d := s.dev
    let a : Await := { tnum := 31, c := 0, st := none, sent := 0 }
    let q := (d.cl t a.c).seq
    s.Inv ∧ s.dev.hasT t = true ∧ fld w 31 29 = 3 ∧ fld w 20 0 = 0 ∧ (List.find? (fun a => a.tnum == fld w 28 21) (d.tl t).pal.awaits = some a) ∧
      a.st = none ∧ q.cur = none := by dsimp only; decide

theorem witness_ReturnSlots_1 :
    let s := w0
    let t : Nat := 0
    let d := s.dev
    let p := (d.tl t).pal
    let idle := p.forced = [] ∧ p.ptr = none ∧ p.lowered = []
    s.Inv ∧ s.dev.hasT t = true ∧ idle ∧ p.rest = [] := by dsimp only; decide

theorem witness_ReturnSlots_2 :
    let s := wT fun x => { x with pal := { x.pal with ptr := some 10749, lowered := [10749], value := [(10749, 3)] } }
    let t : Nat := 0
    let d := s.dev
    let p := (d.tl t).pal
    let k : Nat := 10749
    let v : Nat := 3
    s.Inv ∧ s.dev.hasT t = true ∧ p.forced = [] ∧ p.ptr = some k ∧ k + 2 < 10752 ∧ p.lowered = [k] ∧ p.value = [(k, v)] ∧ d.coreQuiet t k = false := by dsimp only; decide

theorem witness_ReturnSlots_3 :
    let s := wT fun x => { x with pal := { x.pal with rest := [.fup 1 0 5] } }
    let t : Nat := 0
    let d := s.dev
    let p := (d.tl t).pal
    let idle := p.forced = [] ∧ p.ptr = none ∧ p.lowered = []
    let n : Nat := 1
    let c : Nat := 0
    let f : Nat := 5
    let l : List Pay := []
    s.Inv ∧ s.dev.hasT t = true ∧ idle ∧ p.rest = Pay.fup n c f :: l ∧ d.clusterHeld t c = false := by dsimp only; decide

theorem witness_ReturnSlots_4 :
    let s := wT fun x => { x with pal := { x.pal with rest := [.fsync 1 0 0] } }
    let t : Nat := 0
    let d := s.dev
    let p := (d.tl t).pal
    let idle := p.forced = [] ∧ p.ptr = none ∧ p.lowered = []
    let n : Nat := 1
    let c : Nat := 0
    let f : Nat := 0
    let l : List Pay := []
    s.Inv ∧ s.dev.hasT t = true ∧ idle ∧ p.rest = Pay.fsync n c f :: l ∧ (d.clusterQuiet t c = false ∨ f = 0) := by dsimp only; decide

theorem witness_ReturnSlots_5 :
    let s := wT fun x => { x with pal := { x.pal with rest := [.state 1 0 .B1] } }
    let t : Nat := 0
    let d := s.dev
    let p := (d.tl t).pal
    let idle := p.forced = [] ∧ p.ptr = none ∧ p.lowered = []
    let n : Nat := 1
    let c : Nat := 0
    let st : PState := PState.B1
    let l : List Pay := []
    s.Inv ∧ s.dev.hasT t = true ∧ idle ∧ p.rest = Pay.state n c st :: l ∧ st ≠ PState.A := by dsimp only; decide

theorem witness_ReturnSlots_6 :
    let s := wT fun x => { x with pal := { x.pal with forced := [.state 1 0 .B2] } }
    let t : Nat := 0
    let d := s.dev
    let p := (d.tl t).pal
    let n : Nat := 1
    let c : Nat := 0
    let st : PState := PState.B2
    let l : List Pay := []
    s.Inv ∧ s.dev.hasT t = true ∧ p.forced = Pay.state n c st :: l := by dsimp only; decide

theorem witness_ReturnSlots_7 :
    let s := wT fun x => { x with pal := { x.pal with lowered := [5], value := [(5, 3)], rest := [.limit 5] } }
    let t : Nat := 0
    let d := s.dev
    let p := (d.tl t).pal
    let k : Nat := 5
    let v : Nat := 3
    s.Inv ∧ s.dev.hasT t = true ∧ p.forced = [] ∧ p.ptr = none ∧ p.lowered = [k] ∧ p.value = [(k, v)] ∧ d.coreQuiet t k = false := by dsimp only; decide

theorem witness_ReturnSlots_8 :
    let s := wT fun x => { x with pal := { x.pal with lowered := [5, 8], value := [(5, 3), (8, 0)], rest := [.limit 5] } }
    let t : Nat := 0
    let d := s.dev
    let p := (d.tl t).pal
    let k : Nat := 5
    let v : Nat := 3
    let j : Nat := 8
    let u : Nat := 0
    s.Inv ∧ s.dev.hasT t = true ∧ p.forced = [] ∧ p.ptr = none ∧ k < j ∧ j ≤ k + 3 ∧ p.lowered = [k, j] ∧ p.value = [(k, v), (j, u)] ∧
      d.coreQuiet t k = false ∧ d.coreQuiet t j = false := by dsimp only; decide

theorem witness_ReturnSlots_9 :
    let s := wT fun x => { x with pal := { x.pal with lowered := [5], value := [(5, 3)], sent := [(5, 0)] }, clusters := x.clusters.modify 0 fun k => { k with esc := { k.esc with wins := [{ w := 0, e := 5, inForce := true }] } }, cmap := some [0, 0, 0, 0, 0, 0, 0] }
    let t : Nat := 0
    let d := s.dev
    let p := (d.tl t).pal
    let k : Nat := 5
    let v : Nat := 3
    s.Inv ∧ s.dev.hasT t = true ∧ p.forced = [] ∧ p.ptr = none ∧ p.lowered = [k] ∧ p.value = [(k, v)] ∧ p.rest = [] ∧ d.coreQuiet t k = true ∧
      (assocGet p.sent k).getD 255 ≤ d.hardLim t k := by dsimp only; decide

theorem witness_ReturnSlots_10 :
    let s := wT fun x => { x with pal := { x.pal with rest := [.fsync 1 0 5] }, clusters := x.clusters.modify 0 fun k => { k with esc := { k.esc with wins := [{ w := 0, e := 5, inForce := true }] } } }
    let t : Nat := 0
    let d := s.dev
    let p := (d.tl t).pal
    let idle := p.forced = [] ∧ p.ptr = none ∧ p.lowered = []
    let n : Nat := 1
    let c : Nat := 0
    let f : Nat := 5
    s.Inv ∧ s.dev.hasT t = true ∧ idle ∧ p.rest = [Pay.fsync n c f] ∧ d.clusterQuiet t c = true ∧ f ≠ 0 := by dsimp only; decide

theorem witness_ReturnSlots_11 :
    let s := wT fun x => { x with pal := { x.pal with rest := [.done 1 0 360 0] }, clusters := x.clusters.modify 0 fun k => { k with seq := { k.seq with cur := some { cls := 10, kind := .freqDown, step := 5, tnum := 1 }, aside := some { cls := 10, kind := .freqUp, step := 1, tnum := 2 } } } }
    let t : Nat := 0
    let d := s.dev
    let p := (d.tl t).pal
    let idle := p.forced = [] ∧ p.ptr = none ∧ p.lowered = []
    let n : Nat := 1
    let r : Nat := 0
    let v : Nat := 360
    let c : Nat := 0
    let l : List Pay := []
    s.Inv ∧ s.dev.hasT t = true ∧ idle ∧ p.rest = Pay.done n r v c :: l := by dsimp only; decide

theorem witness_ReturnSlots_12 :
    let s := wD fun d => { d with seq := { d.seq with phase := 3 }, tiles := (d.onT 0 fun x => { x with clusters := x.clusters.modify 0 (fun k => { k with seq := { k.seq with chg := .framed, track := true, target := some 360 } }), pal := { x.pal with rest := [.state 1 0 .A] } }).tiles }
    let t : Nat := 0
    let d := s.dev
    let p := (d.tl t).pal
    let idle := p.forced = [] ∧ p.ptr = none ∧ p.lowered = []
    let n : Nat := 1
    let c : Nat := 0
    let l : List Pay := []
    s.Inv ∧ s.dev.hasT t = true ∧ idle ∧ p.rest = Pay.state n c PState.A :: l ∧ (d.cl t c).seq.chg = Chg.framed ∧ (d.cl t c).seq.force = false ∧
      d.seq.phase = 3 := by dsimp only; decide

theorem witness_TimeoutsAndPowerOns_1 :
    let s := wT fun x => { x with pal := { x.pal with awaits := [{ tnum := 5, c := 0, st := some .B1, sent := 0 }] } }
    let t : Nat := 0
    let tnum : Nat := 5
    let ns : Nat := 20000
    let d := s.dev
    let find := List.find? (fun a => a.tnum == tnum && decide (a.sent + 1000 * fld d.seq.cfg 21 16 ≤ ns)) (d.tl t).pal.awaits
    let a : Await := { tnum := 5, c := 0, st := some .B1, sent := 0 }
    s.Inv ∧ find = some a := by dsimp only; decide

theorem witness_TimeoutsAndPowerOns_2 :
    let s := wT fun x => { x with pal := { x.pal with awaits := [{ tnum := 5, c := 0, st := some .B1, sent := 0 }] } }
    let t : Nat := 0
    let c : Nat := 0
    let ns : Nat := 20000
    let d := s.dev
    let q := (d.cl t c).seq
    let ready := domOf c = Domain.L → ∀ (x : Nat), x ∈ (d.tl t).sOfL c → (d.cl t x).loop.outOn = true ∧ (d.cl t x).loop.pgood = true ∨ d.live t x = false
    s.Inv ∧ (q.chg ≠ Chg.waiting ∨ q.track = true ∨ q.qtr = true ∨ q.admitted = true ∧ ¬ready ∨ ns < q.wakeAt + 1000 * fld d.seq.adm 7 0) ∧
      q.chg ≠ Chg.powering ∧ q.chg ≠ Chg.bootstrap := by dsimp only; decide

theorem witness_TimeoutsAndPowerOns_3 :
    let s := w0
    let t : Nat := 0
    let tnum : Nat := 5
    let ns : Nat := 19999
    let d := s.dev
    let find := List.find? (fun a => a.tnum == tnum && decide (a.sent + 1000 * fld d.seq.cfg 21 16 ≤ ns)) (d.tl t).pal.awaits
    s.Inv ∧ find = none := by dsimp only; decide

theorem witness_TimeoutsAndPowerOns_4 :
    let s := wD fun d => d.onSeq 0 10 fun q => { q with chg := .waiting }
    let t : Nat := 0
    let c : Nat := 10
    let ns : Nat := 255000
    let d := s.dev
    let q := (d.cl t c).seq
    let ready := domOf c = Domain.L → ∀ (x : Nat), x ∈ (d.tl t).sOfL c → (d.cl t x).loop.outOn = true ∧ (d.cl t x).loop.pgood = true ∨ d.live t x = false
    let free := (d.tl t).ramping < fld d.seq.cfg 26 24
    let mild := fun (n : Nat) (sc : Scope) => d.flt.levelOf 5 n sc < 4 ∧ d.log.frzFull = false ∧ 1000 ≤ (d.log.bucket (0x500 + n)).tokens
    let steady := ∀ (t c : Nat) (x : Cell), x ∈ (d.cl t c).cells → x.shed = Shed.steady
    s.Inv ∧ q.chg = Chg.waiting ∧ q.track = false ∧ q.qtr = false ∧ (q.admitted = false ∨ ready) ∧ q.wakeAt + 1000 * fld d.seq.adm 7 0 ≤ ns ∧ ready ∧
      free ∧ mild 4 (Scope.cluster t c) := by dsimp only; decide

theorem witness_TimeoutsAndPowerOns_5 :
    let s := wD fun d => { (d.onSeq 0 10 fun q => { q with chg := .waiting }) with seq := { d.seq with cfg := 0 } }
    let t : Nat := 0
    let c : Nat := 10
    let ns : Nat := 255000
    let d := s.dev
    let q := (d.cl t c).seq
    let ready := domOf c = Domain.L → ∀ (x : Nat), x ∈ (d.tl t).sOfL c → (d.cl t x).loop.outOn = true ∧ (d.cl t x).loop.pgood = true ∨ d.live t x = false
    let free := (d.tl t).ramping < fld d.seq.cfg 26 24
    let steady := ∀ (t c : Nat) (x : Cell), x ∈ (d.cl t c).cells → x.shed = Shed.steady
    s.Inv ∧ q.chg = Chg.waiting ∧ q.track = false ∧ q.qtr = false ∧ (q.admitted = false ∨ ready) ∧ q.wakeAt + 1000 * fld d.seq.adm 7 0 ≤ ns ∧
      domOf c ≠ Domain.L ∧ ¬free ∧ (¬ready ∨ ¬free) := by dsimp only; decide

theorem witness_TimeoutsAndPowerOns_6 :
    let s := wC fun k => { k with seq := { k.seq with chg := .powering } }
    let t : Nat := 0
    let c : Nat := 0
    let d := s.dev
    let q := (d.cl t c).seq
    s.Inv ∧ q.chg = Chg.powering := by dsimp only; decide

theorem witness_TimeoutsAndPowerOns_7 :
    let s := wD fun d => { (d.onSeq 0 16 fun q => { q with chg := .bootstrap, track := true }) with seq := { d.seq with phase := 1 } }
    let t : Nat := 0
    let c : Nat := 16
    let d := s.dev
    let q := (d.cl t c).seq
    s.Inv ∧ q.chg = Chg.bootstrap ∧ q.track = true ∧ domOf c = Domain.M ∧ d.seq.phase = 1 ∧ (d.cl t c).loop.outOn = false := by dsimp only; decide

theorem witness_TimeoutsAndPowerOns_8 :
    let s := wD fun d => { (d.onSeq 0 0 fun q => { q with chg := .bootstrap, track := true }) with seq := { d.seq with phase := 1 } }
    let t : Nat := 0
    let c : Nat := 0
    let d := s.dev
    let q := (d.cl t c).seq
    s.Inv ∧ q.chg = Chg.bootstrap ∧ (q.track = false ∨ domOf c ≠ Domain.M ∨ d.seq.phase ≠ 1) ∧ (q.fromOff = true ∨ q.track = true) := by dsimp only; decide

theorem witness_TimeoutsAndPowerOns_10 :
    let s := wT fun x => { x with pal := { x.pal with awaits := [{ tnum := 5, c := 0, st := none, sent := 0 }] }, clusters := x.clusters.modify 0 fun k => { k with seq := { k.seq with st := .A, cur := some { cls := 7, kind := .setpoint, code := 300, step := 2, tnum := 5 } } } }
    let t : Nat := 0
    let tnum : Nat := 5
    let ns : Nat := 20000
    let d := s.dev
    let find := List.find? (fun a => a.tnum == tnum && decide (a.sent + 1000 * fld d.seq.cfg 21 16 ≤ ns)) (d.tl t).pal.awaits
    let mild := fun (n : Nat) (sc : Scope) => d.flt.levelOf 5 n sc < 4 ∧ d.log.frzFull = false ∧ 1000 ≤ (d.log.bucket (0x500 + n)).tokens
    let a : Await := { tnum := 5, c := 0, st := none, sent := 0 }
    let k := (d.cl t a.c).seq
    let tr : Machine.Trans := { cls := 7, kind := .setpoint, code := 300, step := 2, tnum := 5 }
    s.Inv ∧ find = some a ∧ t < d.tiles.length ∧ mild 1 (Scope.cluster t a.c) ∧ a.st = none ∧ k.cur = some tr ∧ tr.tnum = tnum ∧ tr.step = 2 ∧
      a.c < (d.tl t).clusters.length := by dsimp only; decide

theorem witness_TimeoutsAndPowerOns_11 :
    let s := wT fun x => { x with pal := { x.pal with awaits := [{ tnum := 5, c := 0, st := some .B2, sent := 0 }] }, clusters := x.clusters.modify 0 fun k => { k with seq := { k.seq with st := .A, chg := .asked .B2, chgTnum := 5 } } }
    let t : Nat := 0
    let tnum : Nat := 5
    let ns : Nat := 20000
    let d := s.dev
    let find := List.find? (fun a => a.tnum == tnum && decide (a.sent + 1000 * fld d.seq.cfg 21 16 ≤ ns)) (d.tl t).pal.awaits
    let mild := fun (n : Nat) (sc : Scope) => d.flt.levelOf 5 n sc < 4 ∧ d.log.frzFull = false ∧ 1000 ≤ (d.log.bucket (0x500 + n)).tokens
    let a : Await := { tnum := 5, c := 0, st := some .B2, sent := 0 }
    let k := (d.cl t a.c).seq
    let x : PState := PState.B2
    s.Inv ∧ find = some a ∧ t < d.tiles.length ∧ mild 1 (Scope.cluster t a.c) ∧ a.st = some x ∧ k.chg = Chg.asked x ∧ k.chgTnum = tnum ∧
      k.st = PState.A ∧ a.c < (d.tl t).clusters.length := by dsimp only; decide

theorem witness_TimeoutsAndPowerOns_12 :
    let s := wT fun x => { x with pal := { x.pal with awaits := [{ tnum := 5, c := 0, st := some .B2, sent := 0 }] }, clusters := x.clusters.modify 0 fun k => { k with loop := { k.loop with outOn := true }, seq := { k.seq with st := .B1, chg := .asked .B2, chgTnum := 5 } } }
    let t : Nat := 0
    let tnum : Nat := 5
    let ns : Nat := 20000
    let d := s.dev
    let find := List.find? (fun a => a.tnum == tnum && decide (a.sent + 1000 * fld d.seq.cfg 21 16 ≤ ns)) (d.tl t).pal.awaits
    let mild := fun (n : Nat) (sc : Scope) => d.flt.levelOf 5 n sc < 4 ∧ d.log.frzFull = false ∧ 1000 ≤ (d.log.bucket (0x500 + n)).tokens
    let steady := ∀ (t c : Nat) (x : Cell), x ∈ (d.cl t c).cells → x.shed = Shed.steady
    let a : Await := { tnum := 5, c := 0, st := some .B2, sent := 0 }
    let k := (d.cl t a.c).seq
    let x : PState := PState.B2
    s.Inv ∧ find = some a ∧ t < d.tiles.length ∧ mild 1 (Scope.cluster t a.c) ∧ a.st = some x ∧ k.chg = Chg.asked x ∧ k.chgTnum = tnum ∧
      k.st ≠ PState.A ∧ a.c < (d.tl t).clusters.length ∧ k.st = PState.B1 ∧ (d.cl t a.c).loop.outOn = true := by dsimp only; decide

theorem witness_TimeoutsAndPowerOns_13 :
    let s := wT fun x => { x with pal := { x.pal with awaits := [{ tnum := 5, c := 0, st := some .B3, sent := 0 }] }, clusters := x.clusters.modify 0 fun k => { k with loop := { k.loop with outOn := true }, seq := { k.seq with st := .B2, chg := .asked .B3, chgTnum := 5 } } }
    let t : Nat := 0
    let tnum : Nat := 5
    let ns : Nat := 20000
    let d := s.dev
    let find := List.find? (fun a => a.tnum == tnum && decide (a.sent + 1000 * fld d.seq.cfg 21 16 ≤ ns)) (d.tl t).pal.awaits
    let mild := fun (n : Nat) (sc : Scope) => d.flt.levelOf 5 n sc < 4 ∧ d.log.frzFull = false ∧ 1000 ≤ (d.log.bucket (0x500 + n)).tokens
    let steady := ∀ (t c : Nat) (x : Cell), x ∈ (d.cl t c).cells → x.shed = Shed.steady
    let a : Await := { tnum := 5, c := 0, st := some .B3, sent := 0 }
    let k := (d.cl t a.c).seq
    let x : PState := PState.B3
    s.Inv ∧ find = some a ∧ t < d.tiles.length ∧ mild 1 (Scope.cluster t a.c) ∧ a.st = some x ∧ k.chg = Chg.asked x ∧ k.chgTnum = tnum ∧
      k.st ≠ PState.A ∧ a.c < (d.tl t).clusters.length ∧ k.st ≠ PState.B1 ∧ (d.cl t a.c).loop.outOn = true := by dsimp only; decide

theorem witness_TimeoutsAndPowerOns_14 :
    let s := wT fun x => { x with pal := { x.pal with awaits := [{ tnum := 5, c := 0, st := some .D, sent := 0 }] }, clusters := x.clusters.modify 0 fun k => { k with loop := { k.loop with outOn := false }, seq := { k.seq with st := .D, chg := .asked .D, chgTnum := 5 } } }
    let t : Nat := 0
    let tnum : Nat := 5
    let ns : Nat := 20000
    let d := s.dev
    let find := List.find? (fun a => a.tnum == tnum && decide (a.sent + 1000 * fld d.seq.cfg 21 16 ≤ ns)) (d.tl t).pal.awaits
    let mild := fun (n : Nat) (sc : Scope) => d.flt.levelOf 5 n sc < 4 ∧ d.log.frzFull = false ∧ 1000 ≤ (d.log.bucket (0x500 + n)).tokens
    let steady := ∀ (t c : Nat) (x : Cell), x ∈ (d.cl t c).cells → x.shed = Shed.steady
    let a : Await := { tnum := 5, c := 0, st := some .D, sent := 0 }
    let k := (d.cl t a.c).seq
    let x : PState := PState.D
    s.Inv ∧ find = some a ∧ t < d.tiles.length ∧ mild 1 (Scope.cluster t a.c) ∧ a.st = some x ∧ k.chg = Chg.asked x ∧ k.chgTnum = tnum ∧
      k.st ≠ PState.A ∧ a.c < (d.tl t).clusters.length ∧ (d.cl t a.c).loop.outOn = false := by dsimp only; decide

theorem witness_ClusterWritesAct_1 :
    let s := wC fun k => { k with loop := { k.loop with handed := true }, thm := { k.thm with broken := true, rellock := true } }
    let w : Writer := .boot
    let t : Nat := 0
    let c : Nat := 0
    let d := s.dev
    let k := d.cl t c
    let v : Word := (word [(520, 16), (120, 0)])
    let q := k.seq
    let safe := d.flt.safe
    let code := fld v 9 0
    let hi := fld v 25 16
    let lim := codeLo (domOf c) ≤ code ∧ code ≤ hi ∧ hi ≤ codeHi (domOf c)
    let f := fld v 6 4
    let step := fun (g : Word) => if fld g 15 8 = 0 then 256 else fld g 15 8
    let ranked := fun (x : Word) (l : List (Nat × Word)) => l.filter (fun y => y.1 < liveClass w) ++ (liveClass w, x) :: l.filter fun y => liveClass w < y.1
    let span := spanOf (ranked (v &&& 0x03FF03FF) q.bounds)
    let grant := grantOf (ranked (v &&& 0x0000FF03) q.grants)
    let raise := fld grant 1 0 < fld q.clgr 1 0 ∨ step q.clgr < step grant
    s.Inv ∧ t < 96 ∧ c < 18 ∧ actsLive w t ∧ d.live t c = true ∧ (d.tl t).rst = false ∧
      k.quiet = false ∧ k.loop.handed = true ∧ (d.tl t).rem.halted = false ∧
      (codeLo (domOf c) ≤ code ∧ code ≤ codeHi (domOf c) ∧ k.quiet = false ∧ (safe = false ∨ code ≤ q.atarget)) ∧
      (lim ∧ (safe = false ∨ fld span 9 0 ≤ q.atarget) ∧ (k.quiet = false ∨ fld span 9 0 ≤ q.atarget ∧ q.atarget ≤ fld span 25 16)) ∧
      (d.live t c = false ∨ (d.tl t).rst = true ∨ ¬(f ≤ 4 ∧ (isLS c = true ∨ f ≠ 2 ∧ f ≠ 3) ∧ k.quiet = false ∧ (safe = false ∨ tst v 7 = false ∧ f ≠ 0 ∨ q.st.depth ≤ f))) ∧
      (fld v 1 0 ≠ 3 ∧ k.quiet = false ∧ (safe = false ∨ ¬raise)) ∧ (fld v 15 0 ≠ 0 ∧ (safe = false ∨ fld v 15 0 ≤ k.bud.cap)) ∧
      k.thm.broken = true ∧ k.thm.rellock = true ∧ k.thm.shut = false ∧
      (d.live t c = false ∨ (d.tl t).rst = true ∨ ¬((fld v 5 0 ≤ if isLS c = true then 31 else 1) ∧ k.quiet = false ∧ (d.tl t).fus.run = true)) := by dsimp only [Dev.reached, actsLive]; decide

theorem witness_ClusterWritesAct_2 :
    let s := wD fun d => { d with flt := { d.flt with safe := true } }
    let w : Writer := (.rafter 0)
    let t : Nat := 0
    let c : Nat := 17
    let d := s.dev
    let k := d.cl t c
    let v : Word := 0xFFFF
    let q := k.seq
    let safe := d.flt.safe
    let code := fld v 9 0
    let hi := fld v 25 16
    let lim := codeLo (domOf c) ≤ code ∧ code ≤ hi ∧ hi ≤ codeHi (domOf c)
    let step := fun (g : Word) => if fld g 15 8 = 0 then 256 else fld g 15 8
    let ranked := fun (x : Word) (l : List (Nat × Word)) => l.filter (fun y => y.1 < liveClass w) ++ (liveClass w, x) :: l.filter fun y => liveClass w < y.1
    let span := spanOf (ranked (v &&& 0x03FF03FF) q.bounds)
    let grant := grantOf (ranked (v &&& 0x0000FF03) q.grants)
    let raise := fld grant 1 0 < fld q.clgr 1 0 ∨ step q.clgr < step grant
    s.Inv ∧ t < 96 ∧ c < 18 ∧ actsLive w t ∧
      (d.live t c = false ∨ (d.tl t).rst = true ∨ ¬(k.quiet = false ∧ k.loop.handed = true ∧ (d.tl t).rem.halted = false)) ∧
      (d.live t c = false ∨ (d.tl t).rst = true ∨ ¬(codeLo (domOf c) ≤ code ∧ code ≤ codeHi (domOf c) ∧ k.quiet = false ∧ (safe = false ∨ code ≤ q.atarget))) ∧
      (d.live t c = false ∨ (d.tl t).rst = true ∨ ¬(lim ∧ (safe = false ∨ fld span 9 0 ≤ q.atarget) ∧ (k.quiet = false ∨ fld span 9 0 ≤ q.atarget ∧ q.atarget ≤ fld span 25 16))) ∧
      (d.live t c = false ∨ (d.tl t).rst = true ∨ ¬(fld v 1 0 ≠ 3 ∧ k.quiet = false ∧ (safe = false ∨ ¬raise))) ∧
      (d.live t c = false ∨ (d.tl t).rst = true ∨ ¬k.thm.broken = true) ∧
      (d.live t c = false ∨ (d.tl t).rst = true ∨ ¬(k.thm.rellock = true ∧ k.thm.shut = false)) := by dsimp only [Dev.reached, actsLive]; decide

theorem witness_ClusterWritesAct_3 :
    let s := wT fun x => { x with fus := { x.fus with run := true } }
    let w : Writer := (.rafter 0)
    let t : Nat := 0
    let c : Nat := 0
    let v : Word := 31
    let d := s.dev
    let k := d.cl t c
    let q := k.seq
    let f := fld v 6 4
    let safe := d.flt.safe
    s.Inv ∧ t < 96 ∧ c < 18 ∧ actsLive w t ∧ d.live t c = true ∧ (d.tl t).rst = false ∧
      (f ≤ 4 ∧ (isLS c = true ∨ f ≠ 2 ∧ f ≠ 3) ∧ k.quiet = false ∧ (safe = false ∨ tst v 7 = false ∧ f ≠ 0 ∨ q.st.depth ≤ f)) ∧
      (fld v 5 0 ≤ if isLS c = true then 31 else 1) ∧ k.quiet = false ∧ (d.tl t).fus.run = true := by dsimp only [Dev.reached, actsLive]; decide

theorem witness_ClusterWritesAct_4 :
    let s := wC fun k => { k with seq := { k.seq with bounds := [(5, 0x01400170), (9, 0x00640064)], grants := [(8, 0x201)] } }
    let w : Writer := (.rafter 0)
    let t : Nat := 0
    let c : Nat := 0
    let v : Word := 0
    let d := s.dev
    let k := d.cl t c
    let safe := d.flt.safe
    s.Inv ∧ t < 96 ∧ c < 18 ∧ actsLive w t ∧
      (d.live t c = false ∨ (d.tl t).rst = true ∨ ¬(fld v 15 0 ≠ 0 ∧ (safe = false ∨ fld v 15 0 ≤ k.bud.cap))) := by dsimp only [Dev.reached, actsLive]; decide

theorem witness_ClusterWritesAct_5 :
    let s := wC fun k => { k with seq := { k.seq with bounds := [(5, 0x01400170)] } }
    let w : Writer := (.rafter 0)
    let t : Nat := 0
    let c : Nat := 0
    let y : Word := 0x01900064
    let l : List (Nat × Word) := [(9, 0x01900064)]
    s.Inv ∧ t < 96 ∧ c < 18 ∧ actsLive w t ∧ l ≠ [] ∧ spanOf l = y := by dsimp only [Dev.reached, actsLive]; decide

theorem witness_ClusterWritesAct_6 :
    let s := wC fun k => { k with seq := { k.seq with bounds := [(5, 0x01400170)] } }
    let w : Writer := (.rafter 0)
    let t : Nat := 0
    let c : Nat := 0
    let y : Word := 0x0102
    let l : List (Nat × Word) := [(9, 0x0102)]
    s.Inv ∧ t < 96 ∧ c < 18 ∧ actsLive w t ∧ l ≠ [] ∧ grantOf l = y := by dsimp only [Dev.reached, actsLive]; decide

theorem witness_ClusterWritesAct_7 :
    let s := wC fun k => { k with seq := { k.seq with bounds := [(5, 0x01400170)] } }
    let w : Writer := (.rafter 0)
    let t : Nat := 0
    let c : Nat := 0
    s.Inv ∧ t < 96 ∧ c < 18 ∧ actsLive w t := by dsimp only [Dev.reached, actsLive]; decide

theorem witness_ThermalMonitor_1 :
    let s := w0
    let d := s.dev
    s.Inv ∧ d.thm.readDue = false := by dsimp only; decide

theorem witness_ThermalMonitor_2 :
    let s := w0
    let raw : List DiodeReading := [⟨0, 0, 4095⟩]
    let d := s.dev
    let r : DiodeReading := ⟨0, 0, 4095⟩
    s.Inv ∧ r ∈ raw ∧ d.hasC r.tile r.cluster = true ∧ (∀ (q : DiodeReading), q ∈ raw → q.tile = r.tile → q.cluster = r.cluster → q.raw = r.raw) := by dsimp only; decide

theorem witness_ThermalMonitor_3 :
    let s := w0
    let raw : List DiodeReading := [⟨0, 0, 4095⟩]
    let t : Nat := 0
    let c : Nat := 1
    s.Inv ∧ (∀ (r : DiodeReading), r ∈ raw → ¬(r.tile = t ∧ r.cluster = c)) := by dsimp only; decide

theorem witness_ThermalMonitor_4 :
    let s := wD fun d => { d with thm := { d.thm with readDue := true } }
    let d := s.dev
    s.Inv ∧ d.thm.readDue = true := by dsimp only; decide

theorem witness_ThermalMonitor_5 :
    let s := wD fun d => { d with thm := { d.thm with readDue := true } }
    let d := s.dev
    let t : Nat := 0
    let c : Nat := 0
    s.Inv ∧ d.thm.readDue = true ∧ d.hasC t c = true ∧ isLS c = true := by dsimp only; decide

theorem witness_ThermalMonitor_6 :
    let s := wD fun d => { d.mapC fun t c k => if t = 0 && c != 0 then { k with thm := { k.thm with broken := true } } else k with thm := { d.thm with readDue := true, evals := 1 } }
    let d := s.dev
    let u := afterDev s Instr.thermalEvaluation
    let t : Nat := 0
    let c : Nat := 0
    let x := (d.cl t c).thm
    let nb := d.neighbours t c
    let seen := fun (v : Dev) => (nb.filter fun p => !(v.cl p.1 p.2).thm.broken).map fun p => (u.cl p.1 p.2).thm.read
    let ns := seen d
    s.Inv ∧ d.thm.readDue = true ∧ d.hasC t c = true ∧ ns.length < 2 ∧ x.noxchk = false := by dsimp only; decide

theorem witness_ThermalMonitor_7 :
    let s := wD fun d => { (d.onThm 0 0 fun x => { x with disRun := 15, rawN := 4095 }) with thm := { d.thm with readDue := true, evals := 1 } }
    let d := s.dev
    let u := afterDev s Instr.thermalEvaluation
    let t : Nat := 0
    let c : Nat := 0
    let x := (d.cl t c).thm
    let y := (u.cl t c).thm
    let nb := d.neighbours t c
    let seen := fun (v : Dev) => (nb.filter fun p => !(v.cl p.1 p.2).thm.broken).map fun p => (u.cl p.1 p.2).thm.read
    let ns := seen d
    let dis := decide (2 ≤ ns.length ∧ 16 * fld d.thm.brk 23 16 < (y.read - lowerMedian ns).natAbs)
    let rate := decide (d.thm.evals ≠ 0 ∧ 16 * fld d.thm.brk 15 8 < (y.read - x.read).natAbs)
    let run := if dis = true then x.disRun + 1 else 0
    let rates := List.take 8 (rate :: x.rates)
    s.Inv ∧ d.thm.readDue = true ∧ d.hasC t c = true ∧ x.broken = false ∧ (fld d.thm.brk 7 4 ≤ run ∨ fld d.thm.brk 3 0 ≤ List.countP id rates) := by dsimp only; decide +kernel

theorem witness_ThermalMonitor_8 :
    let s := wD fun d => { d with thm := { d.thm with readDue := true, evals := 1 } }
    let d := s.dev
    let u := afterDev s Instr.thermalEvaluation
    let t : Nat := 0
    let c : Nat := 0
    let x := (d.cl t c).thm
    let y := (u.cl t c).thm
    let nb := d.neighbours t c
    let seen := fun (v : Dev) => (nb.filter fun p => !(v.cl p.1 p.2).thm.broken).map fun p => (u.cl p.1 p.2).thm.read
    let ns := seen d
    let dis := decide (2 ≤ ns.length ∧ 16 * fld d.thm.brk 23 16 < (y.read - lowerMedian ns).natAbs)
    let rate := decide (d.thm.evals ≠ 0 ∧ 16 * fld d.thm.brk 15 8 < (y.read - x.read).natAbs)
    let run := if dis = true then x.disRun + 1 else 0
    let rates := List.take 8 (rate :: x.rates)
    s.Inv ∧ d.thm.readDue = true ∧ d.hasC t c = true ∧ x.broken = false ∧ ¬(fld d.thm.brk 7 4 ≤ run ∨ fld d.thm.brk 3 0 ≤ List.countP id rates) := by dsimp only; decide +kernel

theorem witness_ThermalMonitor_9 :
    let s := wD fun d => { (d.onThm 0 0 fun x => { x with broken := true }) with thm := { d.thm with readDue := true, evals := 1 } }
    let d := s.dev
    let t : Nat := 0
    let c : Nat := 0
    let x := (d.cl t c).thm
    s.Inv ∧ d.thm.readDue = true ∧ d.hasC t c = true ∧ x.broken = true ∧ x.retest = none := by dsimp only; decide

theorem witness_ThermalMonitor_10 :
    let s := wD fun d => { (d.onThm 0 0 fun x => { x with broken := true, retest := some 3, rawN := 4095 }) with thm := { d.thm with readDue := true, evals := 1 } }
    let d := s.dev
    let u := afterDev s Instr.thermalEvaluation
    let t : Nat := 0
    let c : Nat := 0
    let x := (d.cl t c).thm
    let y := (u.cl t c).thm
    let nb := d.neighbours t c
    let seen := fun (v : Dev) => (nb.filter fun p => !(v.cl p.1 p.2).thm.broken).map fun p => (u.cl p.1 p.2).thm.read
    let ns := seen d
    let dis := decide (2 ≤ ns.length ∧ 16 * fld d.thm.brk 23 16 < (y.read - lowerMedian ns).natAbs)
    let rate := decide (d.thm.evals ≠ 0 ∧ 16 * fld d.thm.brk 15 8 < (y.read - x.read).natAbs)
    let k : Nat := 3
    s.Inv ∧ d.thm.readDue = true ∧ d.hasC t c = true ∧ x.broken = true ∧ x.retest = some k ∧ (dis || rate) = true := by dsimp only; decide +kernel

theorem witness_ThermalMonitor_11 :
    let s := wD fun d => { (d.mapC fun t c k => { k with thm := { k.thm with broken := true } }) with thm := { d.thm with readDue := true, evals := 1 } }
    let d := s.dev
    let u := afterDev s Instr.thermalEvaluation
    let t : Nat := 0
    let c : Nat := 0
    let y := (u.cl t c).thm
    let nb := d.neighbours t c
    let seen := fun (v : Dev) => (nb.filter fun p => !(v.cl p.1 p.2).thm.broken).map fun p => (u.cl p.1 p.2).thm.read
    let sound := List.map (fun b => (u.cl t b).thm.read) (List.filter (fun b => !(u.cl t b).thm.broken) (d.tl t).clsOn)
    s.Inv ∧ d.thm.readDue = true ∧ d.hasC t c = true ∧ y.broken = true ∧ seen u = [] ∧ sound = [] := by dsimp only; decide +kernel

theorem witness_ThermalMonitor_12 :
    let s := wD fun d => { (d.mapC fun t c k => { k with thm := { k.thm with rawN := if t == 0 && c == 17 then 4095 else 0, rates := List.replicate 7 true, broken := t == 0 && c != 17 } }) with thm := { d.thm with readDue := true, evals := 1 } }
    let d := s.dev
    let u := afterDev s Instr.thermalEvaluation
    let t : Nat := 0
    let c : Nat := 17
    s.Inv ∧ d.thm.readDue = true ∧ d.hasC t c = true ∧ d.noSensor t = false ∧ u.noSensor t = true := by dsimp only; decide +kernel

theorem witness_ThermalMonitor_13 :
    let s := wD fun d => { (d.mapC fun t c k => { k with thm := { k.thm with rawN := if t == 0 then 4095 else 0 } }) with thm := { d.thm with readDue := true, evals := 1 } }
    let d := s.dev
    let u := afterDev s Instr.thermalEvaluation
    let t : Nat := 0
    let c : Nat := 10
    let x := (d.cl t c).thm
    let y := (u.cl t c).thm
    s.Inv ∧ d.thm.readDue = true ∧ d.hasC t c = true ∧ y.shut = true ∧ x.shut = false ∧ d.live t c = true := by dsimp only; decide +kernel

theorem witness_ThermalMonitor_14 :
    let s := wD fun d => { (d.mapC fun t c k => { k with thm := { k.thm with rawN := if t == 0 then 4095 else 0 } }) with thm := { d.thm with readDue := true, evals := 1 } }
    let d := s.dev
    let u := afterDev s Instr.thermalEvaluation
    let t : Nat := 0
    let c : Nat := 10
    let x := (d.cl t c).thm
    let y := (u.cl t c).thm
    let b : Nat := 0
    s.Inv ∧ d.thm.readDue = true ∧ d.hasC t c = true ∧ y.shut = true ∧ x.shut = false ∧
      (domOf c = Domain.S ∧ b ∈ (d.tl t).lOfS c ∨ domOf c = Domain.K ∧ b < 14) ∧ d.live t b = true := by dsimp only; decide +kernel

theorem witness_AlertScrubMargin_1 :
    let s := w0
    let n : Nat := 1
    s.Inv ∧ 0 < n := by dsimp only; decide

theorem witness_AlertScrubMargin_2 :
    let s := w0
    let d := s.dev
    let t : Nat := 0
    let c : Nat := 0
    s.Inv ∧ d.live t c = true := by dsimp only; decide

theorem witness_AlertScrubMargin_3 :
    let s := wD fun d => { d with flt := { d.flt with scrub := 1 } }
    let late : Bool := true
    let d := s.dev
    s.Inv ∧ late = true ∧ tst d.flt.scrub 0 = true := by dsimp only; decide

theorem witness_AlertScrubMargin_4 :
    let s := wD fun d => { d with flt := { d.flt with scrub := 1 } }
    let bad : List EccPlace := [.traceRecord 0 0, .burst 1 0, .logRecord 7, .coreRam .ridge, .coreRom (.rafter 0), .fuseeSlot 0 5, .fuseeBlock 1 0xF086, .loopState 0 0, .fmax 0 10751]
    let d := s.dev
    let t : Nat := 0
    let n : Nat := 5
    s.Inv ∧ (EccPlace.fuseeSlot t n ∈ bad ∨ EccPlace.fuseeBlock t n ∈ bad) ∧ d.hasT t = true := by dsimp only; decide

theorem witness_AlertScrubMargin_5 :
    let s := wD fun d => { d with flt := { d.flt with scrub := 1 } }
    let bad : List EccPlace := [.coreRom .ridge, .coreRam .ridge, .coreRam (.rafter 0), .coreRom (.rafter 0)]
    let d := s.dev
    let k : CoreId := .ridge
    s.Inv ∧ EccPlace.coreRam k ∈ bad ∧ d.hasCore k = true ∧ d.mayRun k = true := by dsimp only; decide

theorem witness_AlertScrubMargin_6 :
    let s := wD fun d => { d with boot := { d.boot with porst := true, booting := true } }
    let bad : List EccPlace := [.coreRom .ridge, .coreRam .ridge, .coreRam (.rafter 0), .coreRom (.rafter 0)]
    let d := s.dev
    let k : CoreId := .ridge
    s.Inv ∧ EccPlace.coreRam k ∈ bad ∧ d.hasCore k = true ∧ d.mayRun k = true := by dsimp only; decide

theorem witness_AlertScrubMargin_7 :
    let s := wD fun d => (d.onT 0 fun x => { x with rst := true })
    let bad : List EccPlace := [.coreRom .ridge, .coreRam .ridge, .coreRam (.rafter 0), .coreRom (.rafter 0)]
    let d := s.dev
    let k : CoreId := (.rafter 0)
    s.Inv ∧ EccPlace.coreRam k ∈ bad ∧ d.hasCore k = true ∧ ¬d.mayRun k = true := by dsimp only; decide

/-! Frames of the Ridge link whose CRC and fields are good. -/

theorem w_frame0 : frameOk 1 (sealed [0x10000000, 1, 0]) = true := by decide +kernel

theorem w_frame1 : frameOk 1 (sealed [0x11000000, 1, 0]) = true := by decide +kernel

theorem w_frame2 : frameOk 2 (sealed [0x2FC00000, 9, 0, 0, 0, 0, 0]) = true := by decide +kernel

theorem w_frame3 : frameOk 2 (sealed [0x2FC00000, 8, 0, 0, 0, 0, 0]) = true := by decide +kernel

theorem w_frame4 : frameOk 3 (sealed [0x30000001, 8, 7]) = true := by decide +kernel

theorem w_frame5 : frameOk 3 (sealed [0x30000001, 8, 0x04000007]) = true := by decide +kernel

theorem witness_RidgeLink_1 :
    let s := wD fun d => { d with lnk := { d.lnk with ctrl := 0 } }
    let d := s.dev
    let l := d.lnk
    s.Inv ∧ tst l.ctrl 0 = false := by dsimp only; decide

theorem witness_RidgeLink_2 :
    let s := wD fun d => { d with lnk := { d.lnk with ctrl := 0 } }
    let side : Side := .W
    let f : List Word := []
    let i : Instr := Instr.epoch side f
    let ty : Nat := 1
    s.Inv ∧ (i, ty) ∈ [(Instr.epoch side f, 1), (Instr.report side f, 2), (Instr.alloc side f, 3)] ∧ frameOk ty f = false ∧ crcOk f = false := by dsimp only; decide

theorem witness_RidgeLink_3 :
    let s := w0
    let n : Nat := 4
    let d := s.dev
    let l := d.lnk
    s.Inv ∧ tst l.ctrl 0 = true ∧ n = 4 := by dsimp only; decide

theorem witness_RidgeLink_4 :
    let s := w0
    let n : Nat := 1
    let d := s.dev
    let l := d.lnk
    s.Inv ∧ tst l.ctrl 0 = true ∧ (n = 1 ∨ n = 2) := by dsimp only; decide

theorem witness_RidgeLink_5 :
    let s := w0
    let n : Nat := 3
    let d := s.dev
    let l := d.lnk
    s.Inv ∧ tst l.ctrl 0 = true ∧ n ≠ 1 ∧ n ≠ 2 ∧ n ≠ 4 := by dsimp only; decide

theorem witness_RidgeLink_7 :
    let s := wD fun d => { d with lnk := { d.lnk with acting := true } }
    let f : List Word := (sealed [0x10000000, 1, 0])
    let d := s.dev
    let l := d.lnk
    let pos := fld (f.getD 0 0) 27 22
    s.Inv ∧ frameOk 1 f = true ∧ tst l.ctrl 0 = true ∧ l.acting = true ∧ d.boot.straps.pos ≤ pos := ⟨by decide, w_frame0, by decide⟩

theorem witness_RidgeLink_8 :
    let s := wD fun d => { d with lnk := { d.lnk with acting := true }, boot := { d.boot with straps := { d.boot.straps with pos := 5 } } }
    let f : List Word := (sealed [0x11000000, 1, 0])
    let d := s.dev
    let l := d.lnk
    let enum := BitVec.toNat (f.getD 1 0)
    let pos := fld (f.getD 0 0) 27 22
    s.Inv ∧ frameOk 1 f = true ∧ tst l.ctrl 0 = true ∧ (l.acting = true → pos < d.boot.straps.pos) ∧ ¬enum ∈ l.seenEpoch ∧ d.ridge.on = true ∧ l.acting = true := ⟨by decide, w_frame1, by decide⟩

theorem witness_RidgeLink_9 :
    let s := wD fun d => { d with lnk := { d.lnk with wwidth := 4, ewidth := 1, seenEpoch := [1] } }
    let f : List Word := (sealed [0x10000000, 1, 0])
    let d := s.dev
    let l := d.lnk
    let enum := BitVec.toNat (f.getD 1 0)
    let pos := fld (f.getD 0 0) 27 22
    s.Inv ∧ frameOk 1 f = true ∧ tst l.ctrl 0 = true ∧ (l.acting = true → pos < d.boot.straps.pos) ∧ enum ∈ l.seenEpoch ∧ d.ridge.on = true := ⟨by decide, w_frame0, by decide⟩

theorem witness_RidgeLink_10 :
    let s := wD fun d => { d with lnk := { d.lnk with acting := true, collecting := true, enum := 9 } }
    let f : List Word := (sealed [0x2FC00000, 9, 0, 0, 0, 0, 0])
    let d := s.dev
    let l := d.lnk
    s.Inv ∧ frameOk 2 f = true ∧ tst l.ctrl 0 = true ∧ l.acting = true ∧ l.collecting = true ∧ f.getD 1 0 = BitVec.ofNat 32 l.enum := ⟨by decide, w_frame2, by decide⟩

theorem witness_RidgeLink_11 :
    let s := wD fun d => { d with lnk := { d.lnk with acting := true, collecting := true, enum := 9 } }
    let f : List Word := (sealed [0x2FC00000, 8, 0, 0, 0, 0, 0])
    let d := s.dev
    let l := d.lnk
    s.Inv ∧ frameOk 2 f = true ∧ tst l.ctrl 0 = true ∧ l.acting = true ∧ (l.collecting = false ∨ f.getD 1 0 ≠ BitVec.ofNat 32 l.enum) := ⟨by decide, w_frame3, by decide⟩

theorem witness_RidgeLink_12 :
    let s := w0
    let f : List Word := (sealed [0x2FC00000, 8, 0, 0, 0, 0, 0])
    let d := s.dev
    let l := d.lnk
    s.Inv ∧ frameOk 2 f = true ∧ tst l.ctrl 0 = true ∧ l.acting = false ∧ l.back = none := ⟨by decide, w_frame3, by decide⟩

theorem witness_RidgeLink_13 :
    let s := wD fun d => { d with lnk := { d.lnk with back := some .W } }
    let f : List Word := (sealed [0x2FC00000, 8, 0, 0, 0, 0, 0])
    let d := s.dev
    let l := d.lnk
    s.Inv ∧ frameOk 2 f = true ∧ tst l.ctrl 0 = true ∧ l.acting = false ∧ l.back = some Side.W := ⟨by decide, w_frame3, by decide⟩

theorem witness_RidgeLink_14 :
    let s := wD fun d => { d with lnk := { d.lnk with back := some .E } }
    let f : List Word := (sealed [0x2FC00000, 8, 0, 0, 0, 0, 0])
    let d := s.dev
    let l := d.lnk
    s.Inv ∧ frameOk 2 f = true ∧ tst l.ctrl 0 = true ∧ l.acting = false ∧ l.back = some Side.E := ⟨by decide, w_frame3, by decide⟩

theorem witness_RidgeLink_15 :
    let s := wD fun d => { d with lnk := { d.lnk with acting := true } }
    let f : List Word := (sealed [0x30000001, 8, 7])
    let d := s.dev
    let l := d.lnk
    s.Inv ∧ frameOk 3 f = true ∧ tst l.ctrl 0 = true ∧ l.acting = true := ⟨by decide, w_frame4, by decide⟩

theorem witness_RidgeLink_16 :
    let s := wD fun d => { d with lnk := { d.lnk with seenAlloc := [8] } }
    let f : List Word := (sealed [0x30000001, 8, 7])
    let d := s.dev
    let l := d.lnk
    let enum := BitVec.toNat (f.getD 1 0)
    s.Inv ∧ frameOk 3 f = true ∧ tst l.ctrl 0 = true ∧ l.acting = false ∧ d.ridge.on = true ∧ enum ∈ l.seenAlloc := ⟨by decide, w_frame4, by decide⟩

theorem witness_RidgeLink_17 :
    let s := w0
    let f : List Word := (sealed [0x30000001, 8, 7])
    let d := s.dev
    let l := d.lnk
    let enum := BitVec.toNat (f.getD 1 0)
    s.Inv ∧ frameOk 3 f = true ∧ tst l.ctrl 0 = true ∧ l.acting = false ∧ ¬enum ∈ l.seenAlloc := ⟨by decide, w_frame4, by decide⟩

theorem witness_RidgeLink_18 :
    let s := w0
    let f : List Word := (sealed [0x30000001, 8, 7])
    let d := s.dev
    let l := d.lnk
    let enum := BitVec.toNat (f.getD 1 0)
    let a : Nat := 7
    s.Inv ∧ frameOk 3 f = true ∧ tst l.ctrl 0 = true ∧ l.acting = false ∧ ¬enum ∈ l.seenAlloc ∧ allocOf d.boot.straps.pos f = some a := ⟨by decide, w_frame4, by decide⟩

theorem witness_RidgeLink_19 :
    let s := w0
    let f : List Word := (sealed [0x30000001, 8, 0x04000007])
    let d := s.dev
    let l := d.lnk
    let enum := BitVec.toNat (f.getD 1 0)
    s.Inv ∧ frameOk 3 f = true ∧ tst l.ctrl 0 = true ∧ l.acting = false ∧ ¬enum ∈ l.seenAlloc ∧ allocOf d.boot.straps.pos f = none := ⟨by decide, w_frame5, by decide⟩

theorem witness_RidgeLink_20 :
    let s := w0
    let d := s.dev
    let l := d.lnk
    s.Inv ∧ (l.acting = false ∨ l.collecting = false) ∧ (l.acting = true ∨ l.heard = false ∨ l.ticks < 300 ∧ l.missed < 3) := by dsimp only; decide

theorem witness_RidgeLink_21 :
    let s := wD fun d => { d with lnk := { d.lnk with acting := true, collecting := true, members := [{ count := 1, report := List.replicate 8 0 }, { count := 2, member := true }, { count := 0, resv := true }, { count := 1, member := true, report := List.replicate 8 0 }] } }
    let d := s.dev
    let l := d.lnk
    s.Inv ∧ l.acting = true ∧ l.collecting = true := by dsimp only; decide

theorem witness_RidgeLink_23 :
    let s := wD fun d => { d with lnk := { d.lnk with heard := true, ticks := 300 } }
    let d := s.dev
    let l := d.lnk
    s.Inv ∧ l.acting = false ∧ l.heard = true ∧ (300 ≤ l.ticks ∨ 3 ≤ l.missed) := by dsimp only; decide

theorem witness_RidgeLink_24 :
    let s := wD fun d => { d with lnk := { d.lnk with acting := true, seenEpoch := [1] }, boot := { d.boot with straps := { d.boot.straps with pos := 5 } } }
    let f : List Word := (sealed [0x11000000, 1, 0])
    let d := s.dev
    let l := d.lnk
    let enum := BitVec.toNat (f.getD 1 0)
    let pos := fld (f.getD 0 0) 27 22
    s.Inv ∧ frameOk 1 f = true ∧ tst l.ctrl 0 = true ∧ (l.acting = true → pos < d.boot.straps.pos) ∧ enum ∈ l.seenEpoch ∧ l.acting = true := ⟨by decide, w_frame1, by decide⟩

theorem witness_HostWrites_2 :
    let s := w0
    let a : Nat := 0x2020
    let be : Nat := 15
    let v : Word := 0xffffffff
    let d := s.dev
    let h := d.hp
    s.Inv ∧ a % 4 = 0 ∧ a < 2 ^ 20 ∧ a < 65536 ∧ h.closed = false ∧ devReg a = true ∧ be % 16 = 15 ∧ devStatus Writer.host d a v = 0 := by dsimp only; decide

theorem witness_HostWrites_3 :
    let s := w0
    let a : Nat := 0x2030
    let be : Nat := 15
    let v : Word := 0x80000000
    let d := s.dev
    let h := d.hp
    s.Inv ∧ a % 4 = 0 ∧ a < 2 ^ 20 ∧ a < 65536 ∧ h.closed = false ∧ devReg a = true ∧ be % 16 = 15 ∧ devStatus Writer.host d a v ≠ 0 ∧ a ≠ 40960 := by dsimp only; decide

theorem witness_HostWrites_6 :
    let s := w0
    let a : Nat := 0x4104
    let d := s.dev
    let h := d.hp
    let n : Nat := 1
    s.Inv ∧ a % 4 = 0 ∧ a < 2 ^ 20 ∧ h.closed = false ∧ 1 ≤ n ∧ n ≤ 11 ∧ 0 = 0 := by dsimp only; decide

theorem witness_HostWrites_7 :
    let s := w0
    let a : Nat := 0x4110
    let v : Word := 0x55555555
    let d := s.dev
    let h := d.hp
    let n : Nat := 1
    let m : Nat := 0
    s.Inv ∧ a % 4 = 0 ∧ a < 2 ^ 20 ∧ h.closed = false ∧ 1 ≤ n ∧ n ≤ 11 ∧ m < 4 ∧
      ((if ((List.range 8).any fun j => tst (listed n) (8 * m + j) && decide (5 < fld v (4 * j + 2) (4 * j))) = true then 1 else 0) = 0) := by dsimp only; decide

theorem witness_HostWrites_8 :
    let s := w0
    let a : Nat := 0x4110
    let v : Word := 0x66666666
    let d := s.dev
    let h := d.hp
    let n : Nat := 1
    let m : Nat := 0
    s.Inv ∧ a % 4 = 0 ∧ a < 2 ^ 20 ∧ h.closed = false ∧ 1 ≤ n ∧ n ≤ 11 ∧ m < 4 ∧
      ((if ((List.range 8).any fun j => tst (listed n) (8 * m + j) && decide (5 < fld v (4 * j + 2) (4 * j))) = true then 1 else 0) ≠ 0) := by dsimp only; decide

theorem witness_HostWrites_9 :
    let s := w0
    let a : Nat := 0x8148
    let d := s.dev
    let h := d.hp
    let n : Nat := 1
    s.Inv ∧ a % 4 = 0 ∧ a < 2 ^ 20 ∧ h.closed = false ∧ 1 ≤ n ∧ n < 8 ∧ (if (d.ch n).en = true then 2 else 0) = 0 ∧ 0 = 0 := by dsimp only; decide

theorem witness_HostWrites_10 :
    let s := wD fun d => { d with dma := { d.dma with ch := d.dma.ch.modify 7 fun c => { c with en := true } } }
    let a : Nat := 0x8148
    let d := s.dev
    let h := d.hp
    let n : Nat := 7
    s.Inv ∧ a % 4 = 0 ∧ a < 2 ^ 20 ∧ h.closed = false ∧ 1 ≤ n ∧ n < 8 ∧ (if (d.ch n).en = true then 2 else 0) ≠ 0 := by dsimp only; decide

theorem witness_HostWrites_11 :
    let s := wD fun d => { d with hp := { d.hp with closed := true } }
    let a : Nat := 0x10004
    let d := s.dev
    let h := d.hp
    s.Inv ∧ a % 4 = 0 ∧ a < 2 ^ 20 ∧ 65536 ≤ a ∧ a < 458752 ∧ h.closed = true := by dsimp only; decide

theorem witness_HostWrites_12 :
    let s := w0
    let a : Nat := 0x10018
    let be : Nat := 15
    let v : Word := 0x0
    let d := s.dev
    let h := d.hp
    let t := (a - 65536) / 4096
    let off := a % 4096
    let e := endLatch Reader.host a d
    let k := tileChecks (shadowView e t) 7 t off v
    let st := { k with absent := k.absent || boolAt d.pur.lost t }.first
    s.Inv ∧ a % 4 = 0 ∧ a < 2 ^ 20 ∧ 65536 ≤ a ∧ a < 458752 ∧ h.closed = false ∧ windowReg off = true ∧ be % 16 = 15 ∧ (d.mir t).stale = false ∧
      st ≠ 0 := by dsimp only; decide

theorem witness_HostWrites_13 :
    let s := w0
    let a : Nat := 0x10018
    let be : Nat := 7
    let d := s.dev
    let h := d.hp
    let off := a % 4096
    s.Inv ∧ a % 4 = 0 ∧ a < 2 ^ 20 ∧ 65536 ≤ a ∧ a < 458752 ∧ h.closed = false ∧ windowReg off = true ∧ be % 16 ≠ 15 := by dsimp only; decide

theorem witness_HostWrites_14 :
    let s := wD fun d => { d with mirrors := [{ cur := { tile := d.tl 0 } }, {}] }
    let a : Nat := 0x10018
    let be : Nat := 15
    let v : Word := 0x7
    let d := s.dev
    let h := d.hp
    let t := (a - 65536) / 4096
    let off := a % 4096
    let e := endLatch Reader.host a d
    let k := tileChecks (shadowView e t) 7 t off v
    let st := { k with absent := k.absent || boolAt d.pur.lost t }.first
    s.Inv ∧ a % 4 = 0 ∧ a < 2 ^ 20 ∧ 65536 ≤ a ∧ a < 458752 ∧ h.closed = false ∧ windowReg off = true ∧ be % 16 = 15 ∧ (d.mir t).stale = false ∧
      st = 0 := by dsimp only; decide

theorem witness_HostWrites_15 :
    let s := wD fun d => { d with mirrors := [{ cur := { tile := d.tl 0 }, stale := true }, {}] }
    let a : Nat := 0x10018
    let be : Nat := 15
    let d := s.dev
    let h := d.hp
    let t := (a - 65536) / 4096
    let off := a % 4096
    s.Inv ∧ a % 4 = 0 ∧ a < 2 ^ 20 ∧ 65536 ≤ a ∧ a < 458752 ∧ h.closed = false ∧ windowReg off = true ∧ be % 16 = 15 ∧ (d.mir t).stale = true := by dsimp only; decide

theorem witness_HostWrites_16 :
    let s := w0
    let a : Nat := 0x80000
    let d := s.dev
    s.Inv ∧ a % 4 = 0 ∧ a < 2 ^ 20 ∧ 524288 ≤ a ∧ a < 655360 ∧ d.hp.closed = false ∧ d.ridge.isHalted = false := by dsimp only; decide

theorem witness_HostWrites_17 :
    let s := wK fun x => { x with halted := true }
    let a : Nat := 0x9fffc
    let d := s.dev
    s.Inv ∧ a % 4 = 0 ∧ a < 2 ^ 20 ∧ 524288 ≤ a ∧ a < 655360 ∧ d.hp.closed = false ∧ d.ridge.isHalted = true := by dsimp only; decide

theorem witness_HostWrites_18 :
    let s := wK fun x => { x with halted := true }
    let a : Nat := 0x9fffc
    let d := s.dev
    let i : Nat := 3
    s.Inv ∧ a % 4 = 0 ∧ a < 2 ^ 20 ∧ 524288 ≤ a ∧ a < 655360 ∧ d.hp.closed = false ∧ d.ridge.isHalted = true ∧ i < 4 := by dsimp only; decide

theorem witness_HostWrites_19 :
    let s := wK fun x => { x with halted := true }
    let a : Nat := 0x9fffc
    let d := s.dev
    let q : Nat := a - 524288 + 4
    s.Inv ∧ a % 4 = 0 ∧ a < 2 ^ 20 ∧ 524288 ≤ a ∧ a < 655360 ∧ d.hp.closed = false ∧ d.ridge.isHalted = true ∧
      (q < a - 524288 ∨ a - 524288 + 4 ≤ q) := by dsimp only; decide

theorem witness_HostWrites_20 :
    let s := w0
    let a : Nat := 0x7fffc
    let d := s.dev
    s.Inv ∧ a % 4 = 0 ∧ a < 2 ^ 20 ∧ 458752 ≤ a ∧ (a < 524288 ∨ 655360 ≤ a) ∧ d.hp.closed = false := by dsimp only; decide

theorem witness_HostWrites_21 :
    let s := w0
    let a : Nat := 0xfffc
    let d := s.dev
    s.Inv ∧ a % 4 = 0 ∧ a < 2 ^ 20 ∧ a < 65536 ∧ d.hp.closed = false ∧ devReg a = false := by dsimp only; decide

theorem witness_HostWrites_22 :
    let s := w0
    let a : Nat := 0x0
    let be : Nat := 14
    let d := s.dev
    s.Inv ∧ a % 4 = 0 ∧ a < 2 ^ 20 ∧ a < 65536 ∧ d.hp.closed = false ∧ devReg a = true ∧ be % 16 ≠ 15 := by dsimp only; decide

theorem witness_HostWrites_23 :
    let s := wD fun d => { d with hp := { d.hp with closed := true } }
    let a : Nat := 0xfffc
    let d := s.dev
    s.Inv ∧ a % 4 = 0 ∧ a < 2 ^ 20 ∧ (a < 65536 ∨ 458752 ≤ a) ∧ d.hp.closed = true := by dsimp only; decide

theorem witness_HostWrites_24 :
    let s := wK fun x => { x with halted := true }
    let a : Nat := 0x8fffc
    let d := s.dev
    s.Inv ∧ a % 4 = 0 ∧ a < 2 ^ 20 ∧ 524288 ≤ a ∧ a < 655360 ∧ d.hp.closed = false ∧ d.ridge.isHalted = true := by dsimp only; decide

theorem witness_HostWrites_25 :
    let s := wK fun x => { x with halted := true }
    let a : Nat := 0x8fffc
    let d := s.dev
    let i : Nat := 3
    s.Inv ∧ a % 4 = 0 ∧ a < 2 ^ 20 ∧ 524288 ≤ a ∧ a < 655360 ∧ d.hp.closed = false ∧ d.ridge.isHalted = true ∧ i < 4 := by dsimp only; decide

theorem witness_HostWrites_26 :
    let s := wK fun x => { x with halted := true }
    let a : Nat := 0x8fffc
    let d := s.dev
    let q : Nat := a - 524288 + 4
    s.Inv ∧ a % 4 = 0 ∧ a < 2 ^ 20 ∧ 524288 ≤ a ∧ a < 655360 ∧ d.hp.closed = false ∧ d.ridge.isHalted = true ∧
      (q < a - 524288 ∨ a - 524288 + 4 ≤ q) := by dsimp only; decide

theorem witness_HostWrites_28 :
    let s := w0
    let a : Nat := 0x10FFC
    let d := s.dev
    let h := d.hp
    let off := a % 4096
    s.Inv ∧ a % 4 = 0 ∧ a < 2 ^ 20 ∧ 65536 ≤ a ∧ a < 458752 ∧ h.closed = false ∧ windowReg off = false := by dsimp only; decide

theorem witness_HostCommands_1 :
    let s := wD fun d => { d with hp := { d.hp with ready := true, exec := 0x80000000, handle := 0, arg0 := 0, arg1 := 0 } }
    let h := s.dev.hp
    let w := h.exec
    let op := fld w 7 0
    let clean := fld w 30 24 = 0 ∧ fld w 23 16 = 0
    let x := h.arg0
    s.Inv ∧ s.dev.hp.ready = true ∧ s.dev.hp.unit = none ∧ op = 0 ∧ clean ∧ h.handle = 0 ∧ x = 0 ∧ h.arg1 = 0 := by dsimp only; decide

theorem witness_HostCommands_2 :
    let s := wD fun d => { d with hp := { d.hp with ready := true, exec := 0x80000000, handle := 0, arg0 := 0, arg1 := 0 } }
    let h := s.dev.hp
    let w := h.exec
    let op := fld w 7 0
    let i : Instr := Instr.cmdSetp
    let code : Nat := 1
    s.Inv ∧ s.dev.hp.ready = true ∧ s.dev.hp.unit = none ∧
      (i, code) ∈ [(Instr.nop, 0), (Instr.cmdSetp, 1), (Instr.cmdPstate, 2), (Instr.cmdCapset, 3), (Instr.cmdFmaxw, 4), (Instr.cmdTblsel, 5), (Instr.cmdQry, 6), (Instr.cmdTrig, 7), (Instr.cmdGrant, 8), (Instr.write, 16), (Instr.read, 17)] ∧
      op ≠ code := by dsimp only; decide

theorem witness_HostCommands_3 :
    let s := wD fun d => { d with hp := { d.hp with ready := true, exec := 0x80000001, handle := 0, arg0 := 0x3FF, arg1 := 0x3F } }
    let h := s.dev.hp
    let w := h.exec
    let op := fld w 7 0
    let clean := fld w 30 24 = 0 ∧ fld w 23 16 = 0
    let x := h.arg0
    let okC := clean ∧ handleOk Writer.host false h.handle = true ∧ hT h.handle = false
    s.Inv ∧ s.dev.hp.ready = true ∧ s.dev.hp.unit = none ∧ op = 1 ∧ okC ∧ fld x 31 10 = 0 ∧ fld h.arg1 31 6 = 0 := by dsimp only; decide

theorem witness_HostCommands_4 :
    let s := wD fun d => { d with hp := { d.hp with ready := true, exec := 0x80000001, handle := 0x00000100, arg0 := 0, arg1 := 0 } }
    let h := s.dev.hp
    let w := h.exec
    let op := fld w 7 0
    let tile := hTile h.handle
    let cl := hCl h.handle
    let marked := fld h.handle 31 24 ≠ 0 ∨ fld h.handle 15 5 ≠ 0 ∨ 18 ≤ cl ∨ hT h.handle = true ∧ cl ≠ 0
    let bad := marked ∨ 96 ≤ tile
    let i : Instr := Instr.cmdSetp
    let code : Nat := 1
    s.Inv ∧ s.dev.hp.ready = true ∧ s.dev.hp.unit = none ∧
      (i, code) ∈ [(Instr.cmdSetp, 1), (Instr.cmdPstate, 2), (Instr.cmdCapset, 3), (Instr.cmdTblsel, 5), (Instr.cmdGrant, 8)] ∧ op = code ∧ bad := by dsimp only; decide

theorem witness_HostCommands_5 :
    let s := wD fun d => { d with hp := { d.hp with ready := true, exec := 0x80000002, handle := 0, arg0 := 0xF, arg1 := 0 } }
    let h := s.dev.hp
    let w := h.exec
    let op := fld w 7 0
    let clean := fld w 30 24 = 0 ∧ fld w 23 16 = 0
    let x := h.arg0
    let okC := clean ∧ handleOk Writer.host false h.handle = true ∧ hT h.handle = false
    s.Inv ∧ s.dev.hp.ready = true ∧ s.dev.hp.unit = none ∧ op = 2 ∧ okC ∧ fld x 31 4 = 0 ∧ h.arg1 = 0 := by dsimp only; decide

theorem witness_HostCommands_6 :
    let s := wD fun d => { d with hp := { d.hp with ready := true, exec := 0x80000003, handle := 0, arg0 := 0xFFFF, arg1 := 0 } }
    let h := s.dev.hp
    let w := h.exec
    let op := fld w 7 0
    let clean := fld w 30 24 = 0 ∧ fld w 23 16 = 0
    let x := h.arg0
    let okC := clean ∧ handleOk Writer.host false h.handle = true ∧ hT h.handle = false
    s.Inv ∧ s.dev.hp.ready = true ∧ s.dev.hp.unit = none ∧ op = 3 ∧ okC ∧ fld x 31 16 = 0 ∧ h.arg1 = 0 := by dsimp only; decide

theorem witness_HostCommands_7 :
    let s := wD fun d => { d with hp := { d.hp with ready := true, exec := 0x80000004, handle := 0x00001503, arg0 := 0xFFFF, arg1 := 0 } }
    let h := s.dev.hp
    let w := h.exec
    let op := fld w 7 0
    let clean := fld w 30 24 = 0 ∧ fld w 23 16 = 0
    let tile := hTile h.handle
    s.Inv ∧ s.dev.hp.ready = true ∧ s.dev.hp.unit = none ∧ op = 4 ∧ clean ∧ fld h.handle 31 23 = 0 ∧ fld h.handle 15 14 = 0 ∧ tile < 96 ∧
      h.arg1 = 0 := by dsimp only; decide

theorem witness_HostCommands_8 :
    let s := wD fun d => { d with hp := { d.hp with ready := true, exec := 0x80000005, handle := 0, arg0 := 0xFF, arg1 := 0 } }
    let h := s.dev.hp
    let w := h.exec
    let op := fld w 7 0
    let clean := fld w 30 24 = 0 ∧ fld w 23 16 = 0
    let x := h.arg0
    let okC := clean ∧ handleOk Writer.host false h.handle = true ∧ hT h.handle = false
    s.Inv ∧ s.dev.hp.ready = true ∧ s.dev.hp.unit = none ∧ op = 5 ∧ okC ∧ fld x 31 8 = 0 ∧ h.arg1 = 0 := by dsimp only; decide

theorem witness_HostCommands_9 :
    let s := wD fun d => { d with hp := { d.hp with ready := true, exec := 0x80000006, handle := 0, arg0 := 0, arg1 := 0 } }
    let h := s.dev.hp
    let w := h.exec
    let op := fld w 7 0
    let clean := fld w 30 24 = 0 ∧ fld w 23 16 = 0
    s.Inv ∧ s.dev.hp.ready = true ∧ s.dev.hp.unit = none ∧ op = 6 ∧ clean ∧ h.arg1 = 0 := by dsimp only; decide

theorem witness_HostCommands_10 :
    let s := wD fun d => { d with hp := { d.hp with ready := true, exec := 0x80000007, handle := 0x0000FF00, arg0 := 0, arg1 := 0 } }
    let h := s.dev.hp
    let w := h.exec
    let op := fld w 7 0
    let tile := hTile h.handle
    let cl := hCl h.handle
    let marked := fld h.handle 31 24 ≠ 0 ∨ fld h.handle 15 5 ≠ 0 ∨ 18 ≤ cl ∨ hT h.handle = true ∧ cl ≠ 0
    let all := tile = 127 ∧ hT h.handle = true
    s.Inv ∧ s.dev.hp.ready = true ∧ s.dev.hp.unit = none ∧ (marked ∨ 96 ≤ tile ∧ ¬all) ∧ op = 7 := by dsimp only; decide

theorem witness_HostCommands_11 :
    let s := wD fun d => { d with hp := { d.hp with ready := true, exec := 0x80000007, handle := 0x00FF0000, arg0 := 0, arg1 := 0 } }
    let h := s.dev.hp
    let w := h.exec
    let op := fld w 7 0
    let clean := fld w 30 24 = 0 ∧ fld w 23 16 = 0
    let x := h.arg0
    s.Inv ∧ s.dev.hp.ready = true ∧ s.dev.hp.unit = none ∧ op = 7 ∧ clean ∧ h.handle = 16711680 ∧ x = 0 ∧ h.arg1 = 0 := by dsimp only; decide

theorem witness_HostCommands_12 :
    let s := wD fun d => { d with hp := { d.hp with ready := true, exec := 0x80000007, handle := 0x00FF0000, arg0 := 0, arg1 := 0 } }
    let h := s.dev.hp
    let d := { s.dev with hp := { h with ready := false } }
    let w := h.exec
    let op := fld w 7 0
    let clean := fld w 30 24 = 0 ∧ fld w 23 16 = 0
    let x := h.arg0
    let t : Nat := 0
    s.Inv ∧ s.dev.hp.ready = true ∧ s.dev.hp.unit = none ∧ op = 7 ∧ clean ∧ h.handle = 16711680 ∧ x = 0 ∧ h.arg1 = 0 ∧ d.hasT t = true ∧
      boolAt d.pur.lost t = false ∧ ((shadowView d t).d.tl t).rst = false := by dsimp only; decide

theorem witness_HostCommands_13 :
    let s := wD fun d => { d with hp := { d.hp with ready := true, exec := 0x80000008, handle := 0, arg0 := 0x3FF, arg1 := 0 } }
    let h := s.dev.hp
    let w := h.exec
    let op := fld w 7 0
    let clean := fld w 30 24 = 0 ∧ fld w 23 16 = 0
    let x := h.arg0
    let okC := clean ∧ handleOk Writer.host false h.handle = true ∧ hT h.handle = false
    s.Inv ∧ s.dev.hp.ready = true ∧ s.dev.hp.unit = none ∧ op = 8 ∧ okC ∧ fld x 31 10 = 0 ∧ h.arg1 = 0 := by dsimp only; decide

theorem witness_HostCommands_14 :
    let s := wD fun d => { d with hp := { d.hp with ready := true, exec := 0x80000010, handle := 0, arg0 := 0x200C, arg1 := 5 } }
    let h := s.dev.hp
    let w := h.exec
    let op := fld w 7 0
    let clean := fld w 30 24 = 0 ∧ fld w 23 16 = 0
    let x := h.arg0
    s.Inv ∧ s.dev.hp.ready = true ∧ s.dev.hp.unit = none ∧ op = 16 ∧ clean ∧ h.handle = 0 ∧ BitVec.toNat x < 65536 ∧
      (BitVec.toNat x < 4096 ∨ 8192 ≤ BitVec.toNat x) := by dsimp only; decide

theorem witness_HostCommands_15 :
    let s := wD fun d => { d with hp := { d.hp with ready := true, exec := 0x80000011, handle := 0, arg0 := 0xFFFFC, arg1 := 0 } }
    let h := s.dev.hp
    let w := h.exec
    let op := fld w 7 0
    let clean := fld w 30 24 = 0 ∧ fld w 23 16 = 0
    let x := h.arg0
    s.Inv ∧ s.dev.hp.ready = true ∧ s.dev.hp.unit = none ∧ op = 17 ∧ clean ∧ h.handle = 0 ∧ h.arg1 = 0 ∧ BitVec.toNat x < 2 ^ 20 ∧
      BitVec.toNat x % 4 = 0 := by dsimp only; decide

theorem witness_HostCommands_16 :
    let s := wD fun d => { d with hp := { d.hp with ready := true, exec := 0x80000009, handle := 0, arg0 := 0, arg1 := 0 } }
    let h := s.dev.hp
    let w := h.exec
    let op := fld w 7 0
    s.Inv ∧ s.dev.hp.ready = true ∧ s.dev.hp.unit = none ∧ opcodeListed op = false := by dsimp only; decide

theorem witness_HostCommands_17 :
    let s := wD fun d => { d with hp := { d.hp with ready := true, exec := 0x81000001, handle := 0, arg0 := 0, arg1 := 0 } }
    let h := s.dev.hp
    let w := h.exec
    let op := fld w 7 0
    let clean := fld w 30 24 = 0 ∧ fld w 23 16 = 0
    let x := h.arg0
    let i : Instr := Instr.cmdSetp
    let code : Nat := 1
    s.Inv ∧ s.dev.hp.ready = true ∧ s.dev.hp.unit = none ∧
      (i, code) ∈ [(Instr.nop, 0), (Instr.cmdSetp, 1), (Instr.cmdPstate, 2), (Instr.cmdCapset, 3), (Instr.cmdFmaxw, 4), (Instr.cmdTblsel, 5), (Instr.cmdQry, 6), (Instr.cmdTrig, 7), (Instr.cmdGrant, 8), (Instr.write, 16), (Instr.read, 17)] ∧
      op = code ∧ (¬clean ∨ code ∈ [0, 16, 17] ∧ h.handle ≠ 0 ∨ code ∈ [0, 7] ∧ x ≠ 0 ∨ code ∈ [0, 2, 3, 4, 5, 6, 7, 8, 17] ∧ h.arg1 ≠ 0) := by dsimp only; decide

theorem witness_HostCommands_18 :
    let s := wD fun d => { d with hp := { d.hp with ready := true, exec := 0x80000003, handle := 0x00800000, arg0 := 0xFFFF, arg1 := 0 } }
    let h := s.dev.hp
    let w := h.exec
    let op := fld w 7 0
    let clean := fld w 30 24 = 0 ∧ fld w 23 16 = 0
    let x := h.arg0
    let okT := clean ∧ handleOk Writer.host false h.handle = true ∧ hT h.handle = true
    s.Inv ∧ s.dev.hp.ready = true ∧ s.dev.hp.unit = none ∧ op = 3 ∧ okT ∧ fld x 31 16 = 0 ∧ h.arg1 = 0 := by dsimp only; decide

theorem witness_HostCommands_19 :
    let s := wD fun d => { d with hp := { d.hp with ready := true, exec := 0x80000007, handle := 0x00810000, arg0 := 0, arg1 := 0 } }
    let h := s.dev.hp
    let w := h.exec
    let op := fld w 7 0
    let clean := fld w 30 24 = 0 ∧ fld w 23 16 = 0
    let x := h.arg0
    let okT := clean ∧ handleOk Writer.host false h.handle = true ∧ hT h.handle = true
    s.Inv ∧ s.dev.hp.ready = true ∧ s.dev.hp.unit = none ∧ op = 7 ∧ okT ∧ x = 0 ∧ h.arg1 = 0 := by dsimp only; decide

theorem witness_HostCommands_20 :
    let s := wD fun d => { d with hp := { d.hp with  ready := true, exec := 0x80000010, handle := 0x0, arg0 := 0x70000, arg1 := 0x5 } }
    let h := s.dev.hp
    let w := h.exec
    let op := fld w 7 0
    let clean := fld w 30 24 = 0 ∧ fld w 23 16 = 0
    let x := h.arg0
    s.Inv ∧ s.dev.hp.ready = true ∧ s.dev.hp.unit = none ∧ op = 16 ∧ clean ∧ h.handle = 0 ∧
      (458752 ≤ BitVec.toNat x ∨ 4096 ≤ BitVec.toNat x ∧ BitVec.toNat x < 8192) := by dsimp only; decide

theorem witness_HostCommands_21 :
    let s := wD fun d => { d with hp := { d.hp with  ready := true, exec := 0x80000010, handle := 0x0, arg0 := 0x10004, arg1 := 0x5 } }
    let h := s.dev.hp
    let w := h.exec
    let op := fld w 7 0
    let clean := fld w 30 24 = 0 ∧ fld w 23 16 = 0
    let x := h.arg0
    s.Inv ∧ s.dev.hp.ready = true ∧ s.dev.hp.unit = none ∧ op = 16 ∧ clean ∧ h.handle = 0 ∧ 65536 ≤ BitVec.toNat x ∧ BitVec.toNat x < 458752 := by dsimp only; decide

theorem witness_HostCommands_22 :
    let s := wD fun d => { d with hp := { d.hp with  ready := true, exec := 0x80000004, handle := 0x800000, arg0 := 0x0, arg1 := 0x0 } }
    let h := s.dev.hp
    let w := h.exec
    let op := fld w 7 0
    let tile := hTile h.handle
    s.Inv ∧ s.dev.hp.ready = true ∧ s.dev.hp.unit = none ∧ op = 4 ∧ (fld h.handle 31 23 ≠ 0 ∨ fld h.handle 15 14 ≠ 0 ∨ 96 ≤ tile) := by dsimp only; decide

theorem witness_HostCommands_23 :
    let s := wD fun d => { d with hp := { d.hp with  ready := true, exec := 0x80000006, handle := 0x20, arg0 := 0x0, arg1 := 0x0 } }
    let h := s.dev.hp
    let w := h.exec
    let op := fld w 7 0
    let tile := hTile h.handle
    let cl := hCl h.handle
    let marked := fld h.handle 31 24 ≠ 0 ∨ fld h.handle 15 5 ≠ 0 ∨ 18 ≤ cl ∨ hT h.handle = true ∧ cl ≠ 0
    let all := tile = 127 ∧ hT h.handle = true
    s.Inv ∧ s.dev.hp.ready = true ∧ s.dev.hp.unit = none ∧ (marked ∨ 96 ≤ tile ∧ ¬all) ∧ op = 6 := by dsimp only; decide

theorem witness_HostCommands_24 :
    let s := wD fun d => { d with hp := { d.hp with  ready := true, exec := 0x80000001, handle := 0x0, arg0 := 0x400, arg1 := 0x0 } }
    let h := s.dev.hp
    let w := h.exec
    let op := fld w 7 0
    let x := h.arg0
    s.Inv ∧ s.dev.hp.ready = true ∧ s.dev.hp.unit = none ∧ op = 1 ∧ (fld x 31 10 ≠ 0 ∨ fld h.arg1 31 6 ≠ 0) := by dsimp only; decide

theorem witness_HostCommands_25 :
    let s := wD fun d => { d with hp := { d.hp with  ready := true, exec := 0x80000002, handle := 0x0, arg0 := 0x10, arg1 := 0x0 } }
    let h := s.dev.hp
    let w := h.exec
    let op := fld w 7 0
    let x := h.arg0
    s.Inv ∧ s.dev.hp.ready = true ∧ s.dev.hp.unit = none ∧ op = 2 ∧ fld x 31 4 ≠ 0 := by dsimp only; decide

theorem witness_HostCommands_26 :
    let s := wD fun d => { d with hp := { d.hp with  ready := true, exec := 0x80000003, handle := 0x0, arg0 := 0x10000, arg1 := 0x0 } }
    let h := s.dev.hp
    let w := h.exec
    let op := fld w 7 0
    let x := h.arg0
    s.Inv ∧ s.dev.hp.ready = true ∧ s.dev.hp.unit = none ∧ op = 3 ∧ fld x 31 16 ≠ 0 := by dsimp only; decide

theorem witness_HostCommands_27 :
    let s := wD fun d => { d with hp := { d.hp with  ready := true, exec := 0x80000005, handle := 0x0, arg0 := 0x100, arg1 := 0x0 } }
    let h := s.dev.hp
    let w := h.exec
    let op := fld w 7 0
    let x := h.arg0
    s.Inv ∧ s.dev.hp.ready = true ∧ s.dev.hp.unit = none ∧ op = 5 ∧ fld x 31 8 ≠ 0 := by dsimp only; decide

theorem witness_HostCommands_28 :
    let s := wD fun d => { d with hp := { d.hp with  ready := true, exec := 0x80000008, handle := 0x0, arg0 := 0x400, arg1 := 0x0 } }
    let h := s.dev.hp
    let w := h.exec
    let op := fld w 7 0
    let x := h.arg0
    s.Inv ∧ s.dev.hp.ready = true ∧ s.dev.hp.unit = none ∧ op = 8 ∧ fld x 31 10 ≠ 0 := by dsimp only; decide

theorem witness_HostCommands_29 :
    let s := wD fun d => { d with hp := { d.hp with  ready := true, exec := 0x80000007, handle := 0x0, arg0 := 0x0, arg1 := 0x0 } }
    let h := s.dev.hp
    let d := { s.dev with hp := { h with ready := false } }
    let w := h.exec
    let op := fld w 7 0
    let clean := fld w 30 24 = 0 ∧ fld w 23 16 = 0
    let x := h.arg0
    let tile := hTile h.handle
    let cl := hCl h.handle
    let marked := fld h.handle 31 24 ≠ 0 ∨ fld h.handle 15 5 ≠ 0 ∨ 18 ≤ cl ∨ hT h.handle = true ∧ cl ≠ 0
    let bad := marked ∨ 96 ≤ tile
    let answers := (shadowView d tile).d.answersT tile = true ∧ boolAt d.pur.lost tile = false
    let stands := answers ∧ (shadowView d tile).d.live tile cl = true
    s.Inv ∧ s.dev.hp.ready = true ∧ s.dev.hp.unit = none ∧ op = 7 ∧ clean ∧ x = 0 ∧ h.arg1 = 0 ∧ ¬bad ∧ hT h.handle = false ∧ ¬stands := by dsimp only; decide

theorem witness_HostCommands_30 :
    let s := wD fun d => { d with hp := { d.hp with  ready := true, exec := 0x80000001, handle := 0x800000, arg0 := 0x3ff, arg1 := 0x0 } }
    let h := s.dev.hp
    let d := { s.dev with hp := { h with ready := false } }
    let w := h.exec
    let op := fld w 7 0
    let clean := fld w 30 24 = 0 ∧ fld w 23 16 = 0
    let x := h.arg0
    let tile := hTile h.handle
    let cl := hCl h.handle
    let marked := fld h.handle 31 24 ≠ 0 ∨ fld h.handle 15 5 ≠ 0 ∨ 18 ≤ cl ∨ hT h.handle = true ∧ cl ≠ 0
    let bad := marked ∨ 96 ≤ tile
    let answers := (shadowView d tile).d.answersT tile = true ∧ boolAt d.pur.lost tile = false
    let i : Instr := .cmdSetp
    let code : Nat := 0x1
    let n : Nat := 10
    s.Inv ∧ s.dev.hp.ready = true ∧ s.dev.hp.unit = none ∧
      (i, code, n) ∈ [(Instr.cmdSetp, 1, 10), (Instr.cmdPstate, 2, 4), (Instr.cmdTblsel, 5, 8), (Instr.cmdGrant, 8, 10)] ∧ op = code ∧ clean ∧ ¬bad ∧
      hT h.handle = true ∧ fld x 31 n = 0 ∧ if code = 1 then fld h.arg1 31 6 = 0 else h.arg1 = 0 ∧ ¬answers := by dsimp only; decide

theorem witness_HostCommands_31 :
    let s := wD fun d => { d with mirrors := [{ cur := { tile := d.tl 0 } }, {}], hp := { d.hp with  ready := true, exec := 0x80000007, handle := 0x0, arg0 := 0x0, arg1 := 0x0 } }
    let h := s.dev.hp
    let d := { s.dev with hp := { h with ready := false } }
    let w := h.exec
    let op := fld w 7 0
    let clean := fld w 30 24 = 0 ∧ fld w 23 16 = 0
    let x := h.arg0
    let tile := hTile h.handle
    let cl := hCl h.handle
    let marked := fld h.handle 31 24 ≠ 0 ∨ fld h.handle 15 5 ≠ 0 ∨ 18 ≤ cl ∨ hT h.handle = true ∧ cl ≠ 0
    let bad := marked ∨ 96 ≤ tile
    let answers := (shadowView d tile).d.answersT tile = true ∧ boolAt d.pur.lost tile = false
    let stands := answers ∧ (shadowView d tile).d.live tile cl = true
    s.Inv ∧ s.dev.hp.ready = true ∧ s.dev.hp.unit = none ∧ op = 7 ∧ clean ∧ x = 0 ∧ h.arg1 = 0 ∧ ¬bad ∧ hT h.handle = false ∧ stands := by dsimp only; decide

theorem witness_HostCommands_32 :
    let s := wD fun d => { d with mirrors := [{ cur := { tile := d.tl 0 } }, {}], hp := { d.hp with  ready := true, exec := 0x80000001, handle := 0x800000, arg0 := 0x3ff, arg1 := 0x0 } }
    let h := s.dev.hp
    let d := { s.dev with hp := { h with ready := false } }
    let w := h.exec
    let op := fld w 7 0
    let clean := fld w 30 24 = 0 ∧ fld w 23 16 = 0
    let x := h.arg0
    let tile := hTile h.handle
    let cl := hCl h.handle
    let marked := fld h.handle 31 24 ≠ 0 ∨ fld h.handle 15 5 ≠ 0 ∨ 18 ≤ cl ∨ hT h.handle = true ∧ cl ≠ 0
    let bad := marked ∨ 96 ≤ tile
    let answers := (shadowView d tile).d.answersT tile = true ∧ boolAt d.pur.lost tile = false
    let i : Instr := .cmdSetp
    let code : Nat := 0x1
    let n : Nat := 10
    s.Inv ∧ s.dev.hp.ready = true ∧ s.dev.hp.unit = none ∧
      (i, code, n) ∈ [(Instr.cmdSetp, 1, 10), (Instr.cmdPstate, 2, 4), (Instr.cmdTblsel, 5, 8), (Instr.cmdGrant, 8, 10)] ∧ op = code ∧ clean ∧ ¬bad ∧
      hT h.handle = true ∧ fld x 31 n = 0 ∧ if code = 1 then fld h.arg1 31 6 = 0 else h.arg1 = 0 ∧ answers := by dsimp only; decide

theorem witness_Recorder_1 :
    let s := w0
    let d := s.dev
    let l := d.log
    let usable := 24 ≤ fld d.boot.nvid 7 0
    let since := fun (a : Nat) => (l.optime + 2 ^ 40 - a) % 2 ^ 40
    s.Inv ∧ l.flush = none ∧ (l.optime % 1000 ≠ 0 ∨ ¬usable) ∧ (fld l.cfg 31 24 = 0 ∨ l.hbeat < 3600000 * fld l.cfg 31 24) ∧
      (l.frozen = false ∨ since l.frzAt < 10000) ∧ (l.nonce = none ∨ since (l.nonceAt.getD 0) < 60000) ∧ (l.clearing = false ∨ l.erased = true) ∧
      d.ridge.on = true ∧ l.frozen = false ∧ l.pendFull = false ∧ (∀ (b : Bucket), b ∈ l.buckets → b.supp = 0) := by dsimp only; decide

theorem witness_Recorder_2 :
    let s := wD fun d => { d with log := { d.log with buf := [{ code := 6, optime := 7, seq := 1 }, { code := 6, optime := 7, seq := 1 }], flush := some 2, wptr := 7 } }
    let d := s.dev
    let l := d.log
    s.Inv ∧ l.flush.isSome = true := by dsimp only; decide

theorem witness_Recorder_3 :
    let s := wD fun d => { d with log := { d.log with buf := [{ code := 6, optime := 7, seq := 1 }, { code := 6, optime := 7, seq := 1 }], flush := some 2, wptr := 7 } }
    let d := s.dev
    let l := d.log
    let left : Nat := 2
    let n := min (min left (8 - l.wptr % 8)) (131071 - l.wptr)
    s.Inv ∧ l.flush = some left ∧ (n ≤ List.countP (fun x => x.pend) l.buf) ∧ l.wptr + n < 131071 ∧ l.lostDue = false ∧ l.again = false := by dsimp only; decide

theorem witness_Recorder_4 :
    let s := wD fun d => { d with log := { d.log with buf := [{ code := 6, optime := 7, seq := 1 }, { code := 6, optime := 7, seq := 1 }], flush := some 2, wptr := 7 } }
    let d := s.dev
    let l := d.log
    let left : Nat := 2
    let n := min (min left (8 - l.wptr % 8)) (131071 - l.wptr)
    let a : Nat := d.slot (l.wptr + 2)
    s.Inv ∧ l.flush = some left ∧ (n ≤ List.countP (fun x => x.pend) l.buf) ∧ l.wptr + n < 131071 ∧ (a < d.slot l.wptr ∨ d.slot (l.wptr + n) ≤ a) := by dsimp only; decide

theorem witness_Recorder_7 :
    let s := wD fun d => { d with log := { d.log with buf := [{ code := 6, optime := 7, seq := 1 }, { code := 6, optime := 7, seq := 1 }], flush := some 2, wptr := 131069 } }
    let d := s.dev
    let l := d.log
    let left : Nat := 2
    s.Inv ∧ l.flush = some left ∧ 131071 - l.wptr ≤ min left (8 - l.wptr % 8) ∧ l.wptr < 131071 := by dsimp only; decide

theorem witness_Recorder_8 :
    let s := wD fun d => { d with log := { d.log with cfg := 0x01401001, hbeat := 3600000, optime := 1001 } }
    let d := s.dev
    let l := d.log
    let room := l.frzFull = false ∧ l.pendFull = false
    s.Inv ∧ fld l.cfg 31 24 ≠ 0 ∧ 3600000 * fld l.cfg 31 24 ≤ l.hbeat ∧ room ∧
      (l.pf = false ∧ List.countP (fun x => x.pend) l.buf < 63 ∨ ∀ (b : Bucket), b ∈ l.buckets → b.supp = 0) := by dsimp only; decide

theorem witness_Recorder_9 :
    let s := wD fun d => { d with log := { d.log with frozen := true, frzAt := 5, optime := 10005 } }
    let d := s.dev
    let l := d.log
    let since := fun (a : Nat) => (l.optime + 2 ^ 40 - a) % 2 ^ 40
    s.Inv ∧ l.frozen = true ∧ 10000 ≤ since l.frzAt := by dsimp only; decide

theorem witness_Recorder_10 :
    let s := wD fun d => { d with log := { d.log with nonce := some 3, nonceAt := some 5, optime := 60005 } }
    let d := s.dev
    let l := d.log
    let since := fun (a : Nat) => (l.optime + 2 ^ 40 - a) % 2 ^ 40
    s.Inv ∧ l.nonce.isSome = true ∧ 60000 ≤ since (l.nonceAt.getD 0) := by dsimp only; decide

theorem witness_Recorder_11 :
    let s := wD fun d => { d with log := { d.log with clearing := true }, boot := { d.boot with nvid := 22 } }
    let d := s.dev
    let l := d.log
    s.Inv ∧ l.optime % 1000 = 0 ∧ l.frozen = false ∧ l.erased = false ∧ (l.clearing = true ∨ l.full = true) ∧ l.clearing = true ∧
      22 ≤ fld d.boot.nvid 7 0 ∧ (List.countP (fun x => x.pend) l.buf = 0) ∧ (∀ (b : Bucket), b ∈ l.buckets → b.supp = 0) := by dsimp only; decide

theorem witness_Recorder_12 :
    let s := wD fun d => { d with log := { d.log with clearing := true }, boot := { d.boot with nvid := 22 } }
    let d := s.dev
    let l := d.log
    let a : Nat := d.slot 131072
    s.Inv ∧ l.clearing = true ∧ l.erased = false ∧ 22 ≤ fld d.boot.nvid 7 0 ∧ (a < d.slot 0 ∨ d.slot 131072 ≤ a) := by dsimp only; decide

theorem witness_Recorder_13 :
    let s := wD fun d => { d with log := { d.log with optime := 1000, buf := [{ code := 6, optime := 7, seq := 1 }] }, boot := { d.boot with nvid := 28 } }
    let d := s.dev
    let l := d.log
    let usable := 24 ≤ fld d.boot.nvid 7 0
    s.Inv ∧ l.optime % 1000 = 0 ∧ usable ∧ l.frozen = false ∧ (l.erased = true ∨ l.clearing = false ∧ l.full = false) ∧
      (∀ (b : Bucket), b ∈ l.buckets → b.supp = 0) := by dsimp only; decide

theorem witness_Recorder_14 :
    let s := wD fun d => { d with log := { d.log with optime := 2000, frozen := true, buf := [{ code := 6, optime := 7, seq := 1 }] }, boot := { d.boot with nvid := 24 } }
    let d := s.dev
    let l := d.log
    let usable := 24 ≤ fld d.boot.nvid 7 0
    s.Inv ∧ l.optime % 1000 = 0 ∧ usable ∧ l.frozen = true := by dsimp only; decide

theorem witness_BootAndResets_1 :
    let s := wD fun d => { d with boot := { d.boot with started := true } }
    let d := s.dev
    let b := d.boot
    let t : Nat := 1
    s.Inv ∧ b.porst = false ∧ b.booting = false ∧ (b.ir ≠ 18 ∨ d.seq.phase ≠ 0) ∧ b.started = true ∧ b.wrst = false ∧ b.fast = false ∧
      d.hasT t = true ∧ (d.hasT t = false ∨ (d.tl t).rst = false) ∧ b.keyv = false := by dsimp only; decide

theorem witness_BootAndResets_2 :
    let s := wD fun d => { d with boot := { d.boot with started := true } }
    let d := s.dev
    let b := d.boot
    let k : CoreId := CoreId.ridge
    s.Inv ∧ b.porst = false ∧ b.started = true ∧ d.hasCore k = true := by dsimp only; decide

theorem witness_BootAndResets_3 :
    let s := wD fun d => { d with boot := { d.boot with started := true } }
    let d := s.dev
    let b := d.boot
    let n : Nat := 1
    s.Inv ∧ b.porst = false ∧ b.started = true ∧ 1 ≤ n ∧ n < 8 ∧ n < d.dma.ch.length ∧ (d.ch n).st ≠ 4 := by dsimp only; decide

theorem witness_BootAndResets_4 :
    let s := wD fun d => { d with boot := { d.boot with porst := true } }
    let ref : Bool := true
    let d := s.dev
    let b := d.boot
    let t : Nat := 1
    s.Inv ∧ b.porst = true ∧ ref = true ∧ (b.porst = true ∨ b.started = false) ∧ (b.porst = true ∨ d.hasT t = false) := by dsimp only; decide

theorem witness_BootAndResets_5 :
    let s := wD fun d => { d with boot := { d.boot with porst := true } }
    let ref : Bool := false
    let d := s.dev
    let b := d.boot
    s.Inv ∧ b.porst = true ∧ ref = false := by dsimp only; decide

theorem witness_BootAndResets_6 :
    let s := wD fun d => { d with boot := { d.boot with ir := 0x12 } }
    let d := s.dev
    let b := d.boot
    s.Inv ∧ b.booting = false ∧ b.ir = 18 ∧ d.seq.phase = 0 := by dsimp only; decide

theorem witness_BootAndResets_7 :
    let s := wD fun d => { d with boot := { d.boot with booting := true, stage := 0 } }
    let d := s.dev
    let b := d.boot
    s.Inv ∧ b.booting = true ∧ b.stage = 0 := by dsimp only; decide

theorem witness_BootAndResets_8 :
    let s := wD fun d => { d with boot := { d.boot with booting := true, stage := 1, nvid := 24 } }
    let d := s.dev
    let b := d.boot
    s.Inv ∧ b.booting = true ∧ b.stage = 1 ∧ 24 ≤ fld b.nvid 7 0 := by dsimp only; decide

theorem witness_BootAndResets_9 :
    let s := wD fun d => { d with boot := { d.boot with booting := true, stage := 2 } }
    let d := s.dev
    let b := d.boot
    s.Inv ∧ b.booting = true ∧ b.stage = 2 ∧ imgHeadErr s.mem d ≠ 0 := by dsimp only; decide

theorem witness_BootAndResets_10 :
    let s := wD fun d => { d with boot := { d.boot with booting := true, stage := 3 } }
    let d := s.dev
    let b := d.boot
    s.Inv ∧ b.booting = true ∧ b.stage = 3 := by dsimp only; decide

theorem witness_BootAndResets_11 :
    let s := wD fun d => { d with boot := { d.boot with booting := true, stage := 3 } }
    let failed : List (Nat × Nat × Nat) := [(0, 16, 3), (1, 17, 7)]
    let d := s.dev
    let b := d.boot
    let t : Nat := 0
    let c : Nat := 16
    let r : Nat := 3
    s.Inv ∧ b.booting = true ∧ b.stage = 3 ∧ (t, c, r) ∈ failed ∧ d.hasC t c = true ∧ r < 8 ∧ r < (d.cl t c).cells.length := by dsimp only; decide

theorem witness_BootAndResets_12 :
    let s := wD fun d => { d with boot := { d.boot with booting := true, stage := 3 } }
    let d := s.dev
    let b := d.boot
    let t : Nat := 0
    s.Inv ∧ b.booting = true ∧ b.stage = 3 ∧ d.hasT t = true := by dsimp only; decide

theorem witness_BootAndResets_13 :
    let s := wD fun d => { d with boot := { d.boot with booting := true, stage := 4 } }
    let d := s.dev
    let b := d.boot
    s.Inv ∧ b.booting = true ∧ 4 ≤ b.stage := by dsimp only; decide

theorem witness_BootAndResets_14 :
    let s := wD fun d => { d with boot := { d.boot with wrst := true } }
    let d := s.dev
    let b := d.boot
    let n : Nat := 3
    s.Inv ∧ b.wrst = true ∧ 0 < n := by dsimp only; decide

theorem witness_BootAndResets_15 :
    let s := wD fun d => { d with boot := { d.boot with wrst := true } }
    let bad : List EccPlace := [.coreRam .ridge, .coreRom (.rafter 1), .coreRam (.rafter 0)]
    let d := s.dev
    let b := d.boot
    let k : CoreId := CoreId.ridge
    s.Inv ∧ b.wrst = true ∧ d.hasCore k = true ∧ EccPlace.coreRam k ∈ bad := by dsimp only; decide

theorem witness_BootAndResets_16 :
    let s := wD fun d => { d with boot := { d.boot with fast := true } }
    let d := s.dev
    let b := d.boot
    s.Inv ∧ b.fast = true := by dsimp only; decide

theorem witness_BootAndResets_17 :
    let s := wD fun d => { d with boot := { d.boot with started := true }, tiles := d.tiles.modify 1 fun x => { x with rst := true } }
    let t : Nat := 1
    let d := s.dev
    let b := d.boot
    s.Inv ∧ d.hasT t = true ∧ (d.tl t).rst = true ∧ b.started = true ∧ b.wrst = false ∧ b.fast = false ∧ ¬(d.tl t).core.ramBad = true ∧
      ¬d.selLoaded (CoreId.rafter t) = true := by dsimp only; decide

theorem witness_BootAndResets_18 :
    let s := wD fun d => { d with boot := { d.boot with started := false }, tiles := d.tiles.modify 1 fun x => { x with rst := true } }
    let t : Nat := 1
    let d := s.dev
    let b := d.boot
    s.Inv ∧ d.hasT t = true ∧ (d.tl t).rst = true ∧ (b.started = false ∨ b.wrst = true ∨ b.fast = true) := by dsimp only; decide

theorem witness_BootAndResets_19 :
    let s := wD fun d => { d with boot := { d.boot with keyv := true } }
    let d := s.dev
    let b := d.boot
    s.Inv ∧ b.keyv = true := by dsimp only; decide

theorem witness_BootAndResets_20 :
    let s := wD fun d => { d with boot := { d.boot with wrst := true } }
    let bad : List EccPlace := [.coreRam .ridge, .coreRom (.rafter 1)]
    let d := s.dev
    let b := d.boot
    let k : CoreId := .ridge
    s.Inv ∧ b.wrst = true ∧ d.hasCore k = true ∧ EccPlace.coreRam k ∈ bad := by dsimp only; decide

theorem witness_BootAndResets_21 :
    let s := wD fun d => { d with boot := { d.boot with wrst := true } }
    let bad : List EccPlace := [.coreRam .ridge, .coreRom (.rafter 1)]
    let d := s.dev
    let b := d.boot
    let k : CoreId := (.rafter 1)
    s.Inv ∧ b.wrst = true ∧ d.hasCore k = true ∧ EccPlace.coreRom k ∈ bad := by dsimp only; decide

theorem witness_BootAndResets_22 :
    let s := wD fun d => { d with boot := { d.boot with started := true }, tiles := d.tiles.modify 1 fun x => { x with  rst := true } }
    let t : Nat := 1
    let d := s.dev
    let b := d.boot
    s.Inv ∧ d.hasT t = true ∧ (d.tl t).rst = true ∧ b.started = true ∧ b.wrst = false ∧ b.fast = false ∧ ¬(d.tl t).core.ramBad = true ∧
      ¬d.selLoaded (CoreId.rafter t) = true := by dsimp only; decide

theorem witness_BootAndResets_23 :
    let s := wD fun d => { d with boot := { d.boot with started := true }, tiles := d.tiles.modify 1 fun x => { x with core := { x.core with ramBad := true }, rst := true } }
    let t : Nat := 1
    let d := s.dev
    let b := d.boot
    s.Inv ∧ d.hasT t = true ∧ (d.tl t).rst = true ∧ b.started = true ∧ b.wrst = false ∧ b.fast = false ∧ (d.tl t).core.ramBad = true := by dsimp only; decide

theorem witness_BootAndResets_24 :
    let s := wD fun d => { d with boot := { d.boot with started := true }, tiles := d.tiles.modify 1 fun x => { x with rst := true }, hp := { d.hp with fsel := true } }
    let t : Nat := 1
    let d := s.dev
    let b := d.boot
    s.Inv ∧ d.hasT t = true ∧ (d.tl t).rst = true ∧ b.started = true ∧ b.wrst = false ∧ b.fast = false ∧ ¬(d.tl t).core.ramBad = true ∧
      d.selLoaded (CoreId.rafter t) = true := by dsimp only; decide

theorem witness_BoardClocksTestMesh_1 :
    let s := wD fun d => { d with boot := { d.boot with avsBusy := true, avsTries := 2 } }
    let d := s.dev
    let b := d.boot
    let t : Nat := 0
    let p : Nat := 0
    let x := d.tl t
    s.Inv ∧ (b.clkState = 0 ∨ b.clkState = 4) ∧ b.clkState ≠ 4 ∧ (d.faces t p = false ∨ boolAt x.byp p = true) ∧ boolAt x.train p = false := by dsimp only; decide

theorem witness_BoardClocksTestMesh_3 :
    let s := wD fun d => { d with boot := { d.boot with avsBusy := true, avsTries := 2 } }
    let bits : Nat := 5
    let code : Nat := 7
    let d := s.dev
    let listed := [0, 1, 2, 16, 17, 18, 19, 63]
    let tests := [(Instr.extest bits, 0), (Instr.idcode, 1), (Instr.samplePreload bits, 2), (Instr.corestop, 16), (Instr.loopstop, 17), (Instr.selftest, 18), (Instr.bypass code, if code % 64 ∈ listed then 63 else code % 64)]
    let i : Instr := Instr.selftest
    let n : Nat := 18
    let k : CoreId := CoreId.ridge
    s.Inv ∧ (i, n) ∈ tests ∧ d.hasCore k = true := by dsimp only; decide

theorem witness_BoardClocksTestMesh_4 :
    let s := wD fun d => { d with boot := { d.boot with avsBusy := true, avsTries := 2 } }
    let bits : Nat := 5
    let code : Nat := 7
    let d := s.dev
    let listed := [0, 1, 2, 16, 17, 18, 19, 63]
    let tests := [(Instr.extest bits, 0), (Instr.idcode, 1), (Instr.samplePreload bits, 2), (Instr.corestop, 16), (Instr.loopstop, 17), (Instr.selftest, 18), (Instr.bypass code, if code % 64 ∈ listed then 63 else code % 64)]
    let i : Instr := Instr.selftest
    let n : Nat := 18
    let t : Nat := 0
    s.Inv ∧ (i, n) ∈ tests ∧ d.hasT t = true ∧ n = 18 ∧ d.seq.phase = 0 := by dsimp only; decide

theorem witness_BoardClocksTestMesh_5 :
    let s := wD fun d => { d with boot := { d.boot with clkState := 4 } }
    let d := s.dev
    let b := d.boot
    s.Inv ∧ b.clkState = 4 := by dsimp only; decide

theorem witness_BoardClocksTestMesh_6 :
    let s := wD fun d => { d with boot := { d.boot with clkState := 1 } }
    let d := s.dev
    let b := d.boot
    s.Inv ∧ b.clkState ≠ 0 ∧ b.clkState ≠ 4 := by dsimp only; decide

theorem witness_BoardClocksTestMesh_7 :
    let s := wD fun d => { d with boot := { d.boot with ir := 0x10 } }
    let bits : Nat := 5
    let code : Nat := 7
    let d := s.dev
    let b := d.boot
    let listed := [0, 1, 2, 16, 17, 18, 19, 63]
    let tests := [(Instr.extest bits, 0), (Instr.idcode, 1), (Instr.samplePreload bits, 2), (Instr.corestop, 16), (Instr.loopstop, 17), (Instr.selftest, 18), (Instr.bypass code, if code % 64 ∈ listed then 63 else code % 64)]
    let i : Instr := Instr.selftest
    let n : Nat := 18
    let k : CoreId := CoreId.ridge
    s.Inv ∧ (i, n) ∈ tests ∧ d.hasCore k = true ∧ b.ir = 16 ∧ n ≠ 16 := by dsimp only; decide

theorem witness_BoardClocksTestMesh_8 :
    let s := wD fun d => { d with boot := { d.boot with ir := 0x13 } }
    let dr : Nat := 580970949000563200
    let d := s.dev
    let b := d.boot
    let a := dr / 2 ^ 41 % 2 ^ 18 * 4
    s.Inv ∧ b.ir = 19 ∧ a < 65536 ∧ dr / 2 ^ 59 % 2 = 1 := by dsimp only; decide

theorem witness_BoardClocksTestMesh_9 :
    let s := wD fun d => { d with boot := { d.boot with ir := 0x13 } }
    let dr : Nat := 36026597995708416
    let d := s.dev
    let b := d.boot
    let a := dr / 2 ^ 41 % 2 ^ 18 * 4
    s.Inv ∧ b.ir = 19 ∧ a < 65536 ∧ dr / 2 ^ 59 % 2 = 0 := by dsimp only; decide

theorem witness_BoardClocksTestMesh_10 :
    let s := wD fun d => { d with boot := { d.boot with ir := 0x11 } }
    let t : Nat := 0
    let p : Nat := 1
    let d := s.dev
    let x := d.tl t
    let again : Bool := false
    let n := if again = true then x.tries.getD p 0 else 0
    s.Inv ∧ d.faces t p = true ∧ boolAt x.byp p = false ∧ t < d.tiles.length ∧ p < x.byp.length ∧ n < 4 ∧ p < x.tries.length := by dsimp only; decide

theorem witness_BoardClocksTestMesh_12 :
    let s := w0
    let bits : Nat := 0
    let code : Nat := 0
    let listed := [0, 1, 2, 16, 17, 18, 19, 63]
    let tests := [(Instr.extest bits, 0), (Instr.idcode, 1), (Instr.samplePreload bits, 2), (Instr.corestop, 16), (Instr.loopstop, 17), (Instr.selftest, 18), (Instr.bypass code, if code % 64 ∈ listed then 63 else code % 64)]
    let i : Instr := .selftest
    let n : Nat := 0x12
    s.Inv ∧ (i, n) ∈ tests := by dsimp only; decide

theorem witness_BoardClocksTestMesh_13 :
    let s := w0
    let bits : Nat := 0
    let code : Nat := 0
    let d := s.dev
    let listed := [0, 1, 2, 16, 17, 18, 19, 63]
    let tests := [(Instr.extest bits, 0), (Instr.idcode, 1), (Instr.samplePreload bits, 2), (Instr.corestop, 16), (Instr.loopstop, 17), (Instr.selftest, 18), (Instr.bypass code, if code % 64 ∈ listed then 63 else code % 64)]
    let i : Instr := .selftest
    let n : Nat := 0x12
    let k : CoreId := CoreId.ridge
    s.Inv ∧ (i, n) ∈ tests ∧ d.hasCore k = true := by dsimp only; decide

theorem witness_BoardClocksTestMesh_14 :
    let s := w0
    let bits : Nat := 0
    let code : Nat := 0
    let d := s.dev
    let listed := [0, 1, 2, 16, 17, 18, 19, 63]
    let tests := [(Instr.extest bits, 0), (Instr.idcode, 1), (Instr.samplePreload bits, 2), (Instr.corestop, 16), (Instr.loopstop, 17), (Instr.selftest, 18), (Instr.bypass code, if code % 64 ∈ listed then 63 else code % 64)]
    let i : Instr := .selftest
    let n : Nat := 0x12
    let t : Nat := 0
    s.Inv ∧ (i, n) ∈ tests ∧ d.hasT t = true ∧ n = 18 ∧ d.seq.phase = 0 := by dsimp only; decide

theorem witness_BoardClocksTestMesh_15 :
    let s := wT fun x => { x with tries := [4, 4, 4, 4] }
    let t : Nat := 0
    let p : Nat := 1
    let again : Bool := true
    let d := s.dev
    let x := d.tl t
    let n := if again = true then x.tries.getD p 0 else 0
    s.Inv ∧ d.faces t p = true ∧ boolAt x.byp p = false ∧ t < d.tiles.length ∧ p < x.byp.length ∧ 4 ≤ n := by dsimp only; decide

theorem witness_BoardClocksTestMesh_16 :
    let s := wT fun x => { x with train := [true, true, true, true], byp := [true, true, true, true] }
    let t : Nat := 0
    let p : Nat := 3
    let d := s.dev
    let x := d.tl t
    s.Inv ∧ boolAt x.train p = true := by dsimp only; decide

theorem witness_BoardClocksTestMesh_17 :
    let s := wD fun d => { d with seq := { d.seq with phase := 2 }, boot := { d.boot with bound := 3 } }
    let bits : Nat := 9
    let code : Nat := 0
    let d := s.dev
    let listed := [0, 1, 2, 16, 17, 18, 19, 63]
    let tests := [(Instr.extest bits, 0), (Instr.idcode, 1), (Instr.samplePreload bits, 2), (Instr.corestop, 16), (Instr.loopstop, 17), (Instr.selftest, 18), (Instr.bypass code, if code % 64 ∈ listed then 63 else code % 64)]
    let i : Instr := (.extest 9)
    let n : Nat := 0
    s.Inv ∧ (i, n) ∈ tests ∧ (n = 63 ∨ ¬n ∈ listed ∨ n = 0 ∧ d.seq.phase ≠ 0) := by dsimp only; decide

theorem witness_BoardClocksTestMesh_18 :
    let s := wD fun d => { d with seq := { d.seq with phase := 0 }, boot := { d.boot with bound := 3 } }
    let bits : Nat := 9
    let code : Nat := 0
    let d := s.dev
    let listed := [0, 1, 2, 16, 17, 18, 19, 63]
    let tests := [(Instr.extest bits, 0), (Instr.idcode, 1), (Instr.samplePreload bits, 2), (Instr.corestop, 16), (Instr.loopstop, 17), (Instr.selftest, 18), (Instr.bypass code, if code % 64 ∈ listed then 63 else code % 64)]
    let i : Instr := (.extest 9)
    let n : Nat := 0
    s.Inv ∧ (i, n) ∈ tests ∧ (n = 2 ∨ n = 0 ∧ d.seq.phase = 0) := by dsimp only; decide

theorem witness_BoardClocksTestMesh_19 :
    let s := wD fun d => { d with boot := { d.boot with ir := 0x10 } }
    let bits : Nat := 9
    let code : Nat := 7
    let listed := [0, 1, 2, 16, 17, 18, 19, 63]
    let tests := [(Instr.extest bits, 0), (Instr.idcode, 1), (Instr.samplePreload bits, 2), (Instr.corestop, 16), (Instr.loopstop, 17), (Instr.selftest, 18), (Instr.bypass code, if code % 64 ∈ listed then 63 else code % 64)]
    let i : Instr := .idcode
    let n : Nat := 1
    s.Inv ∧ (i, n) ∈ tests := by dsimp only; decide

theorem witness_BoardClocksTestMesh_20 :
    let s := wD fun d => { d with boot := { d.boot with ir := 0x10 } }
    let bits : Nat := 9
    let code : Nat := 7
    let d := s.dev
    let listed := [0, 1, 2, 16, 17, 18, 19, 63]
    let tests := [(Instr.extest bits, 0), (Instr.idcode, 1), (Instr.samplePreload bits, 2), (Instr.corestop, 16), (Instr.loopstop, 17), (Instr.selftest, 18), (Instr.bypass code, if code % 64 ∈ listed then 63 else code % 64)]
    let i : Instr := (.samplePreload 9)
    let n : Nat := 2
    let k : CoreId := (.rafter 1)
    let b := d.boot
    s.Inv ∧ (i, n) ∈ tests ∧ d.hasCore k = true ∧ b.ir = 16 ∧ n ≠ 16 := by dsimp only; decide

theorem witness_BoardClocksTestMesh_21 :
    let s := wD fun d => { d with boot := { d.boot with ir := 0x11 } }
    let bits : Nat := 9
    let code : Nat := 7
    let d := s.dev
    let listed := [0, 1, 2, 16, 17, 18, 19, 63]
    let tests := [(Instr.extest bits, 0), (Instr.idcode, 1), (Instr.samplePreload bits, 2), (Instr.corestop, 16), (Instr.loopstop, 17), (Instr.selftest, 18), (Instr.bypass code, if code % 64 ∈ listed then 63 else code % 64)]
    let i : Instr := (.samplePreload 9)
    let n : Nat := 2
    let t : Nat := 1
    s.Inv ∧ (i, n) ∈ tests ∧ d.hasT t = true := by dsimp only; decide

theorem witness_BoardClocksTestMesh_22 :
    let s := wD fun d => { d with boot := { d.boot with ir := 0x11 } }
    let bits : Nat := 9
    let code : Nat := 7
    let d := s.dev
    let listed := [0, 1, 2, 16, 17, 18, 19, 63]
    let tests := [(Instr.extest bits, 0), (Instr.idcode, 1), (Instr.samplePreload bits, 2), (Instr.corestop, 16), (Instr.loopstop, 17), (Instr.selftest, 18), (Instr.bypass code, if code % 64 ∈ listed then 63 else code % 64)]
    let i : Instr := .selftest
    let n : Nat := 0x12
    let t : Nat := 1
    s.Inv ∧ (i, n) ∈ tests ∧ n = 18 ∧ d.seq.phase = 0 ∧ d.hasT t = true := by dsimp only; decide

theorem witness_LoadStoreRefusals_1 :
    let s := w0
    let k : CoreId := .ridge
    let a : Nat := 1
    let b : Nat := 0
    let imm : Nat := 1
    let ea := BitVec.toNat ((s.dev.core k).rd b + sext18 imm)
    let all := [(Instr.ldw k a b imm, 24, 4), (Instr.ldh k a b imm, 25, 2), (Instr.ldhu k a b imm, 26, 2), (Instr.ldb k a b imm, 27, 1), (Instr.ldbu k a b imm, 28, 1), (Instr.stw k a b imm, 29, 4), (Instr.sth k a b imm, 30, 2), (Instr.stb k a b imm, 31, 1)]
    let i : Instr := Instr.ldw k a b imm
    let op : Nat := 0x18
    let n : Nat := 4
    s.Inv ∧ s.dev.ready k = true ∧ (i, op, n) ∈ all ∧ ea % n ≠ 0 := by dsimp only; decide

theorem witness_LoadStoreRefusals_2 :
    let s := w0
    let k : CoreId := .ridge
    let a : Nat := 1
    let b : Nat := 0
    let imm : Nat := 0x1FFF8
    let ea := BitVec.toNat ((s.dev.core k).rd b + sext18 imm)
    let all := [(Instr.ldw k a b imm, 24, 4), (Instr.ldh k a b imm, 25, 2), (Instr.ldhu k a b imm, 26, 2), (Instr.ldb k a b imm, 27, 1), (Instr.ldbu k a b imm, 28, 1), (Instr.stw k a b imm, 29, 4), (Instr.sth k a b imm, 30, 2), (Instr.stb k a b imm, 31, 1)]
    let i : Instr := Instr.ldw k a b imm
    let op : Nat := 0x18
    let n : Nat := 4
    s.Inv ∧ s.dev.ready k = true ∧ (i, op, n) ∈ all ∧ ea % n = 0 ∧ placeOf k ea = Place.nowhere := by dsimp only; decide

theorem witness_LoadStoreRefusals_3 :
    let s := wK fun x => { x with g := x.g.set 2 0x100000 }
    let k : CoreId := .ridge
    let a : Nat := 1
    let b : Nat := 2
    let imm : Nat := 0
    let ea := BitVec.toNat ((s.dev.core k).rd b + sext18 imm)
    let all := [(Instr.ldw k a b imm, 24, 4), (Instr.ldh k a b imm, 25, 2), (Instr.ldhu k a b imm, 26, 2), (Instr.ldb k a b imm, 27, 1), (Instr.ldbu k a b imm, 28, 1), (Instr.stw k a b imm, 29, 4), (Instr.sth k a b imm, 30, 2), (Instr.stb k a b imm, 31, 1)]
    let i : Instr := Instr.ldh k a b imm
    let op : Nat := 0x19
    let n : Nat := 2
    s.Inv ∧ s.dev.ready k = true ∧ (i, op, n) ∈ all ∧ ea % n = 0 ∧ n ≠ 4 := by dsimp only; decide

theorem witness_LoadStoreRefusals_4 :
    let s := wR fun x => { x with g := x.g.set 2 0x300000 }
    let k : CoreId := (.rafter 0)
    let a : Nat := 1
    let b : Nat := 2
    let imm : Nat := 0
    let ea := BitVec.toNat ((s.dev.core k).rd b + sext18 imm)
    let all := [(Instr.ldw k a b imm, 24, 4), (Instr.ldh k a b imm, 25, 2), (Instr.ldhu k a b imm, 26, 2), (Instr.ldb k a b imm, 27, 1), (Instr.ldbu k a b imm, 28, 1), (Instr.stw k a b imm, 29, 4), (Instr.sth k a b imm, 30, 2), (Instr.stb k a b imm, 31, 1)]
    let i : Instr := Instr.stw k a b imm
    let op : Nat := 0x1D
    let n : Nat := 4
    s.Inv ∧ s.dev.ready k = true ∧ (i, op, n) ∈ all ∧ ea % n = 0 ∧ 29 ≤ op := by dsimp only; decide

theorem witness_EventEntryAndReturn_1 :
    let s := wK fun x => { x with evmask := 1, evpend := 1 }
    let k : CoreId := .ridge
    let n : Nat := 0
    let y := s.dev.core k
    let due := s.dev.pendOf k &&& y.evmask
    let enters := y.active = false ∧ (BitVec.toNat due).testBit n = true ∧ ∀ (j : Nat), j < n → (BitVec.toNat due).testBit j = false
    s.Inv ∧ s.dev.hasCore k = true ∧ y.runs = true ∧ enters ∧ y.errOp < 64 ∧ y.errStatus < 256 := by dsimp only; decide

theorem witness_EventEntryAndReturn_2 :
    let s := w0
    let k : CoreId := .ridge
    let y := s.dev.core k
    let due := s.dev.pendOf k &&& y.evmask
    s.Inv ∧ s.dev.hasCore k = true ∧ (y.runs = false ∨ y.active = true ∨ due = 0) := by dsimp only; decide

theorem witness_EventArming_1 :
    let s := w0
    let k : CoreId := .ridge
    let n : Nat := 31
    s.Inv ∧ s.dev.ready k = true ∧ n < 32 ∧ evOn k n = true ∧ 16 ≤ n := by dsimp only; decide

theorem witness_EventArming_2 :
    let s := w0
    let k : CoreId := .ridge
    let n : Nat := 12
    s.Inv ∧ s.dev.ready k = true ∧ n < 32 ∧ evOn k n = true ∧ n < 16 := by dsimp only; decide

theorem witness_EventArming_3 :
    let s := w0
    let k : CoreId := .ridge
    let n : Nat := 15
    s.Inv ∧ s.dev.ready k = true ∧ n < 32 ∧ evOn k n = false := by dsimp only; decide

theorem witness_EventArming_4 :
    let s := w0
    let k : CoreId := .ridge
    let n : Nat := 32
    s.Inv ∧ s.dev.ready k = true ∧ 32 ≤ n := by dsimp only; decide

theorem witness_WaitAndItsEnd_1 :
    let s := w0
    let k : CoreId := .ridge
    let b : Nat := 0
    let dl : Bool := false
    let x := s.dev.core k
    s.Inv ∧ s.dev.ready k = true ∧ x.rd b = 0 ∧ dl = false := by dsimp only; decide

theorem witness_WaitAndItsEnd_2 :
    let s := wK fun x => { x with g := x.g.set 2 0x30000, evpend := 0x30000 }
    let k : CoreId := .ridge
    let b : Nat := 2
    let n : Nat := 16
    let x := s.dev.core k
    let hit := fun (mask : Word) => (s.dev.pendOf k &&& mask).toNat.testBit n = true ∧ ∀ j, j < n → (s.dev.pendOf k &&& mask).toNat.testBit j = false
    s.Inv ∧ s.dev.ready k = true ∧ hit (x.rd b) := by dsimp only; decide

theorem witness_WaitAndItsEnd_3 :
    let s := w0
    let k : CoreId := .ridge
    let b : Nat := 0
    let c : Nat := 0
    let dl : Bool := true
    let x := s.dev.core k
    let past := fun (t : Word) => 0 ≤ (BitVec.ofNat 32 s.dev.clk.tick - t).toInt
    s.Inv ∧ s.dev.ready k = true ∧ s.dev.pendOf k &&& x.rd b = 0 ∧ dl = true ∧ past (x.rd c) := by dsimp only; decide

theorem witness_WaitAndItsEnd_4 :
    let s := wK fun x => { x with g := x.g.set 2 1 }
    let k : CoreId := .ridge
    let b : Nat := 0
    let c : Nat := 2
    let dl : Bool := true
    let x := s.dev.core k
    let past := fun (t : Word) => 0 ≤ (BitVec.ofNat 32 s.dev.clk.tick - t).toInt
    s.Inv ∧ s.dev.ready k = true ∧ s.dev.pendOf k &&& x.rd b = 0 ∧ (dl = true ∧ ¬past (x.rd c) ∨ dl = false ∧ x.rd b ≠ 0) := by dsimp only; decide

theorem witness_SpecialRegisters_1 :
    let s := w0
    let k : CoreId := .ridge
    let n : Nat := 0x12
    s.Inv ∧ s.dev.ready k = true ∧ 17 < n := by dsimp only; decide

theorem witness_SpecialRegisters_2 :
    let s := w0
    let k : CoreId := .ridge
    let b : Nat := 0
    let w := (s.dev.core k).rd b
    let n : Nat := 0x11
    s.Inv ∧ s.dev.ready k = true ∧ vectorOk k w = true ∧ fld w 7 0 ≠ 90 ∧ tst w 31 = false ∧ n ∈ [0, 1, 2, 3, 6, 13, 15, 16, 17] := by dsimp only; decide

theorem witness_SpecialRegisters_3 :
    let s := wK fun x => { x with g := x.g.set 1 0x8000005A }
    let k : CoreId := .ridge
    let b : Nat := 1
    let w := (s.dev.core k).rd b
    let n : Nat := 0x12
    s.Inv ∧ s.dev.ready k = true ∧ tst w 31 = true ∧ 16 ≤ fld w 15 0 ∧ fld w 7 0 = 90 ∧ vectorOk k w = false ∧ 17 < n := by dsimp only; decide

theorem witness_WatchdogAndLoadCheck_1 :
    let s := wK fun x => { x with wdDue := true }
    let k : CoreId := .ridge
    let x := s.dev.core k
    s.Inv ∧ s.dev.hasCore k = true ∧ x.wdDue = true ∧ x.checking = none := by dsimp only; decide

theorem witness_WatchdogAndLoadCheck_2 :
    let s := w0
    let k : CoreId := .ridge
    let x := s.dev.core k
    s.Inv ∧ s.dev.hasCore k = true ∧ x.wdDue = false := by dsimp only; decide

theorem witness_WatchdogAndLoadCheck_3 :
    let s := wK fun x => { x with checking := some 6 }
    let k : CoreId := .ridge
    let x := s.dev.core k
    s.Inv ∧ s.dev.hasCore k = true ∧ x.checking.isSome = true ∧ loadOutcome s.mem k ≠ 1 := by dsimp only; decide

theorem witness_QueryAndPost_1 :
    let s := w0
    let k : CoreId := .ridge
    let imm : Nat := 0
    s.Inv ∧ s.dev.ready k = true ∧ imm < 256 ∧ (imm < 8192 ∨ 16384 ≤ imm) := by dsimp only; decide

theorem witness_QueryAndPost_2 :
    let s := wK fun x => { x with g := x.g.set 1 0x00FF0000 }
    let k : CoreId := .ridge
    let b : Nat := 1
    let h := (s.dev.core k).rd b
    s.Inv ∧ s.dev.ready k = true ∧ k = CoreId.ridge ∧ h = 16711680 := by dsimp only; decide

theorem witness_QueryAndPost_3 :
    let s := w0
    let k : CoreId := (.rafter 0)
    let imm : Nat := 0x100
    s.Inv ∧ s.dev.ready k = true ∧ 256 ≤ imm := by dsimp only; decide

theorem witness_QueryAndPost_4 :
    let s := w0
    let k : CoreId := (.rafter 0)
    let b : Nat := 0
    let h := (s.dev.core k).rd b
    let t : Nat := 0
    let cl : Nat := 0
    s.Inv ∧ s.dev.ready k = true ∧ k = CoreId.rafter t ∧ t < 96 ∧ cl < 18 ∧ h = BitVec.ofNat 32 (65536 * t + cl) ∧ s.dev.live t cl = true := by dsimp only; decide

theorem witness_QueryAndPost_5 :
    let s := w0
    let k : CoreId := .ridge
    let imm : Nat := 0x2000
    s.Inv ∧ s.dev.ready k = true ∧ 8192 ≤ imm ∧ imm < 16384 ∧ 1000 ≤ (s.dev.log.bucket imm).tokens ∧ s.dev.log.frzFull = false ∧
      s.dev.log.pendFull = false ∧ s.dev.log.npend < 63 ∧ s.dev.log.pf = false := by dsimp only; decide

theorem witness_SendAndReceive_1 :
    let s := w0
    let k : CoreId := .ridge
    let b : Nat := 0
    let c : Nat := 0
    let imm : Nat := 8
    let x := s.dev.core k
    let dst := x.rd b
    let ad := BitVec.toNat (x.rd c)
    let len := imm % 16
    let st := sendStatus k dst ad len s.dev
    s.Inv ∧ s.dev.ready k = true ∧ imm < 4096 ∧ st = 0 ∧ imm < 16 ∧ 1 ≤ imm ∧ imm ≤ 8 ∧ BitVec.toNat (x.rd b) % 4 = 0 ∧ x.inq = [] ∧
      BitVec.toNat (x.rd b) < dataSize k := by dsimp only; decide

theorem witness_SendAndReceive_2 :
    let s := wR fun x => { x with g := x.g.set 1 0x80000000 }
    let k : CoreId := (.rafter 0)
    let b : Nat := 1
    let c : Nat := 0
    let imm : Nat := 8
    let x := s.dev.core k
    let dst := x.rd b
    let ad := BitVec.toNat (x.rd c)
    let len := imm % 16
    s.Inv ∧ s.dev.ready k = true ∧ 1 ≤ len ∧ len ≤ 8 ∧ fld dst 30 23 = 0 ∧ fld dst 15 0 = 0 ∧ tst dst 31 = true ∧ k ≠ CoreId.ridge ∧ ad % 4 = 0 ∧
      ad + 4 * len ≤ dataSize k ∧ x.outq.length < 8 := by dsimp only; decide

theorem witness_SendAndReceive_3 :
    let s := wR fun x => { x with g := x.g.set 1 0x80000000 }
    let k : CoreId := (.rafter 0)
    let b : Nat := 1
    let c : Nat := 0
    let imm : Nat := 0
    let x := s.dev.core k
    let dst := x.rd b
    let ad := BitVec.toNat (x.rd c)
    let len := imm % 16
    let st := sendStatus k dst ad len s.dev
    s.Inv ∧ s.dev.ready k = true ∧ imm < 4096 ∧ st ≠ 0 ∧ (len = 0 ∨ 8 < len) ∧ fld dst 30 23 = 0 ∧ fld dst 15 0 = 0 ∧ tst dst 31 = true ∧
      k ≠ CoreId.ridge := by dsimp only; decide

theorem witness_SendAndReceive_4 :
    let s := wR fun x => { x with g := x.g.set 1 0x80000000, outq := List.replicate 8 { src := .rafter 0, dst := none, bcast := false, tag := 0, words := [], no := 0 } }
    let k : CoreId := (.rafter 0)
    let b : Nat := 1
    let c : Nat := 0
    let imm : Nat := 1
    let x := s.dev.core k
    let dst := x.rd b
    let ad := BitVec.toNat (x.rd c)
    let len := imm % 16
    s.Inv ∧ s.dev.ready k = true ∧ 1 ≤ len ∧ len ≤ 8 ∧ fld dst 30 23 = 0 ∧ fld dst 15 0 = 0 ∧ tst dst 31 = true ∧ k ≠ CoreId.ridge ∧ ad % 4 = 0 ∧
      ad + 4 * len ≤ dataSize k ∧ 8 ≤ x.outq.length := by dsimp only; decide

theorem witness_SendAndReceive_5 :
    let s := wK fun x => { x with inq := [{ src := .rafter 0, dst := none, bcast := false, tag := 0, words := [5, 6], no := 0 }] }
    let k : CoreId := .ridge
    let b : Nat := 0
    let imm : Nat := 8
    let x := s.dev.core k
    let y : Msg := { src := .rafter 0, dst := none, bcast := false, tag := 0, words := [5, 6], no := 0 }
    let l : List Msg := []
    s.Inv ∧ s.dev.ready k = true ∧ imm < 16 ∧ 1 ≤ imm ∧ imm ≤ 8 ∧ BitVec.toNat (x.rd b) % 4 = 0 ∧ x.inq = y :: l ∧
      BitVec.toNat (x.rd b) < dataSize k ∧ BitVec.toNat (x.rd b) + 4 * min imm y.words.length ≤ dataSize k := by dsimp only; decide

theorem witness_SendAndReceive_6 :
    let s := wK fun x => { x with inq := [{ src := .rafter 0, dst := none, bcast := false, tag := 0, words := [5, 6], no := 0 }] }
    let k : CoreId := .ridge
    let b : Nat := 0
    let imm : Nat := 8
    let x := s.dev.core k
    let y : Msg := { src := .rafter 0, dst := none, bcast := false, tag := 0, words := [5, 6], no := 0 }
    let l : List Msg := []
    let q : Nat := dataBase k + 8
    s.Inv ∧ s.dev.ready k = true ∧ imm < 16 ∧ 1 ≤ imm ∧ imm ≤ 8 ∧ BitVec.toNat (x.rd b) % 4 = 0 ∧ x.inq = y :: l ∧
      BitVec.toNat (x.rd b) < dataSize k ∧ BitVec.toNat (x.rd b) + 4 * min imm y.words.length ≤ dataSize k ∧
      (q < dataBase k + BitVec.toNat (x.rd b) ∨ dataBase k + BitVec.toNat (x.rd b) + 4 * min imm y.words.length ≤ q) := by dsimp only; decide

theorem witness_PulsesAndTruncation_1 :
    let s := w0
    let t : Nat := 0
    let c : Nat := 0
    let r : Nat := 0
    let k := s.dev.cl t c
    let x := k.cell r
    let p : Nat := 0
    let y := x.phases.getD p {}
    s.Inv ∧ x.mode = CellMode.run ∧ x.trunc = false ∧ (y.active = false ∨ y.atLimit = true) ∧
      (k.loop.outOn = false ∨ k.loop.pgood = false ∨ x.mode ≠ CellMode.run ∨ 0 < x.blank) := by dsimp only; decide

theorem witness_PulsesAndTruncation_2 :
    let s := wX fun x => { x with trunc := true, phases := List.replicate 4 { active := true } }
    let t : Nat := 0
    let c : Nat := 0
    let r : Nat := 0
    let k := s.dev.cl t c
    let x := k.cell r
    let p : Nat := 3
    let y := x.phases.getD p {}
    s.Inv ∧ (x.mode ≠ CellMode.run ∨ x.trunc = true) ∧ y.active = true ∧ y.atLimit = false := by dsimp only; decide

theorem witness_PulsesAndTruncation_3 :
    let s := wL fun l => { l with outOn := true, pgood := true }
    let t : Nat := 0
    let c : Nat := 0
    let r : Nat := 0
    let k := s.dev.cl t c
    let x := k.cell r
    s.Inv ∧ k.loop.outOn = true ∧ k.loop.pgood = true ∧ x.mode = CellMode.run ∧ x.blank = 0 := by dsimp only; decide

theorem witness_HiccupsAndRetries_1 :
    let s := wX fun x => { x with phases := List.replicate 4 { limRun := 255 }, retries := 0 }
    let t : Nat := 0
    let c : Nat := 0
    let r : Nat := 0
    let p : Nat := 0
    let d := s.dev
    let k := d.cl t c
    let x := k.cell r
    let ns : Nat := 9999999
    s.Inv ∧ t < s.dev.tiles.length ∧ c < (s.dev.tl t).clusters.length ∧ r < (s.dev.cl t c).cells.length ∧ x.mode = CellMode.run ∧
      fld k.loop.occfgE 7 0 ≤ (x.phases.getD p { }).limRun ∧ x.retries < fld k.loop.occfgE 10 8 ∧
      (x.mode ≠ CellMode.hiccup ∨ ns < x.hicAt + 200000) ∧ (x.mode ≠ CellMode.run ∨ ns < x.hicAt + 10000000) := by dsimp only; decide

theorem witness_HiccupsAndRetries_2 :
    let s := wX fun x => { x with phases := List.replicate 4 { limRun := 255 }, retries := 7 }
    let t : Nat := 0
    let c : Nat := 0
    let r : Nat := 0
    let p : Nat := 0
    let d := s.dev
    let k := d.cl t c
    let x := k.cell r
    let ns : Nat := 10000000
    s.Inv ∧ t < s.dev.tiles.length ∧ c < (s.dev.tl t).clusters.length ∧ r < (s.dev.cl t c).cells.length ∧ x.mode = CellMode.run ∧
      fld k.loop.occfgE 7 0 ≤ (x.phases.getD p { }).limRun ∧ fld k.loop.occfgE 10 8 ≤ x.retries ∧ x.hicAt + 10000000 ≤ ns := by dsimp only; decide

theorem witness_HiccupsAndRetries_3 :
    let s := wX fun x => { x with mode := .hiccup }
    let t : Nat := 0
    let c : Nat := 0
    let r : Nat := 0
    let p : Nat := 0
    let d := s.dev
    let k := d.cl t c
    let x := k.cell r
    let ns : Nat := 200000
    s.Inv ∧ t < s.dev.tiles.length ∧ c < (s.dev.tl t).clusters.length ∧ r < (s.dev.cl t c).cells.length ∧
      (x.mode ≠ CellMode.run ∨ (x.phases.getD p { }).limRun < fld k.loop.occfgE 7 0) ∧ x.mode = CellMode.hiccup ∧ x.hicAt + 200000 ≤ ns ∧
      x.low = false := by dsimp only; decide

theorem witness_HiccupsAndRetries_4 :
    let s := wX fun x => { x with mode := .hiccup, low := true }
    let t : Nat := 0
    let c : Nat := 0
    let r : Nat := 0
    let ns : Nat := 200000
    let d := s.dev
    let k := d.cl t c
    let x := k.cell r
    s.Inv ∧ t < s.dev.tiles.length ∧ c < (s.dev.tl t).clusters.length ∧ r < (s.dev.cl t c).cells.length ∧ x.mode = CellMode.hiccup ∧
      x.hicAt + 200000 ≤ ns ∧ x.low = true := by dsimp only; decide

theorem witness_LockoutAndShorts_1 :
    let s := w0
    let t : Nat := 0
    let c : Nat := 0
    let r : Nat := 0
    let d := s.dev
    let k := d.cl t c
    let x := k.cell r
    let p : Nat := 0
    s.Inv ∧ t < s.dev.tiles.length ∧ c < (s.dev.tl t).clusters.length ∧ r < (s.dev.cl t c).cells.length ∧ x.mode = CellMode.run ∧ d.hasC t c = true ∧
      x.mode ≠ CellMode.uvlo ∧ (x.phases.getD p { }).avail = true ∧ x.mode ≠ CellMode.latched ∧ x.mode ≠ CellMode.failed ∧ p < x.phases.length := by dsimp only; decide

theorem witness_LockoutAndShorts_2 :
    let s := wX fun x => { x with mode := .uvlo }
    let t : Nat := 0
    let c : Nat := 0
    let r : Nat := 0
    let d := s.dev
    let k := d.cl t c
    let x := k.cell r
    s.Inv ∧ t < s.dev.tiles.length ∧ c < (s.dev.tl t).clusters.length ∧ r < (s.dev.cl t c).cells.length ∧
      (x.mode ≠ CellMode.run ∧ (x.mode = CellMode.hiccup → x.low = true) ∨ d.hasC t c = false) ∧ x.mode = CellMode.uvlo := by dsimp only; decide

theorem witness_LockoutAndShorts_3 :
    let s := wX fun x => { x with mode := .failed }
    let t : Nat := 0
    let c : Nat := 0
    let r : Nat := 0
    let p : Nat := 3
    let d := s.dev
    let k := d.cl t c
    let x := k.cell r
    s.Inv ∧ t < s.dev.tiles.length ∧ c < (s.dev.tl t).clusters.length ∧ r < (s.dev.cl t c).cells.length ∧
      ((x.phases.getD p { }).avail = false ∨ x.mode = CellMode.latched ∨ x.mode = CellMode.failed ∨ d.hasC t c = false) := by dsimp only; decide

theorem witness_LockoutAndShorts_4 :
    let s := wX fun x => { x with mode := .hiccup }
    let t : Nat := 0
    let c : Nat := 0
    let r : Nat := 0
    let d := s.dev
    let k := d.cl t c
    let x := k.cell r
    s.Inv ∧ t < s.dev.tiles.length ∧ c < (s.dev.tl t).clusters.length ∧ r < (s.dev.cl t c).cells.length ∧ x.mode = CellMode.hiccup ∧ x.low = false ∧
      d.hasC t c = true := by dsimp only; decide

theorem witness_DroopFlag_1 :
    let s := wL fun l => { l with outOn := true, pgood := true }
    let t : Nat := 0
    let c : Nat := 0
    let r : Nat := 0
    let ns : Nat := 6
    let d := { s.dev with clk := { s.dev.clk with now := max s.dev.clk.now ns } }
    let k := d.cl t c
    let x := k.cell r
    s.Inv ∧ k.loop.outOn = true ∧ k.loop.pgood = true ∧ x.mode = CellMode.run ∧ x.blank = 0 ∧ x.undOut = false ∧ k.loop.droop = false ∧
      (k.loop.droop = false ∨ ns < k.loop.droopAt + 6) ∧ (k.loop.holdoff = false ∨ k.loop.droop = true ∨ ns < k.loop.droopEnd + 200) := by dsimp only; decide

theorem witness_DroopFlag_2 :
    let s := wL fun l => { l with outOn := true, pgood := true, droop := true }
    let t : Nat := 0
    let c : Nat := 0
    let r : Nat := 0
    let ns : Nat := 6
    let d := { s.dev with clk := { s.dev.clk with now := max s.dev.clk.now ns } }
    let k := d.cl t c
    let x := k.cell r
    s.Inv ∧ k.loop.outOn = true ∧ k.loop.pgood = true ∧ x.mode = CellMode.run ∧ x.blank = 0 ∧ x.undOut = false ∧ k.loop.droop = true ∧
      k.loop.droopAt + 6 ≤ ns := by dsimp only; decide

theorem witness_DroopFlag_3 :
    let s := wL fun l => { l with droop := true }
    let t : Nat := 0
    let c : Nat := 0
    let r : Nat := 0
    let ns : Nat := 5
    let d := { s.dev with clk := { s.dev.clk with now := max s.dev.clk.now ns } }
    let k := d.cl t c
    let x := k.cell r
    s.Inv ∧ (k.loop.outOn = false ∨ k.loop.pgood = false ∨ x.mode ≠ CellMode.run ∨ 0 < x.blank ∨ x.undOut = true) := by dsimp only; decide

theorem witness_DroopFlag_4 :
    let s := wL fun l => { l with holdoff := true }
    let t : Nat := 0
    let c : Nat := 0
    let ns : Nat := 200
    let d := { s.dev with clk := { s.dev.clk with now := max s.dev.clk.now ns } }
    let k := d.cl t c
    s.Inv ∧ k.loop.holdoff = true ∧ k.loop.droop = false ∧ k.loop.droopEnd + 200 ≤ ns := by dsimp only; decide

theorem witness_FallbackAndHandover_1 :
    let s := w0
    let t : Nat := 0
    let c : Nat := 0
    let d := s.dev
    let k := d.cl t c
    let failing : List Nat := [991]
    let bad := List.filter (fun l => decide (992 ≤ l) && decide (l < 1024)) failing
    let lanes := List.filter (fun l => decide (l < 992)) failing
    let free := ({ (d.tl t).rem with badSpares := bad } : Rem).freeSpares
    s.Inv ∧ (d.live t c = false ∨ k.loop.fb = true) ∧ d.hasT t = true ∧ failing ≠ [] ∧ tst (d.tl t).rem.ctrlE 1 = true ∧ lanes.length ≤ free.length := by dsimp only; decide

theorem witness_FallbackAndHandover_2 :
    let s := w0
    let t : Nat := 2
    let d := s.dev
    s.Inv ∧ d.hasT t = false := by dsimp only; decide

theorem witness_FallbackAndHandover_3 :
    let s := wD fun d => { d with clk := { d.clk with per := 1 }, tiles := (d.onLoop 0 0 fun l => { l with handDue := some (2, 47) }).tiles }
    let t : Nat := 0
    let c : Nat := 0
    let d := s.dev
    let k := d.cl t c
    let cause : Nat := 2
    let ns : Nat := 47
    s.Inv ∧ k.loop.handDue = some (cause, ns) ∧ ns < 48 * d.clk.per := by dsimp only; decide

theorem witness_FallbackAndHandover_4 :
    let s := wL fun l => { l with fb := false }
    let t : Nat := 0
    let c : Nat := 0
    let d := s.dev
    let k := d.cl t c
    s.Inv ∧ d.live t c = true ∧ k.loop.fb = false := by dsimp only; decide

theorem witness_FallbackAndHandover_5 :
    let s := wT fun x => { x with rem := { x.rem with ctrlE := 0 } }
    let t : Nat := 0
    let failing : List Nat := [5]
    let d := s.dev
    s.Inv ∧ d.hasT t = true ∧ failing ≠ [] ∧ tst (d.tl t).rem.ctrlE 1 = false := by dsimp only; decide

theorem witness_FallbackAndHandover_7 :
    let s := wT fun x => { x with rem := { x.rem with ctrlE := 2 } }
    let t : Nat := 0
    let failing : List Nat := (0 :: List.range' 992 32)
    let d := s.dev
    let bad := List.filter (fun l => decide (992 ≤ l) && decide (l < 1024)) failing
    let lanes := List.filter (fun l => decide (l < 992)) failing
    let free := ({ (d.tl t).rem with badSpares := bad } : Rem).freeSpares
    s.Inv ∧ d.hasT t = true ∧ tst (d.tl t).rem.ctrlE 1 = true ∧ free.length < lanes.length := by dsimp only; decide

theorem witness_OuterLoop_1 :
    let s := w0
    let t : Nat := 0
    let c : Nat := 17
    s.Inv ∧ s.dev.hasC t c = true ∧ c < 18 := by dsimp only; decide

theorem witness_RequestReceipts_1 :
    let w : Word := (word [(5, 29)])
    let ty := fld w 31 29
    5 ≤ ty := by dsimp only; decide

theorem witness_RequestReceipts_2 :
    let w : Word := 1
    let ty := fld w 31 29
    ty = 0 ∧ w ≠ 0 := by dsimp only; decide

theorem witness_RequestReceipts_3 :
    let w : Word := (word [(2, 29)])
    let ty := fld w 31 29
    ty = 2 ∧ (fld w 17 9 ≠ 0 ∨ fld w 7 0 = 0) := by dsimp only; decide

theorem witness_RequestReceipts_4 :
    let w : Word := (word [(3, 29), (1, 0)])
    let ty := fld w 31 29
    ty = 3 ∧ fld w 20 0 ≠ 0 := by dsimp only; decide

theorem witness_RequestReceipts_5 :
    let d : Dev := w0.dev
    let t : Nat := 2
    let w : Word := (word [(1, 29)])
    let ty := fld w 31 29
    let c := fld w 22 18
    ty = 1 ∧ (c < 14 ∨ fld w 7 0 = 0) ∧ d.live t c = false := by dsimp only; decide

theorem witness_RequestReceipts_6 :
    let d : Dev := w0.dev
    let t : Nat := 0
    let w : Word := (word [(1, 29), (119, 8)])
    let ty := fld w 31 29
    let c := fld w 22 18
    ty = 1 ∧ (c < 14 ∨ fld w 7 0 = 0) ∧ d.live t c = true ∧ (fld w 17 8 < codeLo (domOf c) ∨ codeHi (domOf c) < fld w 17 8) := by dsimp only; decide

theorem witness_RequestReceipts_7 :
    let d : Dev := w0.dev
    let t : Nat := 0
    let w : Word := (word [(3, 29)])
    let ty := fld w 31 29
    ty = 3 ∧ fld w 20 0 = 0 ∧ (∀ (a : Await), a ∈ (d.tl t).pal.awaits → a.tnum ≠ fld w 28 21) := by dsimp only; decide

theorem witness_RequestReceipts_8 :
    let d : Dev := w0.dev
    let t : Nat := 0
    let w : Word := (word [(1, 29), (120, 8)])
    let ty := fld w 31 29
    let c := fld w 22 18
    let k := d.cl t c
    let room := d.live t c = true ∧ codeLo (domOf c) ≤ fld w 17 8 ∧ fld w 17 8 ≤ codeHi (domOf c) ∧ ty = 1 ∧ (c < 14 ∨ fld w 7 0 = 0)
    room ∧ k.seq.st = PState.D := by dsimp only; decide

theorem witness_RequestReceipts_9 :
    let d : Dev := (wC fun k => { k with seq := { k.seq with st := .A, clgrE := 2 } }).dev
    let t : Nat := 0
    let w : Word := (word [(1, 29), (120, 8), (1, 0)])
    let ty := fld w 31 29
    let c := fld w 22 18
    let k := d.cl t c
    let room := d.live t c = true ∧ codeLo (domOf c) ≤ fld w 17 8 ∧ fld w 17 8 ≤ codeHi (domOf c) ∧ ty = 1 ∧ (c < 14 ∨ fld w 7 0 = 0)
    room ∧ k.seq.st ≠ PState.D ∧ fld k.seq.clgrE 1 0 = 2 ∧ fld w 7 0 ≠ 0 ∧ k.seq.atarget ≤ fld w 17 8 := by dsimp only; decide

theorem witness_RequestReceipts_10 :
    let d : Dev := (wD fun d => { d with flt := { d.flt with safe := true }, tiles := (d.onSeq 0 0 fun q => { q with st := .A }).tiles }).dev
    let t : Nat := 0
    let w : Word := (word [(1, 29), (120, 8), (1, 0)])
    let ty := fld w 31 29
    let c := fld w 22 18
    let k := d.cl t c
    let room := d.live t c = true ∧ codeLo (domOf c) ≤ fld w 17 8 ∧ fld w 17 8 ≤ codeHi (domOf c) ∧ ty = 1 ∧ (c < 14 ∨ fld w 7 0 = 0)
    room ∧ k.seq.st ≠ PState.D ∧ fld k.seq.clgrE 1 0 ≠ 2 ∧ d.held = true ∧ k.seq.atarget < fld w 17 8 := by dsimp only; decide

theorem witness_RequestReceipts_11 :
    let d : Dev := (wC fun k => { k with seq := { k.seq with st := .A, queue := List.replicate 4 { cls := 10, kind := .setpoint, rid := some 0 } } }).dev
    let t : Nat := 0
    let w : Word := (word [(1, 29), (520, 8)])
    let ty := fld w 31 29
    let c := fld w 22 18
    let k := d.cl t c
    let room := d.live t c = true ∧ codeLo (domOf c) ≤ fld w 17 8 ∧ fld w 17 8 ≤ codeHi (domOf c) ∧ ty = 1 ∧ (c < 14 ∨ fld w 7 0 = 0)
    room ∧ k.seq.st ≠ PState.D ∧ fld k.seq.clgrE 1 0 ≠ 2 ∧ d.held = false ∧
      (4 ≤ List.countP (fun x => x.rid.isSome) k.seq.queue ∨ 16 ≤ (d.tl t).reqs) := by dsimp only; decide

theorem witness_DeviceSettings_1 :
    let s := w0
    let w : Writer := .ridge
    let v : Word := 0
    let d := s.dev
    let b := d.bud
    s.Inv ∧ d.reached w ∧ fld v 23 0 = 0 ∧ (b.hold = false ∨ b.pin = true ∨ d.clk.now < b.highSince + 1000000) ∧
      (fld v 10 0 < 1600 ∨ 2000 < fld v 10 0) ∧ (d.lnk.ctrl = 0 ∨ d.lnk.ctrl = 1) ∧ d.boot.nvdone = true ∧ d.log.nvok = false := by dsimp only [Dev.reached, actsLive]; decide

theorem witness_DeviceSettings_2 :
    let s := w0
    let w : Writer := .boot
    let v : Word := 0xFFFFFF
    let d := s.dev
    let b := d.bud
    let n : Nat := 63
    s.Inv ∧ d.reached w ∧ fld v 23 0 ≠ 0 ∧ (d.flt.safe = false ∨ fld v 23 0 ≤ b.devlim) ∧ (d.flt.safe = false ∨ fld v 23 0 ≤ b.blocal) ∧ n < 64 ∧
      (d.flt.safe = false ∨ fld v 23 0 ≤ b.grp.getD n 0) ∧ (d.lnk.ctrl = 0 ∨ d.lnk.ctrl = 1) := by dsimp only [Dev.reached, actsLive]; decide

theorem witness_DeviceSettings_3 :
    let s := wD fun d => { d with flt := { d.flt with safe := true } }
    let w : Writer := .ridge
    let v : Word := 0xFFFFFF
    let d := s.dev
    let b := d.bud
    s.Inv ∧ d.reached w ∧ d.flt.safe = true ∧ b.blocal < fld v 23 0 := by dsimp only [Dev.reached, actsLive]; decide

theorem witness_DeviceSettings_4 :
    let s := wD fun d => { d with flt := { d.flt with safe := true }, bud := { d.bud with devlim := 5, blocal := 5, grp := List.replicate 64 5 } }
    let w : Writer := .ridge
    let v : Word := 6
    let d := s.dev
    let b := d.bud
    let n : Nat := 63
    s.Inv ∧ d.reached w ∧ d.flt.safe = true ∧ b.devlim < fld v 23 0 ∧ n < 64 ∧ b.grp.getD n 0 < fld v 23 0 := by dsimp only [Dev.reached, actsLive]; decide

theorem witness_DeviceSettings_5 :
    let s := wD fun d => { d with tiles := [], bud := { d.bud with hold := true, pin := false }, clk := { d.clk with now := 1000000 } }
    let w : Writer := .host
    let d := s.dev
    let b := d.bud
    s.Inv ∧ d.reached w ∧ b.hold = true ∧ b.pin = false ∧ b.highSince + 1000000 ≤ d.clk.now := by dsimp only [Dev.reached, actsLive]; decide

theorem witness_DeviceSettings_6 :
    let s := wD fun d => { d with bud := { d.bud with hold := true, pin := false }, clk := { d.clk with now := 999999 } }
    let w : Writer := .test
    let v : Word := 1600
    let d := s.dev
    s.Inv ∧ d.reached w ∧ 1600 ≤ fld v 10 0 ∧ fld v 10 0 ≤ 2000 := by dsimp only [Dev.reached, actsLive]; decide

theorem witness_DeviceSettings_7 :
    let s := wD fun d => { d with boot := { d.boot with nvdone := false } }
    let w : Writer := .host
    let d := s.dev
    s.Inv ∧ d.reached w ∧ d.boot.nvdone = false := by dsimp only [Dev.reached, actsLive]; decide

theorem witness_DeviceSettings_8 :
    let s := wD fun d => { d with boot := { d.boot with nvdone := true, nvid := 24 }, log := { d.log with nvok := true } }
    let w : Writer := .host
    let v : Word := 0x1000000
    let n : Nat := 63
    let d := s.dev
    s.Inv ∧ d.reached w ∧ n < 64 ∧ fld v 23 0 = 0 ∧ d.boot.nvdone = true ∧ d.log.nvok = true ∧ 2 ^ fld d.boot.nvid 7 0 ≤ 32 * fld v 31 5 := by dsimp only [Dev.reached, actsLive]; decide

theorem witness_DeviceSettings_9 :
    let s := wD fun d => { d with boot := { d.boot with nvdone := true, nvid := 24 }, log := { d.log with nvok := true } }
    let w : Writer := .host
    let v : Word := 0xFFFFFF
    let d := s.dev
    s.Inv ∧ d.reached w ∧ d.boot.nvdone = true ∧ d.log.nvok = true ∧ 32 * fld v 31 5 < 2 ^ fld d.boot.nvid 7 0 := by dsimp only [Dev.reached, actsLive]; decide

theorem witness_DeviceSettings_10 :
    let s := wD fun d => { d with hp := { d.hp with closed := true } }
    let w : Writer := .host
    let v : Word := 0xFFFFFF
    let n : Nat := 63
    let d := s.dev
    let rows := [(Instr.devlimWrite w v, 8204), (Instr.localWrite w v, 8208), (Instr.alertRelease w, 8236), (Instr.avsSet w v, 96), (Instr.retrain w, 20480), (Instr.forget w n, 20480), (Instr.nvFetch w v, 120)]
    let i : Instr := Instr.retrain w
    let a : Nat := 0x5000
    s.Inv ∧ (w = Writer.host ∨ w = Writer.test) ∧ d.hp.closed = true ∧ (i, a) ∈ rows := by dsimp only; decide

theorem witness_DeviceSettings_11 :
    let s := wD fun d => { d with hp := { d.hp with closed := true } }
    let w : Writer := .host
    let n : Nat := 63
    let d := s.dev
    s.Inv ∧ (w = Writer.host ∨ w = Writer.test) ∧ d.hp.closed = true ∧ n < 64 := by dsimp only; decide

theorem witness_DeviceSettings_12 :
    let s := w0
    let w : Writer := (.rafter 0)
    let v : Word := 0xFFFFFF
    let n : Nat := 63
    let rows := [(Instr.devlimWrite w v, 8204), (Instr.localWrite w v, 8208), (Instr.alertRelease w, 8236), (Instr.avsSet w v, 96), (Instr.retrain w, 20480), (Instr.forget w n, 20480), (Instr.nvFetch w v, 120)]
    let t : Nat := 0
    let i : Instr := Instr.retrain w
    let a : Nat := 0x5000
    s.Inv ∧ w = Writer.rafter t ∧ (i, a) ∈ rows := by dsimp only; decide

theorem witness_DeviceSettings_13 :
    let s := w0
    let w : Writer := (.rafter 0)
    let t : Nat := 0
    s.Inv ∧ w = Writer.rafter t := by dsimp only; decide

theorem witness_FaultAndStartControl_1 :
    let s := w0
    let w : Writer := .ridge
    let n : Nat := 11
    let d := s.dev
    let held := d.flt.safe || d.bud.hold
    s.Inv ∧ s.dev.reached w ∧ 1 ≤ n ∧ n ≤ 11 ∧ d.flt.safe = false ∧ ((d.flt.pend.any fun p => p.level == 5) = false) ∧ held = false ∧
      d.seq.phase = 0 := by dsimp only [Dev.reached, actsLive]; decide

theorem witness_FaultAndStartControl_2 :
    let s := w0
    let w : Writer := .ridge
    let d := s.dev
    let t : Nat := 0
    let c : Nat := 0
    s.Inv ∧ s.dev.reached w ∧ d.flt.safe = false ∧ d.live t c = true := by dsimp only [Dev.reached, actsLive]; decide

theorem witness_FaultAndStartControl_3 :
    let s := wD fun d => { d with flt := { d.flt with safe := true } }
    let w : Writer := .ridge
    let d := s.dev
    let held := d.flt.safe || d.bud.hold
    s.Inv ∧ s.dev.reached w ∧ d.flt.safe = true ∧ held = true := by dsimp only [Dev.reached, actsLive]; decide

theorem witness_FaultAndStartControl_4 :
    let s := wD fun d => { d with flt := { d.flt with pend := [{ sub := 6, src := 3, scope := .device, level := 5 }] } }
    let w : Writer := .ridge
    let d := s.dev
    s.Inv ∧ s.dev.reached w ∧ ((d.flt.pend.any fun p => p.level == 5) = true) := by dsimp only [Dev.reached, actsLive]; decide

theorem witness_FaultAndStartControl_5 :
    let s := wD fun d => { d with seq := { d.seq with phase := 3 } }
    let w : Writer := .ridge
    let d := s.dev
    let held := d.flt.safe || d.bud.hold
    s.Inv ∧ s.dev.reached w ∧ held = false ∧ d.seq.phase ≠ 0 := by dsimp only [Dev.reached, actsLive]; decide

theorem witness_FaultAndStartControl_6 :
    let s := wD fun d => { d with seq := { d.seq with phase := 3 }, tiles := (d.onLoop 0 16 fun l => { l with outOn := true }).tiles }
    let w : Writer := .ridge
    let d := s.dev
    let held := d.flt.safe || d.bud.hold
    s.Inv ∧ s.dev.reached w ∧ held = false ∧ d.seq.phase ≠ 0 := by dsimp only [Dev.reached, actsLive]; decide

theorem witness_CoreControl_1 :
    let s := w0
    let w : Writer := .ridge
    let d := s.dev
    s.Inv ∧ s.dev.reached w ∧ d.ridge.halted = false ∧ ¬d.hp.rsel = true := by dsimp only [Dev.reached, actsLive]; decide

theorem witness_CoreControl_2 :
    let s := w0
    let w : Writer := .ridge
    let d := s.dev
    let t : Nat := 0
    s.Inv ∧ s.dev.reached w ∧ d.hasT t = true ∧ (d.tl t).rst = false ∧ (d.tl t).core.halted = false ∧ ¬d.hp.fsel = true := by dsimp only [Dev.reached, actsLive]; decide

theorem witness_CoreControl_3 :
    let s := wD fun d => { d with hp := { d.hp with unit := some ([], false, .program), rsel := true, fsel := true } }
    let w : Writer := .ridge
    let d := s.dev
    let ws : List Word := []
    s.Inv ∧ s.dev.reached w ∧ d.hp.unit = some (ws, false, Busy.program) ∧ d.ridge.halted = false := by dsimp only [Dev.reached, actsLive]; decide

theorem witness_CoreControl_4 :
    let s := wD fun d => { d with hp := { d.hp with unit := some ([], false, .program), rsel := true, fsel := true } }
    let w : Writer := .ridge
    let d := s.dev
    s.Inv ∧ s.dev.reached w ∧ d.hp.rsel = true := by dsimp only [Dev.reached, actsLive]; decide

theorem witness_CoreControl_5 :
    let s := wD fun d => { d with hp := { d.hp with unit := some ([], false, .program), rsel := true, fsel := true } }
    let w : Writer := .ridge
    let d := s.dev
    let t : Nat := 0
    s.Inv ∧ s.dev.reached w ∧ d.hasT t = true ∧ (d.tl t).rst = false ∧ d.hp.fsel = true := by dsimp only [Dev.reached, actsLive]; decide

theorem witness_CoreControl_6 :
    let s := wD fun d => { d with ridge := { d.ridge with halted := true, dirty := true }, hp := { d.hp with rsel := true, fsel := true }, tiles := d.tiles.map fun x => { x with core := { x.core with halted := true, dirty := true } } }
    let w : Writer := .host
    let d := s.dev
    s.Inv ∧ s.dev.reached w ∧ d.ridge.halted = true ∧ d.ridge.dirty = true ∧ d.hp.rsel = true := by dsimp only [Dev.reached, actsLive]; decide

theorem witness_CoreControl_7 :
    let s := wD fun d => { d with ridge := { d.ridge with halted := true, dirty := true }, hp := { d.hp with rsel := true, fsel := true }, tiles := d.tiles.map fun x => { x with core := { x.core with halted := true, dirty := true } } }
    let w : Writer := .host
    let d := s.dev
    let t : Nat := 0
    s.Inv ∧ s.dev.reached w ∧ d.hasT t = true ∧ (d.tl t).rst = false ∧ (d.tl t).core.halted = true ∧ (d.tl t).core.dirty = true ∧ d.hp.fsel = true := by dsimp only [Dev.reached, actsLive]; decide

theorem witness_CoreControl_8 :
    let s := wD fun d => { d with ridge := { d.ridge with halted := true, dirty := true }, tiles := d.tiles.map fun x => { x with core := { x.core with halted := true, dirty := true } } }
    let w : Writer := .host
    let d := s.dev
    s.Inv ∧ s.dev.reached w ∧ d.ridge.halted = true ∧ d.ridge.dirty = true ∧ ¬d.hp.rsel = true := by dsimp only [Dev.reached, actsLive]; decide

theorem witness_CoreControl_9 :
    let s := wD fun d => { d with ridge := { d.ridge with halted := true, dirty := true }, tiles := d.tiles.map fun x => { x with core := { x.core with halted := true, dirty := true } } }
    let w : Writer := .host
    let d := s.dev
    let t : Nat := 0
    s.Inv ∧ s.dev.reached w ∧ d.hasT t = true ∧ (d.tl t).rst = false ∧ (d.tl t).core.halted = true ∧ (d.tl t).core.dirty = true ∧ ¬d.hp.fsel = true := by dsimp only [Dev.reached, actsLive]; decide

theorem witness_CoreControl_10 :
    let s := wD fun d => { d with ridge := { d.ridge with halted := true }, tiles := d.tiles.map fun x => { x with core := { x.core with halted := true } } }
    let w : Writer := .host
    let d := s.dev
    s.Inv ∧ s.dev.reached w ∧ d.ridge.halted = true ∧ d.ridge.dirty = false := by dsimp only [Dev.reached, actsLive]; decide

theorem witness_CoreControl_11 :
    let s := wD fun d => { d with ridge := { d.ridge with halted := true }, tiles := d.tiles.map fun x => { x with core := { x.core with halted := true } } }
    let w : Writer := .host
    let d := s.dev
    let t : Nat := 0
    s.Inv ∧ s.dev.reached w ∧ d.hasT t = true ∧ (d.tl t).rst = false ∧ (d.tl t).core.halted = true ∧ (d.tl t).core.dirty = false := by dsimp only [Dev.reached, actsLive]; decide

theorem witness_ChannelControl_1 :
    let s := w0
    let w : Writer := .ridge
    let n : Nat := 1
    let on : Bool := true
    let d := s.dev
    let C := d.ch n
    let v : Word := 0
    let head := if on = true ∧ d.hp.rback = true then (d.hp.rhead + 1) % 2 ^ d.hp.log2n else d.hp.rhead
    let st := if (d.hp.rhalted && !on) = true then 4 else if on = false then 0 else if head = d.hp.rtail then 1 else 2
    s.Inv ∧ s.dev.reached w ∧ 1 ≤ n ∧ n < 8 ∧ n < d.dma.ch.length ∧ C.en ≠ on ∧ C.st ≠ 4 ∧ on = true ∧ d.ridge.on = true ∧
      fld v 11 0 < 2 ^ fld C.cfg 11 8 ∧ 4 ≤ d.hp.log2n ∧ d.hp.log2n ≤ 12 ∧ (d.ch 0).st ≠ st := by dsimp only [Dev.reached, actsLive]; decide

theorem witness_ChannelControl_2 :
    let s := w0
    let w : Writer := .ridge
    let n : Nat := 7
    let on : Bool := false
    let d := s.dev
    let C := d.ch n
    let v : Word := 0xFFF
    s.Inv ∧ s.dev.reached w ∧ 1 ≤ n ∧ n < 8 ∧ n < d.dma.ch.length ∧ C.en = on ∧ 2 ^ fld C.cfg 11 8 ≤ fld v 11 0 := by dsimp only [Dev.reached, actsLive]; decide

theorem witness_ChannelControl_3 :
    let s := w0
    let w : Writer := .ridge
    let n : Nat := 0
    let on : Bool := false
    let i : Instr := Instr.abort w n
    s.Inv ∧ s.dev.reached w ∧ n = 0 ∧ i ∈ [Instr.dmaEnable w n on, Instr.abort w n, Instr.resume w n, Instr.skip w n] := by dsimp only [Dev.reached, actsLive]; decide

theorem witness_ChannelControl_4 :
    let s := wD fun d => d.onCh 1 fun c => { c with en := true }
    let w : Writer := .ridge
    let n : Nat := 1
    let on : Bool := false
    let d := s.dev
    let C := d.ch n
    s.Inv ∧ s.dev.reached w ∧ 1 ≤ n ∧ n < 8 ∧ n < d.dma.ch.length ∧ C.en ≠ on ∧ C.st ≠ 4 ∧ on = false := by dsimp only [Dev.reached, actsLive]; decide

theorem witness_ChannelControl_5 :
    let s := wD fun d => d.onCh 1 fun c => { c with st := 4 }
    let w : Writer := .ridge
    let n : Nat := 1
    let on : Bool := true
    let d := s.dev
    let C := d.ch n
    let idle := fun (c : Chan) => if c.en = false then 0 else if c.head = c.tail then 1 else 2
    let overT := { C.clear with head := (C.head + 1) % 2 ^ fld C.cfg 11 8 }
    s.Inv ∧ s.dev.reached w ∧ 1 ≤ n ∧ n < 8 ∧ n < d.dma.ch.length ∧ C.en ≠ on ∧ C.st = 4 ∧ d.ridge.on = true ∧ C.desc = none := by dsimp only [Dev.reached, actsLive]; decide

theorem witness_ChannelControl_6 :
    let s := wD fun d => d.onCh 1 fun c => { c with st := 4, desc := some (List.replicate 8 0), phase := 3 }
    let w : Writer := .ridge
    let n : Nat := 1
    let d := s.dev
    let C := d.ch n
    s.Inv ∧ s.dev.reached w ∧ 1 ≤ n ∧ n < 8 ∧ n < d.dma.ch.length ∧ C.st = 4 ∧ C.desc.isSome = true ∧ C.phase = 3 ∧ d.ridge.on = true := by dsimp only [Dev.reached, actsLive]; decide

theorem witness_ChannelControl_7 :
    let s := wD fun d => d.onCh 1 fun c => { c with st := 4, desc := some (List.replicate 8 0), phase := 2 }
    let w : Writer := .ridge
    let n : Nat := 1
    let d := s.dev
    let C := d.ch n
    s.Inv ∧ s.dev.reached w ∧ 1 ≤ n ∧ n < 8 ∧ n < d.dma.ch.length ∧ C.st = 4 ∧ C.desc.isSome = true ∧ C.phase ≠ 3 ∧ C.en = false ∧
      d.ridge.on = true := by dsimp only [Dev.reached, actsLive]; decide

theorem witness_ChannelControl_8 :
    let s := wD fun d => d.onCh 1 fun c => { c with en := true, st := 4, desc := some [0x80000000, 4, 0, 0, 4, 0, 0, 0], phase := 2 }
    let w : Writer := .ridge
    let n : Nat := 1
    let d := s.dev
    let C := d.ch n
    let ws : List Word := [0x80000000, 4, 0, 0, 4, 0, 0, 0]
    let c := { C.clear with desc := some ws, st := 2 }
    s.Inv ∧ s.dev.reached w ∧ 1 ≤ n ∧ n < 8 ∧ n < d.dma.ch.length ∧ C.st = 4 ∧ C.desc = some ws ∧ C.phase ≠ 3 ∧ C.en = true ∧ tst (c.w 0) 31 = true ∧
      descBad c = false ∧ d.ridge.on = true := by dsimp only [Dev.reached, actsLive]; decide

theorem witness_LogControl_1 :
    let s := w0
    let w : Writer := .host
    let d := s.dev
    let l := d.log
    let mayClear := l.nonce.isSome = true ∧ l.frozen = false ∧ l.nvok = true
    s.Inv ∧ s.dev.reached w ∧ (l.frozen = true ∨ l.nvok = false) ∧ l.frozen = false ∧ l.clearing = false ∧ l.nonceAt ≠ some l.optime ∧
      d.boot.keyv = false ∧ ¬mayClear := by dsimp only [Dev.reached, actsLive]; decide

theorem witness_LogControl_2 :
    let s := wD fun d => { d with log := { d.log with nvok := true, full := true, clearing := true } }
    let w : Writer := .host
    let d := s.dev
    let l := d.log
    s.Inv ∧ s.dev.reached w ∧ l.frozen = false ∧ l.nvok = true ∧ l.erased = false ∧ (l.clearing = true ∨ l.full = true) ∧ l.clearing = true := by dsimp only [Dev.reached, actsLive]; decide

theorem witness_LogControl_3 :
    let s := wD fun d => { d with log := { d.log with nvok := true, flush := some 3 } }
    let w : Writer := .host
    let d := s.dev
    let l := d.log
    s.Inv ∧ s.dev.reached w ∧ l.frozen = false ∧ l.nvok = true ∧ (l.erased = true ∨ l.clearing = false ∧ l.full = false) ∧ l.flush.isSome = true := by dsimp only [Dev.reached, actsLive]; decide

theorem witness_LogControl_4 :
    let s := wD fun d => { d with log := { d.log with nvok := true, nonceAt := some 0, nonce := some 7 } }
    let w : Writer := .host
    let d := s.dev
    let l := d.log
    s.Inv ∧ s.dev.reached w ∧ l.frozen = false ∧ l.nvok = true ∧ (l.erased = true ∨ l.clearing = false ∧ l.full = false) ∧ l.flush = none ∧
      (∀ (b : Bucket), b ∈ l.buckets → b.supp = 0) ∧ l.nonceAt = some l.optime := by dsimp only [Dev.reached, actsLive]; decide

theorem witness_LogControl_5 :
    let s := wD fun d => { d with log := { d.log with nvok := true, nonceAt := some 0, nonce := some 7 } }
    let w : Writer := .host
    let d := s.dev
    let l := d.log
    let mayClear := l.nonce.isSome = true ∧ l.frozen = false ∧ l.nvok = true
    let n : Nat := 7
    let tag := clearTag d.boot.keyw n
    s.Inv ∧ s.dev.reached w ∧ mayClear ∧ l.clearing = false ∧ l.nonce = some n ∧ tag ≠ (l.tagl, l.tagh) := by dsimp only [Dev.reached, actsLive]; decide +kernel

theorem witness_LogControl_6 :
    let s := wD fun d => { d with log := { d.log with nvok := true, clearing := true, nonce := some 7 } }
    let w : Writer := .host
    let d := s.dev
    let l := d.log
    let mayClear := l.nonce.isSome = true ∧ l.frozen = false ∧ l.nvok = true
    s.Inv ∧ s.dev.reached w ∧ mayClear ∧ l.clearing = true := by dsimp only [Dev.reached, actsLive]; decide

theorem witness_LogControl_7 :
    let s := wD fun d => { d with log := { d.log with frozen := true }, boot := { d.boot with keyv := true } }
    let w : Writer := .host
    let d := s.dev
    let l := d.log
    s.Inv ∧ s.dev.reached w ∧ l.frozen = true ∧ l.frzN = 0 ∧ l.frzHeld = false ∧ l.nonceAt ≠ some l.optime ∧ d.boot.keyv = true := by dsimp only [Dev.reached, actsLive]; decide

theorem witness_LogControl_9 :
    let s := wD fun d => { d with log := { d.log with nvok := true, nonceAt := some 0, nonce := some 7, tagl := (clearTag d.boot.keyw 7).1, tagh := (clearTag d.boot.keyw 7).2 } }
    let w : Writer := .host
    let d := s.dev
    let l := d.log
    let mayClear := l.nonce.isSome = true ∧ l.frozen = false ∧ l.nvok = true
    let n : Nat := 7
    let tag := clearTag d.boot.keyw n
    s.Inv ∧ s.dev.reached w ∧ mayClear ∧ l.clearing = false ∧ l.nonce = some n ∧ tag = (l.tagl, l.tagh) := by dsimp only [Dev.reached, actsLive]; decide +kernel

theorem witness_TileWritesAct_1 :
    let s := w0
    let w : Writer := .boot
    let t : Nat := 0
    let d := s.dev
    let x := d.tl t
    let up := d.hasT t = true ∧ d.isoT t = false ∧ x.rst = false
    let v : Word := 1
    let n : Nat := 23
    s.Inv ∧ t < 96 ∧ actsLive w t ∧ up ∧ True ∧ x.cpm.length = 10 ∧ x.cpmGuard < 16 ∧ (fld v 15 0 ≠ 0 ∧ (d.flt.safe = false ∨ fld v 15 0 ≤ x.tcap)) ∧
      n % 32 ≤ 23 ∧ x.fus.cmd = none ∧ ¬(24 ≤ fld v 12 8 ∧ fld v 12 8 ≤ 30) ∧ x.fus.cmd = none ∧
      (¬up ∨ x.fus.run = true ∨ x.mapped (mapBytes s.mem t) = false) ∧ x.core.halted = false := by dsimp only [Dev.reached, actsLive]; decide

theorem witness_TileWritesAct_2 :
    let s := w0
    let w : Writer := .boot
    let t : Nat := 0
    let n : Nat := 24
    let d := s.dev
    let x := d.tl t
    let up := d.hasT t = true ∧ d.isoT t = false ∧ x.rst = false
    let v : Word := 0x1800
    s.Inv ∧ t < 96 ∧ actsLive w t ∧ (¬up ∨ ¬(n % 32 ≤ 23 ∧ x.fus.cmd = none)) ∧ (¬up ∨ ¬(¬(24 ≤ fld v 12 8 ∧ fld v 12 8 ≤ 30) ∧ x.fus.cmd = none)) := by dsimp only [Dev.reached, actsLive]; decide

theorem witness_TileWritesAct_3 :
    let s := w0
    let w : Writer := (.rafter 2)
    let t : Nat := 2
    let d := s.dev
    let x := d.tl t
    let up := d.hasT t = true ∧ d.isoT t = false ∧ x.rst = false
    let v : Word := 1
    s.Inv ∧ t < 96 ∧ actsLive w t ∧ (¬up ∨ ¬True) ∧ x.cpm.length = 10 ∧ x.cpmGuard < 16 ∧
      (¬up ∨ ¬(fld v 15 0 ≠ 0 ∧ (d.flt.safe = false ∨ fld v 15 0 ≤ x.tcap))) ∧ ¬up := by dsimp only [Dev.reached, actsLive]; decide

theorem witness_TileWritesAct_4 :
    let s := wR fun x => { x with halted := true }
    let w : Writer := .boot
    let t : Nat := 0
    let d := s.dev
    let x := d.tl t
    let up := d.hasT t = true ∧ d.isoT t = false ∧ x.rst = false
    s.Inv ∧ t < 96 ∧ actsLive w t ∧ x.core.halted = true ∧ x.core.dirty = false ∧ up ∧ True := by dsimp only [Dev.reached, actsLive]; decide

theorem witness_TileWritesAct_5 :
    let s := wR fun x => { x with halted := true, dirty := true }
    let w : Writer := .boot
    let t : Nat := 0
    let d := s.dev
    let x := d.tl t
    let up := d.hasT t = true ∧ d.isoT t = false ∧ x.rst = false
    s.Inv ∧ t < 96 ∧ actsLive w t ∧ up ∧ x.core.halted = true ∧ x.core.dirty = true := by dsimp only [Dev.reached, actsLive]; decide

theorem witness_FuseeAndTraceCommands_1 :
    let s := w0
    let t : Nat := 0
    let d := s.dev
    let cmd := (d.tl t).fus.cmd
    s.Inv ∧ cmd = none ∧ ¬t ∈ d.xtrig := by dsimp only; decide

theorem witness_FuseeAndTraceCommands_2 :
    let s := w0
    let w : Writer := .ridge
    let d := s.dev
    let t : Nat := 0
    s.Inv ∧ d.reached w ∧ d.hasT t = true := by dsimp only [Dev.reached, actsLive]; decide

theorem witness_FuseeAndTraceCommands_3 :
    let s := wT fun x => { x with fus := { x.fus with cmd := some (.commit 23) } }
    let t : Nat := 0
    let d := s.dev
    let cmd := (d.tl t).fus.cmd
    let n : Nat := 23
    s.Inv ∧ cmd = some (FusCmd.commit n) := by dsimp only; decide

theorem witness_FuseeAndTraceCommands_4 :
    let s := wT fun x => { x with fus := { x.fus with cmd := some (.invalidate 23) } }
    let t : Nat := 0
    let d := s.dev
    let cmd := (d.tl t).fus.cmd
    let n : Nat := 23
    s.Inv ∧ cmd = some (FusCmd.invalidate n) := by dsimp only; decide

theorem witness_FuseeAndTraceCommands_5 :
    let s := wT fun x => { x with fus := { x.fus with cmd := some (.mapw 0 0 0) } }
    let t : Nat := 0
    let d := s.dev
    let cmd := (d.tl t).fus.cmd
    let n : Nat := 0
    let D : Nat := 0
    let r : Nat := 0
    s.Inv ∧ cmd = some (FusCmd.mapw n D r) ∧ D < 4 ∧ r < 36 ∧ n ≠ 0x1F ∧ (d.tl t).fus.valid.getD n false = false := by dsimp only; decide

theorem witness_FuseeAndTraceCommands_6 :
    let s := wD fun d => { d with xtrig := [0] }
    let t : Nat := 0
    let d := s.dev
    s.Inv ∧ t ∈ d.xtrig := by dsimp only; decide

theorem witness_ReadsAndMirrors_1 :
    let s := w0
    let r : Reader := .host
    let a : Nat := 0x2018
    let t : Nat := 0
    let d := s.dev
    let x := d.mir t
    s.Inv ∧ wideTail a ≠ [] ∧ r = Reader.host ∧ t < 96 ∧ d.hasT t = true ∧ r ≠ Reader.ridge ∧ t < d.mirrors.length ∧ x.flight = [] ∧
      x.copy r = none := by dsimp only; decide

theorem witness_ReadsAndMirrors_2 :
    let s := w0
    let n : Nat := 11
    s.Inv ∧ 1 ≤ n ∧ n ≤ 11 := by dsimp only; decide

theorem witness_ReadsAndMirrors_3 :
    let s := w0
    let a : Nat := 0x2018
    let b : Nat := 0x201C
    s.Inv ∧ wideTail a ≠ [] ∧ b ∈ wideTail a := by dsimp only; decide

theorem witness_ReadsAndMirrors_4 :
    let s := wD fun d => { d with hp := { d.hp with latchR := [(0x201C, 7)] } }
    let r : Reader := .ridge
    let a : Nat := 0x201C
    let d := s.dev
    let h := d.hp
    let v : Word := 7
    s.Inv ∧ inTail a = true ∧ a < 65536 ∧ a % 4 = 0 ∧ latched (h.latch r) a = some v := by dsimp only; decide

theorem witness_ReadsAndMirrors_5 :
    let s := wD fun d => { d with hp := { d.hp with latchR := [(0x201C, 7)] } }
    let r : Reader := .ridge
    let t : Nat := 1
    let d := s.dev
    s.Inv ∧ t < 96 ∧ d.hasT t = true ∧ r = Reader.ridge := by dsimp only; decide

theorem witness_ReadsAndMirrors_6 :
    let s := wD fun d => { d with mirrors := List.replicate 2 { flight := [{}], host := some ({}, 0) } }
    let t : Nat := 0
    let d := s.dev
    let x := d.mir t
    let y : Snap := {}
    let l : List Snap := []
    s.Inv ∧ x.flight = y :: l ∧ (d.lostT t = false ∨ d.reach.contains t = false ∨ d.routes t = false) ∧ d.reach.contains t = true ∧
      d.routes t = true := by dsimp only; decide

theorem witness_ReadsAndMirrors_7 :
    let s := wD fun d => { d with mirrors := List.replicate 2 { flight := [{}], host := some ({}, 0) } }
    let t : Nat := 0
    let d := s.dev
    let x := d.mir t
    let y : Snap := {}
    let l : List Snap := []
    let b : Nat := 0x201C
    s.Inv ∧ x.flight = y :: l ∧ b ≠ t := by dsimp only; decide

theorem witness_ReadsAndMirrors_8 :
    let s := wD fun d => { d with mirrors := List.replicate 2 { flight := [{}], host := some ({}, 0) } }
    let r : Reader := .host
    let t : Nat := 0
    let ns : Nat := 100000
    let d := s.dev
    let x := d.mir t
    let p : Snap × Nat := ({}, 0)
    s.Inv ∧ x.copy r = some p ∧ p.snd + 100000 ≤ max d.clk.now ns := by dsimp only; decide

theorem witness_ReadsAndMirrors_9 :
    let s := wD fun d => { d with mirrors := List.replicate 2 { flight := [{}], host := some ({}, 0) } }
    let r : Reader := .host
    let t : Nat := 0
    let ns : Nat := 99999
    let d := s.dev
    let x := d.mir t
    let p : Snap × Nat := ({}, 0)
    s.Inv ∧ x.copy r = some p ∧ max d.clk.now ns < p.snd + 100000 := by dsimp only; decide

theorem witness_ReadsAndMirrors_10 :
    let s := w0
    let n : Nat := 1
    s.Inv ∧ 1 ≤ n ∧ n ≤ 11 := by dsimp only; decide

theorem witness_ReadsAndMirrors_11 :
    let s := w0
    let n : Nat := 7
    s.Inv ∧ n < 8 := by dsimp only; decide

theorem witness_CommandUnit_1 :
    let s := w0
    let h := s.dev.hp
    let i : Instr := Instr.nop
    s.Inv ∧ (h.ready = false ∨ h.unit.isSome = true) ∧
      i ∈ [Instr.nop, Instr.cmdSetp, Instr.cmdPstate, Instr.cmdCapset, Instr.cmdFmaxw, Instr.cmdTblsel, Instr.cmdQry, Instr.cmdTrig, Instr.cmdGrant, Instr.write, Instr.read, Instr.fence, Instr.waitt, Instr.ping, Instr.userCommand, Instr.unknownOpcode] := by dsimp only; decide

theorem witness_CommandUnit_2 :
    let s := w0
    let h := s.dev.hp
    s.Inv ∧ h.held = false ∧ (h.ren = false ∨ h.rhalted = true ∨ h.unit.isSome = true ∨ h.rhead = h.rtail) := by dsimp only; decide

theorem witness_CommandUnit_3 :
    let s := wD fun d => { d with hp := { d.hp with ready := true, exec := 0x80000012, handle := 0, arg0 := 0, arg1 := 0 } }
    let h := s.dev.hp
    let op := fld h.exec 7 0
    let clean := fld h.exec 30 24 = 0 ∧ fld h.exec 23 16 = 0
    s.Inv ∧ h.ready = true ∧ h.unit = none ∧ op = 18 ∧ clean ∧ h.handle = 0 ∧ h.arg0 = 0 ∧ h.arg1 = 0 := by dsimp only; decide

theorem witness_CommandUnit_4 :
    let s := wD fun d => { d with hp := { d.hp with ready := true, exec := 0x80000013, handle := 0, arg0 := 1000000, arg1 := 0 } }
    let h := s.dev.hp
    let d := s.dev
    let op := fld h.exec 7 0
    let clean := fld h.exec 30 24 = 0 ∧ fld h.exec 23 16 = 0
    s.Inv ∧ h.ready = true ∧ h.unit = none ∧ op = 19 ∧ clean ∧ h.handle = 0 ∧ h.arg1 = 0 ∧
      BitVec.toInt (h.arg0 - BitVec.ofNat 32 d.clk.tick) ≤ 1000000 := by dsimp only; decide

theorem witness_CommandUnit_5 :
    let s := wD fun d => { d with hp := { d.hp with ready := true, exec := 0x80000040, handle := 0, arg0 := 0, arg1 := 0 } }
    let h := s.dev.hp
    let d := s.dev
    let op := fld h.exec 7 0
    s.Inv ∧ h.ready = true ∧ h.unit = none ∧ (op = 64 ∨ 65 ≤ op ∧ op ≤ 127) ∧ d.ridge.isHalted = false := by dsimp only; decide

theorem witness_CommandUnit_6 :
    let s := wD fun d => { d with hp := { d.hp with ready := true, exec := 0x8000007F, handle := 0, arg0 := 0, arg1 := 0 }, ridge := { d.ridge with halted := true } }
    let h := s.dev.hp
    let d := s.dev
    let op := fld h.exec 7 0
    s.Inv ∧ h.ready = true ∧ h.unit = none ∧ (op = 64 ∨ 65 ≤ op ∧ op ≤ 127) ∧ d.ridge.isHalted = true := by dsimp only; decide

theorem witness_CommandUnit_7 :
    let s := wD fun d => { d with hp := { d.hp with unit := some ([], false, .program), held := true, heldAt := 0 }, ridge := { d.ridge with loaded := true } }
    let v : Word := 9
    let h := s.dev.hp
    let d := s.dev
    let k : List Word := []
    s.Inv ∧ h.unit = some (k, false, Busy.program) ∧ h.held = true ∧ d.ridge.loaded = true ∧ fld v 7 0 ≤ 9 ∧ d.clk.now < h.heldAt + 1000000 * h.pto := by dsimp only; decide

theorem witness_CommandUnit_8 :
    let s := wD fun d => { d with clk := { d.clk with now := 10000000 }, hp := { d.hp with unit := some ([], false, .program), held := true, heldAt := 0 } }
    let h := s.dev.hp
    let d := s.dev
    let k : List Word := []
    s.Inv ∧ h.unit = some (k, false, Busy.program) ∧ h.held = true ∧ d.ridge.loaded = false ∧ h.heldAt + 1000000 * h.pto ≤ d.clk.now := by dsimp only; decide

theorem witness_CommandUnit_9 :
    let s := wD fun d => { d with hp := { d.hp with ren := true, rtail := 1 } }
    let w0 : Word := 0
    let h := s.dev.hp
    let d := s.dev
    s.Inv ∧ h.ren = true ∧ h.rhalted = false ∧ h.unit = none ∧ h.rhead ≠ h.rtail ∧ tst w0 31 = false ∧ 0 < d.dma.ch.length := by dsimp only; decide

theorem witness_CommandUnit_10 :
    let s := wD fun d => { d with hp := { d.hp with ren := true, rtail := 1 } }
    let w0 : Word := 0x80000000
    let h := s.dev.hp
    let d := s.dev
    s.Inv ∧ h.ren = true ∧ h.rhalted = false ∧ h.unit = none ∧ h.rhead ≠ h.rtail ∧ tst w0 31 = true ∧
      (fld w0 7 0 = 0 ∨ opcodeListed (fld w0 7 0) = false) ∧ 0 < d.dma.ch.length := by dsimp only; decide

theorem witness_CommandUnit_11 :
    let s := wD fun d => { d with hp := { d.hp with ren := true, rtail := 1 } }
    let w0 : Word := 0x80000040
    let h := s.dev.hp
    let d := s.dev
    s.Inv ∧ h.ren = true ∧ h.rhalted = false ∧ h.unit = none ∧ h.rhead ≠ h.rtail ∧ tst w0 31 = true ∧ fld w0 7 0 = 64 ∧ d.ridge.isHalted = false := by dsimp only; decide

theorem witness_CommandUnit_12 :
    let s := wD fun d => { d with hp := { d.hp with unit := some ([], false, .fence 0) } }
    let h := s.dev.hp
    let d := s.dev
    let k : List Word := []
    let n : Nat := 0
    s.Inv ∧ h.unit = some (k, false, Busy.fence n) ∧ d.fenceOk n = true := by dsimp only; decide

theorem witness_CommandUnit_13 :
    let s := wD fun d => { d with hp := { d.hp with unit := some ([], false, .fence 1) }, issued := 1, air := [{ src := .host, tile := 0, cluster := 0, op := 0, seq := 0, kind := .trig }] }
    let h := s.dev.hp
    let d := s.dev
    let k : List Word := []
    let n : Nat := 1
    s.Inv ∧ h.unit = some (k, false, Busy.fence n) ∧ d.fenceOk n = false := by dsimp only; decide

theorem witness_CommandUnit_14 :
    let s := wD fun d => { d with hp := { d.hp with unit := some ([], false, .waitt 0) } }
    let h := s.dev.hp
    let d := s.dev
    let k : List Word := []
    let n : Word := 0
    s.Inv ∧ h.unit = some (k, false, Busy.waitt n) ∧ 0 ≤ (BitVec.ofNat 32 d.clk.tick - n).toInt := by dsimp only; decide

theorem witness_CommandUnit_15 :
    let s := wD fun d => { d with hp := { d.hp with unit := some ([], false, .waitt 1) } }
    let h := s.dev.hp
    let d := s.dev
    let k : List Word := []
    let n : Word := 1
    s.Inv ∧ h.unit = some (k, false, Busy.waitt n) ∧ (BitVec.ofNat 32 d.clk.tick - n).toInt < 0 := by dsimp only; decide

theorem witness_DmaTransfers_1 :
    let s := wD fun d => { d with dma := { d.dma with ch := d.dma.ch.modify 1 fun c => { c with en := true, st := 2, tail := 1 } } }
    let n : Nat := 1
    let words : List Word := (List.replicate 8 0)
    let d := s.dev
    let C := d.ch n
    let due := C.en = true ∧ C.st = 2 ∧ C.desc = none ∧ C.head ≠ C.tail
    let ws := if C.rloc = true then List.map (fun i => Mem.readW s.mem (ridgeD + (BitVec.toNat C.rbl + 32 * C.head + 4 * i) % 65536)) (List.range 8) else words
    let c := { C.clear with desc := some ws, st := 2 }
    let data : List Byte := []
    let used := List.foldl (fun x1 x2 => x1 + x2) 0 (List.map (fun c => c.slots.length) d.dma.ch)
    let k := min (C.len - C.rd) (min (256 - (C.src + C.rd) % 256) (256 - (C.dst + C.rd) % 256))
    let l := if C.ssp = 0 then data else spaceRead s.mem d C.ssp C.tile (C.src + C.rd) k
    let may := C.st = 2 ∧ C.desc.isSome = true ∧ C.wb = false ∧ C.rd < C.len ∧ C.slots.length < C.maxslot ∧ used < 64 ∧ l.length = k ∧ (C.ssp = 1 → d.log.flush = none)
    s.Inv ∧ 1 ≤ n ∧ n < 8 ∧ n < s.dev.dma.ch.length ∧ due ∧ (tst (c.w 0) 31 = false ∨ descBad c = true) ∧ ¬may ∧
      (C.slots = [] ∨ C.wb = true ∨ C.st ≠ 2 ∧ C.st ≠ 3) ∧ (C.desc = none ∨ C.wb = false ∧ C.abt = false ∨ C.st = 4) := by dsimp only; decide

theorem witness_DmaTransfers_2 :
    let s := wD fun d => { d with dma := { d.dma with ch := d.dma.ch.modify 7 fun c => { c with en := true, st := 2, tail := 1 } } }
    let n : Nat := 7
    let words : List Word := [0x80002000, 4, 0, 0, 0, 0, 0, 0]
    let d := s.dev
    let C := d.ch n
    let due := C.en = true ∧ C.st = 2 ∧ C.desc = none ∧ C.head ≠ C.tail
    let ws := if C.rloc = true then List.map (fun i => Mem.readW s.mem (ridgeD + (BitVec.toNat C.rbl + 32 * C.head + 4 * i) % 65536)) (List.range 8) else words
    let c := { C.clear with desc := some ws, st := 2 }
    s.Inv ∧ 1 ≤ n ∧ n < 8 ∧ n < s.dev.dma.ch.length ∧ due ∧ tst (c.w 0) 31 = true ∧ descBad c = false ∧ descStatus d c ≠ 0 := by dsimp only; decide

theorem witness_DmaTransfers_3 :
    let s := wD fun d => { d with dma := { d.dma with ch := d.dma.ch.modify 7 fun c => { c with en := true, st := 2, tail := 1 } }, ridge := { d.ridge with halted := true } }
    let n : Nat := 7
    let words : List Word := [0x80002000, 4, 0, 0, 0, 0, 0, 0]
    let d := s.dev
    let C := d.ch n
    let due := C.en = true ∧ C.st = 2 ∧ C.desc = none ∧ C.head ≠ C.tail
    let ws := if C.rloc = true then List.map (fun i => Mem.readW s.mem (ridgeD + (BitVec.toNat C.rbl + 32 * C.head + 4 * i) % 65536)) (List.range 8) else words
    let c := { C.clear with desc := some ws, st := 2 }
    s.Inv ∧ 1 ≤ n ∧ n < 8 ∧ n < s.dev.dma.ch.length ∧ due ∧ tst (c.w 0) 31 = true ∧ descBad c = false ∧ descStatus d c = 0 ∧ c.bcast = false := by dsimp only; decide

theorem witness_DmaTransfers_4 :
    let s := wD fun d => { d with dma := { d.dma with ch := d.dma.ch.modify 7 fun c => { c with en := true, st := 2, tail := 1 } } }
    let n : Nat := 7
    let words : List Word := [0xA0004000, 4, 0, 0, 0, 0, 0, 0]
    let d := s.dev
    let C := d.ch n
    let due := C.en = true ∧ C.st = 2 ∧ C.desc = none ∧ C.head ≠ C.tail
    let ws := if C.rloc = true then List.map (fun i => Mem.readW s.mem (ridgeD + (BitVec.toNat C.rbl + 32 * C.head + 4 * i) % 65536)) (List.range 8) else words
    let c := { C.clear with desc := some ws, st := 2 }
    s.Inv ∧ 1 ≤ n ∧ n < 8 ∧ n < s.dev.dma.ch.length ∧ due ∧ tst (c.w 0) 31 = true ∧ descBad c = false ∧ descStatus d c = 0 ∧ c.bcast = true := by dsimp only; decide

theorem witness_DmaTransfers_5 :
    let s := wD fun d => { d with dma := { d.dma with ch := d.dma.ch.modify 1 fun c => { c with en := true } } }
    let n : Nat := 1
    let d := s.dev
    let C := d.ch n
    let due := C.en = true ∧ C.st = 2 ∧ C.desc = none ∧ C.head ≠ C.tail
    s.Inv ∧ 1 ≤ n ∧ n < 8 ∧ n < s.dev.dma.ch.length ∧ ¬due := by dsimp only; decide

theorem witness_DmaTransfers_6 :
    let s := wD fun d => { d with dma := { d.dma with ch := d.dma.ch.modify 1 fun c => { c with en := true, st := 2, cfg := 0x00080610, desc := some [0x80002000, 8, 0, 0, 0, 0, 0, 0] } } }
    let n : Nat := 1
    let data : List Byte := (List.replicate 8 0xA5)
    let bad : Bool := false
    let d := s.dev
    let C := d.ch n
    let used := List.foldl (fun x1 x2 => x1 + x2) 0 (List.map (fun c => c.slots.length) d.dma.ch)
    let k := min (C.len - C.rd) (min (256 - (C.src + C.rd) % 256) (256 - (C.dst + C.rd) % 256))
    let l := if C.ssp = 0 then data else spaceRead s.mem d C.ssp C.tile (C.src + C.rd) k
    let may := C.st = 2 ∧ C.desc.isSome = true ∧ C.wb = false ∧ C.rd < C.len ∧ C.slots.length < C.maxslot ∧ used < 64 ∧ l.length = k ∧ (C.ssp = 1 → d.log.flush = none)
    s.Inv ∧ 1 ≤ n ∧ n < 8 ∧ n < s.dev.dma.ch.length ∧ may ∧ bad = false := by dsimp only; decide

theorem witness_DmaTransfers_7 :
    let s := wD fun d => { d with dma := { d.dma with ch := d.dma.ch.modify 1 fun c => { c with en := true, st := 2, cfg := 0x00080610, desc := some [0x80002000, 8, 0, 0, 0, 0, 0, 0] } } }
    let n : Nat := 1
    let data : List Byte := (List.replicate 8 0xA5)
    let bad : Bool := true
    let d := s.dev
    let C := d.ch n
    let used := List.foldl (fun x1 x2 => x1 + x2) 0 (List.map (fun c => c.slots.length) d.dma.ch)
    let k := min (C.len - C.rd) (min (256 - (C.src + C.rd) % 256) (256 - (C.dst + C.rd) % 256))
    let l := if C.ssp = 0 then data else spaceRead s.mem d C.ssp C.tile (C.src + C.rd) k
    let may := C.st = 2 ∧ C.desc.isSome = true ∧ C.wb = false ∧ C.rd < C.len ∧ C.slots.length < C.maxslot ∧ used < 64 ∧ l.length = k ∧ (C.ssp = 1 → d.log.flush = none)
    s.Inv ∧ 1 ≤ n ∧ n < 8 ∧ n < s.dev.dma.ch.length ∧ may ∧ bad = true ∧ ¬C.rd ∈ C.reread := by dsimp only; decide

theorem witness_DmaTransfers_8 :
    let s := wD fun d => { d with dma := { d.dma with ch := d.dma.ch.modify 1 fun c => { c with en := true, st := 2, cfg := 0x00080610, desc := some [0x80002000, 8, 0, 0, 0, 0, 0, 0], reread := [0] } } }
    let n : Nat := 1
    let data : List Byte := (List.replicate 8 0xA5)
    let bad : Bool := true
    let d := s.dev
    let C := d.ch n
    let used := List.foldl (fun x1 x2 => x1 + x2) 0 (List.map (fun c => c.slots.length) d.dma.ch)
    let k := min (C.len - C.rd) (min (256 - (C.src + C.rd) % 256) (256 - (C.dst + C.rd) % 256))
    let l := if C.ssp = 0 then data else spaceRead s.mem d C.ssp C.tile (C.src + C.rd) k
    let may := C.st = 2 ∧ C.desc.isSome = true ∧ C.wb = false ∧ C.rd < C.len ∧ C.slots.length < C.maxslot ∧ used < 64 ∧ l.length = k ∧ (C.ssp = 1 → d.log.flush = none)
    s.Inv ∧ 1 ≤ n ∧ n < 8 ∧ n < s.dev.dma.ch.length ∧ may ∧ bad = true ∧ C.rd ∈ C.reread := by dsimp only; decide

theorem witness_DmaTransfers_9 :
    let s := wD fun d => { d with dma := { d.dma with ch := d.dma.ch.modify 1 fun c => { c with en := true, st := 2, cfg := 0x00080610, desc := some [0x80002000, 8, 0, 0, 0, 0, 0, 0], rd := 8, slots := [{ off := 0, data := List.replicate 8 0xA5 }] } } }
    let n : Nat := 1
    let d := s.dev
    let C := d.ch n
    let b : Burst := { off := 0, data := List.replicate 8 0xA5 }
    let r : List Burst := []
    let shut := fun (t : Nat) => if C.dsp = 1 then d.dma.nvwen = false else 2 ≤ C.dsp ∧ C.dsp ≤ 5 ∧ spaceCond d C.dsp t = false
    s.Inv ∧ 1 ≤ n ∧ n < 8 ∧ n < s.dev.dma.ch.length ∧ C.slots = b :: r ∧ C.desc.isSome = true ∧ C.wb = false ∧ (C.st = 2 ∨ C.st = 3) ∧
      C.bcast = false ∧ shut C.tile := by dsimp only; decide

theorem witness_DmaTransfers_10 :
    let s := wD fun d => { d with dma := { d.dma with ch := d.dma.ch.modify 1 fun c => { c with en := true, st := 2, desc := some [0x80000200, 8, 0, 0, 0, 0, 0, 0], rd := 8, slots := [{ off := 0, data := List.replicate 8 0xA5 }] } } }
    let n : Nat := 1
    let d := s.dev
    let C := d.ch n
    let b : Burst := { off := 0, data := List.replicate 8 0xA5 }
    let r : List Burst := []
    let shut := fun (t : Nat) => if C.dsp = 1 then d.dma.nvwen = false else 2 ≤ C.dsp ∧ C.dsp ≤ 5 ∧ spaceCond d C.dsp t = false
    let held := C.dsp = 1 ∧ d.log.flush.isSome = true
    s.Inv ∧ 1 ≤ n ∧ n < 8 ∧ n < s.dev.dma.ch.length ∧ C.slots = b :: r ∧ C.desc.isSome = true ∧ C.wb = false ∧ (C.st = 2 ∨ C.st = 3) ∧
      (C.bcast = true ∨ ¬shut C.tile) ∧ ¬held ∧ b.bad = false ∧ b.data ≠ [] ∧ C.dsp ≤ 7 ∧
      (C.bcast = true ∨ 4 ≤ C.dsp → C.dst + b.off + b.data.length ≤ spaceSize d C.dsp C.tile) := by dsimp only; decide

theorem witness_DmaTransfers_11 :
    let s := wD fun d => { d with dma := { d.dma with ch := d.dma.ch.modify 1 fun c => { c with en := true, st := 2, desc := some [0x80000200, 8, 0, 0, 0, 0, 0, 0], rd := 8, slots := [{ off := 0, data := List.replicate 8 0xA5 }] } } }
    let n : Nat := 1
    let d := s.dev
    let C := d.ch n
    let b : Burst := { off := 0, data := List.replicate 8 0xA5 }
    let r : List Burst := []
    let shut := fun (t : Nat) => if C.dsp = 1 then d.dma.nvwen = false else 2 ≤ C.dsp ∧ C.dsp ≤ 5 ∧ spaceCond d C.dsp t = false
    let into := if C.bcast = true then List.filter (fun t => !C.refused.any fun p => p.fst == t) d.tilesOn else [C.tile]
    let out := List.filter (fun t => !(C.bcast && decide (shut t))) into
    let held := C.dsp = 1 ∧ d.log.flush.isSome = true
    let q : Nat := 2 ^ 40
    s.Inv ∧ 1 ≤ n ∧ n < 8 ∧ n < s.dev.dma.ch.length ∧ C.slots = b :: r ∧ C.desc.isSome = true ∧ C.wb = false ∧ (C.st = 2 ∨ C.st = 3) ∧
      (C.bcast = true ∨ ¬shut C.tile) ∧ ¬held ∧ b.bad = false ∧ b.data ≠ [] ∧ C.dsp ≤ 7 ∧
      (C.bcast = true ∨ 4 ≤ C.dsp → C.dst + b.off + b.data.length ≤ spaceSize d C.dsp C.tile) ∧
      (C.dsp = 0 ∨ ∀ (t : Nat), t ∈ out → q < spaceBase C.dsp t + (C.dst + b.off) ∨ spaceBase C.dsp t + (C.dst + b.off) + b.data.length ≤ q) := by dsimp only; decide

theorem witness_DmaTransfers_12 :
    let s := wD fun d => { d with dma := { d.dma with ch := d.dma.ch.modify 1 fun c => { c with en := true, st := 2, desc := some [0xC0002000, 8, 0, 0, 0, 0, 0, 0], rd := 8, wr := 8, wb := true, head := 63 } } }
    let n : Nat := 1
    let d := s.dev
    let C := d.ch n
    s.Inv ∧ 1 ≤ n ∧ n < 8 ∧ n < s.dev.dma.ch.length ∧ C.desc.isSome = true ∧ (C.wb = true ∨ C.abt = true) ∧ C.st ≠ 4 ∧ d.ridge.on = true ∧
      C.rloc = false := by dsimp only; decide

theorem witness_DmaTransfers_13 :
    let s := wD fun d => { d with dma := { d.dma with ch := d.dma.ch.modify 1 fun c => { c with en := true, st := 2, tail := 5, desc := some [0x80002000, 8, 0, 0, 0, 0, 0, 0], rd := 8, wr := 8, wb := true, head := 3, cfg := 0x00081610 } } }
    let n : Nat := 1
    let d := s.dev
    let C := d.ch n
    s.Inv ∧ 1 ≤ n ∧ n < 8 ∧ n < s.dev.dma.ch.length ∧ C.desc.isSome = true ∧ (C.wb = true ∨ C.abt = true) ∧ C.st ≠ 4 ∧ C.rloc = true ∧
      BitVec.toNat C.rbl % 32 = 0 := by dsimp only; decide

theorem witness_DmaTransfers_14 :
    let s := wD fun d => { d with dma := { d.dma with ch := d.dma.ch.modify 1 fun c => { c with en := true, st := 2, tail := 5, desc := some [0x80002000, 8, 0, 0, 0, 0, 0, 0], rd := 8, wr := 8, wb := true, head := 3, cfg := 0x00081610 } } }
    let n : Nat := 1
    let d := s.dev
    let C := d.ch n
    let e := ridgeD + (BitVec.toNat C.rbl + 32 * C.head) % 65536
    let q : Nat := 2 ^ 40
    s.Inv ∧ 1 ≤ n ∧ n < 8 ∧ n < s.dev.dma.ch.length ∧ C.desc.isSome = true ∧ (C.wb = true ∨ C.abt = true) ∧ C.st ≠ 4 ∧ C.rloc = true ∧
      BitVec.toNat C.rbl % 32 = 0 ∧ ¬(e ≤ q ∧ q < e + 4) ∧ ¬(e + 24 ≤ q ∧ q < e + 28) := by dsimp only; decide

theorem witness_DmaErrors_1 :
    let s := wD fun d => { d with hp := { d.hp with ren := true } }
    let n : Nat := 0
    let addr : Nat := 0x1FFFFFFFF
    let d := s.dev
    let base := BitVec.toNat d.hp.rbasel + 2 ^ 32 * BitVec.toNat d.hp.rbaseh
    let ringWb := Option.any (fun w => decide (base + 16 * w.fst ≤ addr ∧ addr < base + 16 * w.fst + 16)) d.hp.wback
    let C := d.ch n
    let live := C.st = 2 ∨ C.st = 3
    s.Inv ∧ n = 0 ∧ (d.hp.ren = true ∨ ringWb = true) ∧ 0 < d.dma.ch.length ∧ (ringWb = false ∨ d.hp.rback = true) ∧
      (¬live ∨ C.desc = none ∨ C.wb = true) ∧ d.boot.nvdone = true := by dsimp only; decide

theorem witness_DmaErrors_2 :
    let s := w0
    let n : Nat := 0
    let addr : Nat := 4
    let d := s.dev
    let base := BitVec.toNat d.hp.rbasel + 2 ^ 32 * BitVec.toNat d.hp.rbaseh
    let ringWb := Option.any (fun w => decide (base + 16 * w.fst ≤ addr ∧ addr < base + 16 * w.fst + 16)) d.hp.wback
    s.Inv ∧ n = 0 ∧ d.hp.ren = false ∧ ringWb = false := by dsimp only; decide

theorem witness_DmaErrors_3 :
    let s := wD fun d => { d with dma := { d.dma with ch := d.dma.ch.modify 1 fun c => { c with st := 2 } } }
    let n : Nat := 1
    let d := s.dev
    let C := d.ch n
    let live := C.st = 2 ∨ C.st = 3
    s.Inv ∧ 1 ≤ n ∧ n < d.dma.ch.length ∧ live ∧ C.desc = none ∧ C.rloc = false := by dsimp only; decide

theorem witness_DmaErrors_4 :
    let s := wD fun d => { d with dma := { d.dma with ch := d.dma.ch.modify 1 fun c => { c with st := 2, wb := true, desc := some [0x80002000, 8, 0, 0, 0, 0, 0, 0] } } }
    let n : Nat := 1
    let addr : Nat := 0x1FFFFFFFC
    let d := s.dev
    let C := d.ch n
    let live := C.st = 2 ∨ C.st = 3
    let back := C.wb = true ∨ C.abt = true ∧ C.entry C.head ≤ addr ∧ addr < C.entry C.head + 32
    s.Inv ∧ 1 ≤ n ∧ n < d.dma.ch.length ∧ live ∧ C.desc.isSome = true ∧ back ∧ C.rloc = false := by dsimp only; decide

theorem witness_DmaErrors_5 :
    let s := wD fun d => { d with dma := { d.dma with ch := d.dma.ch.modify 1 fun c => { c with st := 2, desc := some [0x80002000, 8, 0, 0, 0, 0, 0, 0] } } }
    let n : Nat := 1
    let addr : Nat := 0x1FFFFFFFC
    let d := s.dev
    let C := d.ch n
    let live := C.st = 2 ∨ C.st = 3
    let back := C.wb = true ∨ C.abt = true ∧ C.entry C.head ≤ addr ∧ addr < C.entry C.head + 32
    s.Inv ∧ 1 ≤ n ∧ n < d.dma.ch.length ∧ live ∧ C.desc.isSome = true ∧ ¬back ∧ C.ssp = 0 := by dsimp only; decide

theorem witness_DmaErrors_6 :
    let s := wD fun d => { d with dma := { d.dma with ch := d.dma.ch.modify 1 fun c => { c with st := 3, desc := some [0x80000200, 8, 0, 0, 0, 0, 0, 0] } } }
    let n : Nat := 1
    let addr : Nat := 0x1FFFFFFFC
    let d := s.dev
    let C := d.ch n
    let live := C.st = 2 ∨ C.st = 3
    let back := C.wb = true ∨ C.abt = true ∧ C.entry C.head ≤ addr ∧ addr < C.entry C.head + 32
    s.Inv ∧ 1 ≤ n ∧ n < d.dma.ch.length ∧ live ∧ C.desc.isSome = true ∧ ¬back ∧ C.ssp ≠ 0 ∧ C.dsp = 0 := by dsimp only; decide

theorem witness_DmaErrors_7 :
    let s := wD fun d => { d with dma := { d.dma with ch := d.dma.ch.modify 1 fun c => { c with st := 2, desc := some [0x80000100, 8, 0, 0, 0, 0, 0, 0] } } }
    let n : Nat := 1
    let d := s.dev
    let C := d.ch n
    let live := C.st = 2 ∨ C.st = 3
    s.Inv ∧ n < d.dma.ch.length ∧ live ∧ C.desc.isSome = true ∧ C.wb = false ∧ C.ssp = 1 := by dsimp only; decide

theorem witness_DmaErrors_8 :
    let s := wD fun d => { d with dma := { d.dma with ch := d.dma.ch.modify 1 fun c => { c with st := 2, desc := some [0x80001000, 8, 0, 0, 0, 0, 0, 0] } } }
    let n : Nat := 1
    let d := s.dev
    let C := d.ch n
    let live := C.st = 2 ∨ C.st = 3
    s.Inv ∧ n < d.dma.ch.length ∧ live ∧ C.desc.isSome = true ∧ C.wb = false ∧ C.ssp ≠ 1 ∧ C.dsp = 1 := by dsimp only; decide

theorem witness_DmaErrors_9 :
    let s := wD fun d => { d with dma := { d.dma with ch := d.dma.ch.modify 1 fun c => { c with st := 0 } }, boot := { d.boot with nvdone := false } }
    let n : Nat := 1
    let d := s.dev
    let C := d.ch n
    let live := C.st = 2 ∨ C.st = 3
    s.Inv ∧ 1 ≤ n ∧ ¬live ∧ d.boot.nvdone = false ∧ d.log.flush = none := by dsimp only; decide

theorem witness_StepKeepsInv : ∃ t, w0.Inv ∧ step w0 = .next t := ⟨w0, by decide, rfl⟩

theorem witness_MemoryFrame : ∃ t, writesMem .avsbusAcknowledge = false ∧ exec .avsbusAcknowledge w0 = .next t := ⟨_, rfl, rfl⟩

theorem witness_StateSpaceLaw :
    let x : SampleIn := { c := 0, xp := [], y := [], f := [1, 2, 3, 4], beta := [], miss := List.replicate 8 false, rep := [], lim := [] }
    (∀ i, i < 8 → x.miss.getD i true = false ∧ x.rep.getD i false = false ∧ x.lim.getD i (0, 767) = (0, 767)) ∧ x.f.length = 4 := by
  dsimp only; decide

theorem w_cell (r : Nat) : ({} : Cluster).cell r = {} := by
  match r with
  | 0 | 1 | 2 | 3 | 4 | 5 | 6 | 7 | n + 8 => rfl

theorem witness_DutyWordsInRange :
    let j : VoteJob := { c := 0, xp := [], y := [], f := [], miss := [], slot := 0, beta := [], pre := [], rep := [], lims := [(0, 767)], prev := [767], errs := [], start := 0, seen := 0 }
    let s := wD fun d => { d with tiles := [{ clusters := [{ loop := { lastW := [767] }, cells := [{ duty := 767, fword := some 767, wnext := some (5, 767) }] }], rem := { queue := [j] } }] }
    s.dev.dutiesInRange := by
  intro j s
  have hx : ∀ x : Cell, x = {} → x.duty ≤ 767 ∧ (∀ w, x.fword = some w → w ≤ 767) ∧ ∀ n w, x.wnext = some (n, w) → w ≤ 767 := by
    rintro _ rfl; exact ⟨Nat.zero_le _, fun w h => (by cases h), fun n w h => (by cases h)⟩
  refine ⟨fun t c r => ?_, fun t c => ?_, fun t => ?_⟩
  · match t, c, r with
    | 0, 0, 0 => exact ⟨by decide, fun w h => (by cases h; decide), fun n w h => (by cases h; decide)⟩
    | 0, 0, r + 1 => exact hx _ rfl
    | 0, c + 1, r => exact hx _ (w_cell r)
    | t + 1, c, r => exact hx _ (w_cell r)
  · match t, c with
    | 0, 0 => decide
    | 0, c + 1 => exact fun _ h => by cases h
    | t + 1, c => exact fun _ h => by cases h
  · match t with
    | 0 => decide
    | t + 1 => exact fun _ h => by cases h

theorem witness_UndefinedAndNotReady_wait :
    let s := wK fun x => { x with waiting := some { a := 1, mask := 1, deadline := none } }
    s.Inv ∧ kxCore (.wait .ridge 1 2 3 true) = some .ridge ∧ s.dev.ready .ridge = false := by dsimp only; decide

theorem witness_UndefinedAndNotReady_words :
    let op := fun (w : Word) => w.toNat / 2 ^ 26
    op 0 = 0 ∧ (op 0x2C003FFF = 0x0B ∧ (0x2C003FFF : Word).toNat % 2 ^ 14 ≠ 0) ∧ (op 0x50040000 = 0x14 ∧ (0x50040000 : Word).toNat / 2 ^ 18 % 16 ≠ 0) ∧
      (op 0x54000020 = 0x15 ∧ (0x54000020 : Word).toNat % 2 ^ 18 / 32 ≠ 0) ∧ (op 0x83C00000 = 0x20 ∧ (0x83C00000 : Word).toNat / 2 ^ 22 % 16 = 15) ∧
      (op 0x84040000 = 0x21 ∧ (0x84040000 : Word).toNat / 2 ^ 18 % 16 ≠ 0) ∧ (op 0x88004000 = 0x22 ∧ (0x88004000 : Word).toNat / 2 ^ 14 % 16 ≠ 0) ∧
      (op 0x8C000001 = 0x23 ∧ (0x8C000001 : Word).toNat % 2 ^ 26 ≠ 0) ∧ (op 0x2C000000 = 0x0B ∧ (0x2C000000 : Word).toNat % 2 ^ 14 = 0) ∧
      op 0x4FFFFFFF = 0x13 ∧ op 0x7FFFFFFF = 0x1F ∧ (op 0x83800000 = 0x20 ∧ (0x83800000 : Word).toNat / 2 ^ 22 % 16 ≠ 15) ∧
      (0x8C000000 : Word).toNat = 0x23 * 2 ^ 26 ∧ op 0xEBFFFFFF = 0x3A := by dsimp only; decide

theorem witness_UndefinedAndNotReady_places :
    let s := wK fun x => { x with pc := 0x10000 }
    w0.Inv ∧ w0.dev.ready .ridge = true ∧ inCode .ridge (w0.dev.core .ridge).pc = true ∧ undefinedWord 0 = true ∧ undefinedWord 0x04000000 = false ∧
      s.Inv ∧ s.dev.ready .ridge = true ∧ inCode .ridge 0xFFFFFFFC = false := by dsimp only; decide

theorem witness_BranchesAndJumps_rete :
    let s := wK fun x => { x with active := true, evmask := 1, evpend := 1, eflags := 0x003FFF1F }
    s.Inv ∧ s.dev.ready .ridge = true ∧ (s.dev.core .ridge).active = true := by dsimp only; decide

theorem witness_SpecialRegisters_stop :
    let s := wK fun x => { x with g := x.g.set 1 0x8000000F }
    let w := (s.dev.core .ridge).rd 1
    s.Inv ∧ s.dev.ready .ridge = true ∧ tst w 31 = true ∧ fld w 15 0 < 16 := by dsimp only; decide

theorem witness_LoadStoreRefusals_places :
    let ea := fun (_ : CoreId) (v : Word) => (((wK fun x => { x with g := x.g.set 2 v }).dev.core .ridge).rd 2 + sext18 0).toNat
    placeOf .ridge (ea .ridge 0x100000) = .window 0 ∧ placeOf .ridge 0x16FFFE = .window 0x6FFFE ∧ placeOf .ridge (ea .ridge 0x10000) = .nowhere ∧
      placeOf (.rafter 0) 0x300000 = .fmax 0 ∧ placeOf (.rafter 0) 0x30A7FC = .fmax 0xA7FC ∧ placeOf (.rafter 0) 0x30A800 = .nowhere := by
  dsimp only; decide

theorem witness_WaitAndItsEnd_event :
    let y : Waiting := { a := 1, mask := 0x30000, deadline := none }
    let s := wK fun x => { x with evpend := 0x30000, waiting := some y }
    let x := s.dev.core .ridge
    s.Inv ∧ s.dev.hasCore .ridge = true ∧ x.runs = true ∧ s.dev.entryDue .ridge = none ∧ x.waiting = some y ∧
      (s.dev.pendOf .ridge &&& y.mask).toNat.testBit 16 = true ∧ ∀ j, j < 16 → (s.dev.pendOf .ridge &&& y.mask).toNat.testBit j = false := by
  dsimp only; decide

theorem witness_WaitAndItsEnd_deadline :
    let y : Waiting := { a := 1, mask := 0, deadline := some 0 }
    let s := wK fun x => { x with waiting := some y }
    let x := s.dev.core .ridge
    s.Inv ∧ s.dev.hasCore .ridge = true ∧ x.runs = true ∧ s.dev.entryDue .ridge = none ∧ x.waiting = some y ∧
      s.dev.pendOf .ridge &&& y.mask = 0 ∧ y.deadline = some 0 ∧ 0 ≤ (BitVec.ofNat 32 s.dev.clk.tick - 0).toInt := by dsimp only; decide

/-- A program of 64 bytes in the Ridge's instruction RAM: header (R320), then zeros. -/
def wImage : List Host.Cell :=
  Mem.writeL [] 0 (wordBytes 0x4B585047 ++ wordBytes 0x101 ++ wordBytes 64 ++ wordBytes 32 ++ wordBytes (nw (crc32 (Mem.readL [] 32 32))) ++ wordBytes 7 ++
    wordBytes 0 ++ wordBytes 0)

theorem witness_WatchdogAndLoadCheck_passed :
    let s := { wK fun x => { x with checking := some 6 } with mem := wImage }
    s.Inv ∧ s.dev.hasCore .ridge = true ∧ (s.dev.core .ridge).checking = some 6 ∧ loadOutcome s.mem .ridge = 1 := by
  dsimp only; decide +kernel

theorem witness_PurlinDeliveries_operation :
    let f : Flying := { src := .host, tile := 0, cluster := 0, op := 0x31, seq := 0, kind := .regw 0x0C 0, no := 0 }
    let s := wD fun d => { d with air := [f] }
    s.Inv ∧ s.dev.air.find? (fun f => f.src == .host && f.tile == 0) = some f ∧ s.dev.noMsgBefore .host 0 f.no = true ∧
      ∀ o h l n, f.kind ≠ .sub o h l n := ⟨by decide, rfl, by decide, fun _ _ _ _ h => by cases h⟩

theorem witness_FallbackAndHandover_none :
    w0.Inv ∧ ∀ cause ns, (w0.dev.cl 0 0).loop.handDue = some (cause, ns) → 48 * w0.dev.clk.per ≤ ns := ⟨by decide, fun _ _ h => by cases h⟩

theorem witness_FallbackAndHandover_repair :
    let d := (wT fun x => { x with rem := { x.rem with ctrlE := 2 } }).dev
    let r : Rem := { (d.tl 0).rem with badSpares := [] }
    let q : Rem := { (d.tl 0).rem with badSpares := List.range' 993 31 }
    d.hasT 0 = true ∧ tst (d.tl 0).rem.ctrlE 1 = true ∧ r.freeSpares = 992 :: List.range' 993 31 ∧ [0, 991].length ≤ r.freeSpares.length ∧
      q.freeSpares = [992] ∧ q.freeSpares.length < [0, 991].length := by dsimp only; decide

theorem witness_SamplesAndRepeats_none :
    let r := (w0.dev.tl 0).rem
    w0.Inv ∧ ∀ j : VoteJob, ¬ (r.queue.find? (fun j => j.c == 0 && j.fin.isNone) = some j ∧
      (j.own = true ∨ ∀ q ∈ r.queue, q.c ≠ 0 → (∃ e, q.fin = some e ∧ e ≤ 0) ∨ q.own = false ∧ q.fin = none)) :=
  ⟨by decide, fun _ h => by cases h.1⟩

/-- A waiting repeat of cluster c00, and the state with that repeat in front, the cluster under the law with its output on. -/
def wJ : VoteJob :=
  { c := 0, xp := [], y := [], f := [], miss := [], slot := 0, beta := [], pre := [], rep := [], lims := [], prev := [], errs := [], start := 0, seen := 0, own := true }

def wJs (on : Bool) : State := wT fun x => { x with
  rem := { x.rem with queue := [{ wJ with c := 1, fin := some 0 }, wJ] }
  clusters := x.clusters.modify 0 fun k => { k with loop := { k.loop with outOn := on, fb := !on }, seq := { k.seq with chg := .none } } }

theorem witness_SamplesAndRepeats_turn :
    let r := ((wJs true).dev.tl 0).rem
    let k := (wJs true).dev.cl 0 0
    (wJs true).Inv ∧ (wJs true).dev.hasC 0 0 = true ∧ r.queue.find? (fun j => j.c == 0 && j.fin.isNone) = some wJ ∧ wJ.own = true ∧ k.loop.fb = false ∧
      k.loop.outOn = true ∧ k.seq.move = none ∧ k.seq.held = [] ∧ k.seq.queue = [] ∧ k.seq.cur = none ∧ k.seq.chg = .none ∧ k.quiet = false := by
  dsimp only; decide

theorem witness_SamplesAndRepeats_off :
    let r := ((wJs false).dev.tl 0).rem
    (wJs false).Inv ∧ r.queue.find? (fun j => j.c == 0 && j.fin.isNone) = some wJ ∧ wJ.own = true ∧ ((wJs false).dev.cl 0 0).loop.outOn = false := by
  dsimp only; decide

theorem w_steady (d : Dev) (h : ∀ x ∈ d.tiles, ∀ k ∈ x.clusters, ∀ y ∈ k.cells, y.shed = .steady) : ∀ t c, ∀ y ∈ (d.cl t c).cells, y.shed = .steady := by
  intro t c y hy
  have hd : ∀ k : Cluster, k = {} → y ∈ k.cells → y.shed = .steady := by
    rintro _ rfl hy; rw [List.eq_of_mem_replicate hy]
  simp only [Dev.cl, Dev.tl, List.getD] at hy
  cases ht : d.tiles[t]? with
  | none => rw [ht] at hy; exact hd _ rfl hy
  | some x =>
    rw [ht] at hy
    cases hc : x.clusters[c]? with
    | none => simp only [Option.getD_some] at hy; rw [hc] at hy; exact hd _ rfl hy
    | some k =>
      simp only [Option.getD_some] at hy; rw [hc] at hy
      exact h x (List.mem_of_getElem? ht) k (List.mem_of_getElem? hc) y hy

/-- An acknowledgement that cluster c00 in state a awaits since 0 ns under number 5, for a change to b or, without one, for a frequency. -/
def wA (a : PState) (b : Option PState) (on : Bool) : State := wD fun d => { d with
  seq := { d.seq with phase := 3 }
  log := { d.log with cfg := 0 }
  tiles := (d.onT 0 fun x => { x with
    pal := { x.pal with awaits := [{ tnum := 5, c := 0, st := b, sent := 0 }] }
    clusters := x.clusters.modify 0 fun k => { k with
      loop := { k.loop with outOn := on }
      seq := { k.seq with st := a, chgTnum := 5, chg := match b with | some x => .asked x | none => .none
                          cur := match b with | some _ => none | none => some { cls := 10, kind := .setpoint, tnum := 5, step := 2, code := 300 } } } }).tiles }

theorem witness_TimeoutsAndPowerOns_setpoint :
    let s := wA .A none true
    let d := s.dev
    let a : Await := { tnum := 5, c := 0, st := none, sent := 0 }
    s.Inv ∧ (d.tl 0).pal.awaits.find? (fun a => a.tnum == 5 && a.sent + 1000 * fld d.seq.cfg 21 16 ≤ 20000) = some a ∧ 0 < d.tiles.length ∧
      d.flt.levelOf 5 1 (.cluster 0 0) < 4 ∧ d.log.frzFull = false ∧ 1000 ≤ (d.log.bucket 0x501).tokens ∧ a.c < (d.tl 0).clusters.length ∧
      (d.cl 0 0).seq.cur = some { cls := 10, kind := .setpoint, tnum := 5, step := 2, code := 300 } := by dsimp only; decide

theorem witness_TimeoutsAndPowerOns_active :
    let d := (wA .A (some .B1) true).dev
    (wA .A (some .B1) true).Inv ∧ (d.tl 0).pal.awaits.find? (fun a => a.tnum == 5 && a.sent + 1000 * fld d.seq.cfg 21 16 ≤ 20000) =
      some { tnum := 5, c := 0, st := some .B1, sent := 0 } ∧ (d.cl 0 0).seq.chgTnum = 5 ∧ (d.cl 0 0).seq.st = .A := by dsimp only; decide

theorem witness_TimeoutsAndPowerOns_stays :
    let s := wA .B1 (some .B2) true
    let d := { s.dev with seq := { s.dev.seq with phase := 0 } }
    ({ s with dev := d } : State).Inv ∧ d.mayWake 0 0 true = false ∧ (d.cl 0 0).seq.chgTnum = 5 ∧ (d.cl 0 0).seq.st ≠ .A := by dsimp only; decide

theorem witness_TimeoutsAndPowerOns_wakes :
    let b1 := wA .B1 (some .B2) true
    let b2 := wA .B2 (some .B3) true
    let off := wA .B3 (some .D) false
    b1.Inv ∧ b1.dev.mayWake 0 0 true = true ∧ (b1.dev.cl 0 0).seq.st = .B1 ∧ (b1.dev.cl 0 0).loop.outOn = true ∧ b2.Inv ∧ b2.dev.mayWake 0 0 true = true ∧
      (b2.dev.cl 0 0).seq.st ≠ .B1 ∧ (b2.dev.cl 0 0).loop.outOn = true ∧ off.Inv ∧ off.dev.mayWake 0 0 true = true ∧ (off.dev.cl 0 0).seq.st ≠ .A ∧
      (off.dev.cl 0 0).loop.outOn = false := by dsimp only; decide

theorem witness_TimeoutsAndPowerOns_steady :
    ∀ s ∈ [wA .B1 (some .B2) true, wA .B2 (some .B3) true, wA .B3 (some .D) false], ∀ t c, ∀ x ∈ (s.dev.cl t c).cells, x.shed = .steady := by
  intro s hs; apply w_steady; revert s; decide

/-- Cluster c of tile 0 waits for admission since 0 ns; `n` is SEQ_CFG. -/
def wWait (c : Nat) (n : Word) : State :=
  wD fun d => { (d.onSeq 0 c fun q => { q with chg := .waiting, st := .B3 }) with seq := { d.seq with cfg := n }, log := { d.log with cfg := 0 } }

theorem witness_TimeoutsAndPowerOns_admitted :
    let s := wWait 10 w0.dev.seq.cfg
    let d := s.dev
    let q := (d.cl 0 10).seq
    s.Inv ∧ q.chg = .waiting ∧ q.track = false ∧ q.qtr = false ∧ q.admitted = false ∧ q.wakeAt + 1000 * fld d.seq.adm 7 0 ≤ 255000 ∧ domOf 10 ≠ .L ∧
      (d.tl 0).ramping < fld d.seq.cfg 26 24 ∧ d.flt.levelOf 5 4 (.cluster 0 10) < 4 ∧ d.log.frzFull = false ∧ 1000 ≤ (d.log.bucket 0x504).tokens ∧
      ∀ t c, ∀ x ∈ (s.dev.cl t c).cells, x.shed = .steady :=
  ⟨by decide, by decide, by decide, by decide, by decide, by decide, by decide, by decide, by decide, by decide, by decide, w_steady _ (by decide)⟩

theorem witness_TimeoutsAndPowerOns_full :
    let s := wWait 10 0
    let d := s.dev
    s.Inv ∧ (d.cl 0 10).seq.chg = .waiting ∧ domOf 10 ≠ .L ∧ ¬ (d.tl 0).ramping < fld d.seq.cfg 26 24 ∧
      ∀ t c, ∀ x ∈ (s.dev.cl t c).cells, x.shed = .steady := ⟨by decide, by decide, by decide, by decide, w_steady _ (by decide)⟩

theorem witness_TimeoutsAndPowerOns_L :
    let s := wWait 0 w0.dev.seq.cfg
    let d := s.dev
    s.Inv ∧ (d.cl 0 0).seq.chg = .waiting ∧ domOf 0 = .L ∧
      ¬ ∀ x ∈ (d.tl 0).sOfL 0, (d.cl 0 x).loop.outOn = true ∧ (d.cl 0 x).loop.pgood = true ∨ d.live 0 x = false := by dsimp only; decide

theorem witness_TimeoutsAndPowerOns_bootstrap :
    let s := wC fun k => { k with seq := { k.seq with chg := .bootstrap } }
    let q := (s.dev.cl 0 0).seq
    s.Inv ∧ q.chg = .bootstrap ∧ q.track = false ∧ q.target ≠ some q.atarget := by dsimp only; decide

theorem witness_OuterLoop_missing :
    let s := wX fun x => { x with latches := [{ ima := 0, vin := 0, vcode := 0, miss := true }] }
    s.Inv ∧ s.dev.hasC 0 0 = true ∧ ((s.dev.cl 0 0).cell 0).missLast = true ∧ 0 < (s.dev.cl 0 0).cells.length := by dsimp only; decide

theorem witness_HintTokens_notReady :
    let e : Esc := { fifo := [⟨0x100040FA, 0, 0⟩, ⟨0xFF, 0, 0⟩, ⟨1, 0, 0⟩] }
    let ns := 15
    1 ≤ fld (0x100040FA : Word) 31 28 ∧ tokenLen 0x100040FA ≤ e.fifo.length ∧
      ∀ x, e.fifo[tokenLen 0x100040FA - 1]? = some x → ¬ ((x.ns + 15) / 16 * 16 + 16 ≤ ns ∧ ∀ p, e.lastSched = some p → p + 8 ≤ ns) := by
  refine ⟨by decide, by decide, fun x h => ?_⟩
  have : x = ⟨1, 0, 0⟩ := by injection h with h; exact h.symm
  subst this; exact fun h => absurd h.1 (by decide)

theorem witness_HintTokens_ready :
    let e : Esc := { lastSched := some 8 }
    let ns := 16
    (0 + 15) / 16 * 16 + 16 ≤ ns ∧ ∀ p, e.lastSched = some p → p + 8 ≤ ns := ⟨by decide, fun p h => by cases h; decide⟩

theorem witness_QuietWindows_start :
    let s := wC fun k => { k with seq := { k.seq with st := .A }, esc := { k.esc with wins := [{ w := 0, e := 5 }] } }
    let k := s.dev.cl 0 0
    s.Inv ∧ s.dev.hasT 0 = true ∧ k.esc.wins.find? (fun x => !x.inForce && x.w ≤ s.dev.clk.tick) = some { w := 0, e := 5 } ∧ k.quiet = false ∧
      k.seq.st = .A ∧ k.guardNow = k.esc.guard ∧ (∀ y ∈ k.cells, y.shed = .steady) ∧ (s.dev.tl 0).core.on = true := by dsimp only; decide

theorem witness_QuietWindows_end :
    let s := wC fun k => { k with esc := { k.esc with wins := [{ w := 0, e := 0, inForce := true }] } }
    s.Inv ∧ s.dev.hasT 0 = true ∧ (s.dev.cl 0 0).esc.wins.find? (fun x => x.inForce && x.e ≤ s.dev.clk.tick) = some { w := 0, e := 0, inForce := true } := by
  dsimp only; decide

theorem witness_ReturnSlots_forced :
    let s := wT fun x => { x with pal := { x.pal with forced := [.state 1 0 .B2] } }
    s.Inv ∧ s.dev.hasT 0 = true ∧ (s.dev.tl 0).pal.forced = .state 1 0 .B2 :: [] := by dsimp only; decide

theorem witness_ReturnSlots_lowered :
    let p := ((wT fun x => { x with pal := { x.pal with lowered := [10751], value := [(10751, 3)] } }).dev.tl 0).pal
    p.forced = [] ∧ p.ptr = none ∧ p.lowered = [10751] ∧ p.value = [(10751, 3)] := by dsimp only; decide

theorem witness_ReturnSlots_run :
    let p := ((wT fun x => { x with pal := { x.pal with ptr := some 10749, lowered := [10749], value := [(10749, 3)] } }).dev.tl 0).pal
    p.forced = [] ∧ p.ptr = some 10749 ∧ 10749 + 2 < 10752 ∧ p.lowered = [10749] ∧ p.value = [(10749, 3)] := by dsimp only; decide

theorem witness_ReturnSlots_frames :
    let rest := fun l => ((wT fun x => { x with pal := { x.pal with rest := l } }).dev.tl 0).pal.rest
    rest [.fsync 127 0 5] = .fsync 127 0 5 :: [] ∧ rest [.fup 1 0 5] = .fup 1 0 5 :: [] ∧ rest [.done 1 0 5 0] = .done 1 0 5 0 :: [] ∧
      rest [.state 1 0 .B1] = .state 1 0 .B1 :: [] ∧ w0.dev.clusterHeld 0 0 = false := by dsimp only; decide

theorem witness_FaultAndStartControl_start :
    w0.Inv ∧ w0.dev.reached .ridge ∧ (w0.dev.flt.safe || w0.dev.bud.hold) = false ∧
      ¬ (w0.dev.seq.phase ≠ 0 ∨ w0.dev.sBelowL = true ∨ ∃ t, w0.dev.hasT t = true ∧ (w0.dev.tl t).rem.bist = 1) ∧
      w0.dev.live 0 17 = true ∧ w0.dev.thmHeld 0 17 = false := by
  refine ⟨by decide, trivial, rfl, ?_, by decide, by decide⟩
  rintro (h | h | ⟨t, h, g⟩)
  · exact absurd h (by decide)
  · exact absurd h (by decide)
  · match t, g with
    | 0, g => exact absurd g (by decide)
    | 1, g => exact absurd g (by decide)
    | n + 2, g => exact absurd h (by change ¬ (false = true); decide)

theorem witness_FaultAndStartControl_unforced :
    let s := wD fun d => { d with tiles := [] }
    s.Inv ∧ s.dev.reached .ridge ∧ (∀ t c, (s.dev.cl t c).seq.force = false) ∧ ∀ t c, ∀ x ∈ (s.dev.cl t c).cells, x.shed = .steady :=
  ⟨by decide, trivial, fun _ _ => rfl, fun _ _ x h => by rw [List.eq_of_mem_replicate h]⟩

theorem witness_FaultAndStartControl_stop :
    let s := wD fun d => { d with seq := { d.seq with phase := 3 }, tiles := (d.onLoop 0 16 fun l => { l with outOn := true }).tiles }
    s.Inv ∧ (s.dev.flt.safe || s.dev.bud.hold) = false ∧ s.dev.seq.phase ≠ 0 ∧ ∃ t c, s.dev.live t c = true ∧ domOf c = .M ∧ (s.dev.cl t c).loop.outOn = true :=
  ⟨by decide, by decide, by decide, 0, 16, by decide⟩

theorem witness_DeviceSettings_release :
    let s := wD fun d => { d with tiles := [], bud := { d.bud with hold := true, pin := false, highSince := 5 }, clk := { d.clk with now := 1000005 } }
    s.Inv ∧ s.dev.reached .host ∧ s.dev.bud.hold = true ∧ s.dev.bud.pin = false ∧ s.dev.bud.highSince + 1000000 ≤ s.dev.clk.now ∧
      ∀ t c, (s.dev.cl t c).seq.force = false := ⟨by decide, rfl, by decide, by decide, by decide, fun _ _ => rfl⟩

theorem witness_ChannelControl_changes :
    let s := wD fun d => { d with dma := { d.dma with ch := d.dma.ch.modify 7 fun c => { c with tail := 1 } } }
    let C := s.dev.ch 7
    s.Inv ∧ C.en = false ∧ C.st ≠ 4 ∧ C.st = 0 ∧ C.head ≠ C.tail ∧ s.dev.ridge.on = true := by dsimp only; decide

theorem witness_TileWritesSent_rows :
    let rows : List (Instr × Nat × Word) := [(.returnCluster .ridge 95 17, 0x80 * 17 + 0x68, 1)]
    w0.Inv ∧ 95 < 96 ∧ 17 < 18 ∧ (.returnCluster .ridge 95 17, 0x8E8, 1) ∈ rows ∧ (w0.dev.mir 0).stale = false ∧ w0.dev.hp.closed = false ∧ (3 : Nat) ≠ 0 := by
  dsimp only; decide

theorem witness_TileWritesAct_run :
    let s := { wT fun x => { x with clusters := [{ present := true }] } with mem := Mem.writeL [] (storeBase 0 + 0xF080) (List.replicate 64 23) }
    s.Inv ∧ actsLive .boot 0 ∧ s.dev.hasT 0 = true ∧ (s.dev.tl 0).rst = false ∧ (s.dev.tl 0).fus.run = false ∧
      (s.dev.tl 0).mapped (mapBytes s.mem 0) = true := ⟨by decide, .inl rfl, by decide, by decide, by decide, by decide⟩

theorem witness_FuseeAndTraceCommands_map :
    let s := wT fun x => { x with fus := { x.fus with cmd := some (.mapw 0x1F 3 0) } }
    s.Inv ∧ (s.dev.tl 0).fus.cmd = some (.mapw 0x1F 3 0) ∧ (s.dev.tl 0).fus.run = false := by dsimp only; decide

theorem witness_ReadsAndMirrors_counts :
    let s := wC fun k => { k with loop := { k.loop with ovcnt := 3 } }
    s.Inv ∧ s.dev.hasT 0 = true ∧ 0 < s.dev.mirrors.length ∧ (s.dev.mir 0).copy .host = none ∧ 0x8E4 < 0x1000 ∧ (31, 16) ∈ rcFields 0x8E4 ∧
      (1 : Nat) ∈ List.range 8 := by dsimp only; decide

theorem witness_RidgeLink_members :
    let m : List Member := [{ count := 1, report := List.replicate 8 0 }, { count := 2, member := true }, { resv := true }]
    let s := wD fun d => { d with lnk := { d.lnk with acting := true, collecting := true, members := m } }
    s.Inv ∧ s.dev.lnk.acting = true ∧ s.dev.lnk.collecting = true ∧ 2 < m.length ∧ (m.getD 0 {}).count = 1 ∧ (m.getD 0 {}).member = false ∧
      (m.getD 1 {}).count ≠ 1 ∧ (m.getD 1 {}).member = true ∧ (m.getD 2 {}).count ≠ 1 ∧ (m.getD 2 {}).member = false := by dsimp only; decide

theorem witness_Recorder_full :
    let s := wD fun d => { d with log := { d.log with flush := some 2, wptr := 131070 } }
    s.Inv ∧ s.dev.log.flush = some 2 ∧ 131071 - s.dev.log.wptr ≤ min 2 (8 - s.dev.log.wptr % 8) ∧ s.dev.log.wptr < 131071 := by dsimp only; decide

theorem witness_BootAndResets_awake :
    let s := wD fun d => { d with boot := { d.boot with fast := true } }
    s.Inv ∧ s.dev.boot.fast = true ∧ s.dev.hasCore (.rafter 1) = true ∧ (∀ t, CoreId.rafter 1 = .rafter t → (s.dev.tl t).rst = false) ∧
      s.dev.selLoaded (.rafter 1) = false := ⟨by decide, by decide, by decide, fun t h => by injection h with h; subst h; decide, by decide⟩

theorem witness_BootAndResets_transfer :
    let s := wD fun d => { d with dma := { d.dma with ch := d.dma.ch.modify 7 fun c => { c with st := 2, desc := some [0x80004001, 4, 0, 0, 0, 0, 0, 0] } } }
    let C := s.dev.ch 7
    s.Inv ∧ s.dev.boot.porst = false ∧ s.dev.hasT 1 = true ∧ C.desc.isSome = true ∧ C.wb = false ∧ C.st ≠ 4 ∧ 4 ≤ C.tileSp ∧ C.bcast = false ∧ C.tile = 1 := by
  dsimp only; decide

theorem witness_AlertScrubMargin_places :
    let bad : List EccPlace := [.traceRecord 0 0, .burst 1 0, .logRecord 7, .coreRam .ridge, .coreRom (.rafter 0), .fuseeSlot 0 5, .fuseeBlock 1 0xF086, .loopState 0 0, .fmax 0 10751]
    let s := wD fun d => { d with
      flt := { d.flt with scrub := 1 }, log := { d.log with buf := [{ code := 6, optime := 7, seq := 7 }] }
      dma := { d.dma with ch := d.dma.ch.modify 1 fun c => { c with slots := [{ off := 0, data := [0xA5] }] } }
      tiles := (d.onT 0 fun x => { x with trace := { x.trace with recs := [[0]] } }).tiles }
    let d := s.dev
    s.Inv ∧ .traceRecord 0 0 ∈ bad ∧ d.hasT 0 = true ∧ 0 < (d.tl 0).trace.recs.length ∧ .burst 1 0 ∈ bad ∧ (d.ch 1).slots.any (·.off == 0) = true ∧
      .logRecord 7 ∈ bad ∧ d.log.buf.any (·.seq == 7) = true ∧ .coreRam .ridge ∈ bad ∧ d.hasCore .ridge = true ∧ .coreRom (.rafter 0) ∈ bad ∧
      d.hasCore (.rafter 0) = true ∧ .fuseeSlot 0 5 ∈ bad ∧ .fuseeBlock 1 0xF086 ∈ bad ∧ d.hasT 1 = true ∧ .loopState 0 0 ∈ bad ∧ d.hasC 0 0 = true ∧
      .fmax 0 10751 ∈ bad ∧ tst d.flt.scrub 0 = true := by dsimp only; decide

theorem witness_AlertScrubMargin_none :
    let s := wD fun d => { d with flt := { d.flt with scrub := 0 } }
    s.Inv ∧ tst s.dev.flt.scrub 0 = false := by dsimp only; decide

theorem witness_BoardClocksTestMesh_extest : (wD fun d => { d with seq := { d.seq with phase := 3 } }).Inv ∧ (3 : Nat) ≠ 0 := by decide

theorem witness_ChannelControl_bad :
    let s := wD fun d => d.onCh 1 fun c => { c with en := true, st := 4, desc := some (List.replicate 8 0), phase := 2 }
    let C := s.dev.ch 1
    let c := { C.clear with desc := some (List.replicate 8 0), st := 2 }
    s.Inv ∧ C.en = true ∧ C.st = 4 ∧ C.desc = some (List.replicate 8 0) ∧ C.phase ≠ 3 ∧ tst (c.w 0) 31 = false := by dsimp only; decide

theorem witness_ChannelControl_resume :
    let ws : List Word := [0xA0004000, 4, 0, 0, 4, 0, 0, 0]
    let s := wD fun d => d.onCh 1 fun c => { c with en := true, st := 4, desc := some ws, phase := 2 }
    let C := s.dev.ch 1
    let c := { C.clear with desc := some ws, st := 2 }
    s.Inv ∧ C.desc = some ws ∧ C.phase ≠ 3 ∧ tst (c.w 0) 31 = true ∧ descBad c = false ∧ descStatus s.dev c = 0 ∧ c.bcast = true := by dsimp only; decide

theorem witness_ClusterWritesAct_caps :
    let s := wD fun d => { d with flt := { d.flt with safe := true }, tiles := (d.onC 0 0 fun k => { k with bud := { k.bud with cap := 5 } }).tiles }
    s.Inv ∧ s.dev.live 0 0 = true ∧ ¬ (fld (6 : Word) 15 0 ≠ 0 ∧ (s.dev.flt.safe = false ∨ fld (6 : Word) 15 0 ≤ (s.dev.cl 0 0).bud.cap)) := by dsimp only; decide

theorem witness_DmaErrors_back :
    let w : List Word := [0x80002000, 8, 0, 0, 0, 0, 0, 0]
    let on := fun f => wD fun d => { d with dma := { d.dma with ch := d.dma.ch.modify 1 f } }
    let a := on fun c => { c with st := 2, desc := some w, abt := true, head := 3 }
    let b := on fun c => { c with st := 2, desc := some w, wb := true, cfg := 0x00081610 }
    let c := on fun c => { c with st := 3, desc := some [0x80002200, 8, 0, 0, 0, 0, 0, 0] }
    a.Inv ∧ (a.dev.ch 1).abt = true ∧ (a.dev.ch 1).entry 3 = 96 ∧ b.Inv ∧ (b.dev.ch 1).wb = true ∧ (b.dev.ch 1).rloc = true ∧ (b.dev.ch 1).abt = false ∧
      c.Inv ∧ (c.dev.ch 1).ssp ≠ 0 ∧ (c.dev.ch 1).dsp ≠ 0 ∧ (c.dev.ch 1).wb = false := by dsimp only; decide

theorem witness_DmaErrors_ring :
    let s := wD fun d => { d with hp := { d.hp with wback := some (3, 0, 0) } }
    let base := s.dev.hp.rbasel.toNat + 2 ^ 32 * s.dev.hp.rbaseh.toNat
    s.Inv ∧ 0 < s.dev.dma.ch.length ∧ (s.dev.hp.wback.any fun w => decide (base + 16 * w.1 ≤ 63 ∧ 63 < base + 16 * w.1 + 16)) = true ∧
      s.dev.hp.rback = false := by dsimp only; decide

/-- Channel 1 with a destination burst of eight bytes of `w`'s transfer in its first slot. -/
def wB (w : Word) (b : Bool) (st : Nat) (l : List Nat) : State := wD fun d => { d with dma := { d.dma with ch := d.dma.ch.modify 1 fun c =>
  { c with en := true, st := st, desc := some [w, 8, 0, 0, 0, 0, 0, 0], rd := 8, slots := [{ off := 0, data := List.replicate 8 0xA5, bad := b }], reread := l } } }

theorem witness_DmaTransfers_bad :
    (∀ s ∈ [wB 0x80000200 true 3 [], wB 0x80000200 true 2 [], wB 0x80000200 true 2 [0]], s.Inv ∧ (s.dev.ch 1).dsp = 0 ∧ (s.dev.ch 1).bcast = false ∧
      (s.dev.ch 1).wb = false ∧ ((s.dev.ch 1).slots.map (·.bad)) = [true]) ∧ (0 : Nat) ∉ ((wB 0x80000200 true 2 []).dev.ch 1).reread ∧
      0 ∈ ((wB 0x80000200 true 2 [0]).dev.ch 1).reread := by decide

theorem witness_DmaTransfers_shut :
    let s := wB 0x80001000 false 2 []
    let h := wB 0x80002000 false 2 []
    let f := { s.dev with dma := { s.dev.dma with nvwen := true }, log := { s.dev.log with flush := some 1 } }
    s.Inv ∧ (s.dev.ch 1).dsp = 1 ∧ s.dev.dma.nvwen = false ∧ ({ s with dev := f } : State).Inv ∧ f.log.flush.isSome = true ∧ f.dma.nvwen = true ∧
      h.Inv ∧ (h.dev.ch 1).dsp = 2 ∧ (h.dev.ch 1).bcast = false ∧ spaceCond h.dev 2 0 = false := by dsimp only; decide

theorem witness_DmaTransfers_broadcast :
    let s := wB 0xA0004000 false 2 []
    let C := s.dev.ch 1
    s.Inv ∧ C.bcast = true ∧ C.dsp = 4 ∧ C.dst + 0 + 8 ≤ spaceSize s.dev C.dsp C.tile ∧ 0 ∈ s.dev.tilesOn := by dsimp only; decide

theorem witness_DmaTransfers_aborted :
    let s := wD fun d => { d with ridge := { d.ridge with on := true }, dma := { d.dma with ch := d.dma.ch.modify 1 fun c =>
      { c with st := 3, desc := some [0x80002000, 8, 0, 0, 0, 0, 0, 0], abt := true, cfg := 0x00081610 } } }
    s.Inv ∧ (s.dev.ch 1).desc.isSome = true ∧ (s.dev.ch 1).abt = true ∧ (s.dev.ch 1).st ≠ 4 ∧ (s.dev.ch 1).rbl.toNat % 32 = 0 := by dsimp only; decide

theorem witness_Recorder_clear :
    let s := wD fun d => { d with log := { d.log with clearing := true, buf := [{ code := 6, optime := 7, seq := 1 }] }, boot := { d.boot with nvid := 24 } }
    let l := s.dev.log
    s.Inv ∧ l.clearing = true ∧ l.erased = false ∧ 22 ≤ fld s.dev.boot.nvid 7 0 ∧ 0 < l.buf.countP (·.pend) := by dsimp only; decide

theorem witness_Recorder_powerFail :
    let s := wD fun d => { d with log := { d.log with nvok := true } }
    let l := s.dev.log
    s.Inv ∧ l.nvok = true ∧ l.frozen = false ∧ l.pendFull = false ∧ l.clearing = false ∧ l.full = false ∧ (∀ b ∈ l.buckets, b.supp = 0) ∧
      s.dev.ridge.on = true := by dsimp only; decide

theorem witness_Recorder_heartbeat :
    let s := wD fun d => { d with log := { d.log with cfg := 0x01000000, hbeat := 3600000 } }
    let l := s.dev.log
    s.Inv ∧ fld l.cfg 31 24 ≠ 0 ∧ 3600000 * fld l.cfg 31 24 ≤ l.hbeat ∧ l.frzFull = false ∧ l.pendFull = false ∧ l.pf = false ∧
      l.buf.countP (·.pend) < 63 := by dsimp only; decide

theorem witness_TileWritesAct_release :
    let s := wR fun x => { x with halted := true, dirty := true }
    let q := wR fun x => { x with halted := true }
    actsLive .boot 0 ∧ s.Inv ∧ s.dev.isoT 0 = false ∧ (s.dev.tl 0).rst = false ∧ (s.dev.tl 0).core.dirty = true ∧ q.Inv ∧ (q.dev.tl 0).core.dirty = false ∧
      w0.Inv ∧ (w0.dev.tl 0).core.halted = false := by dsimp only [actsLive]; decide

theorem witness_TileWritesAct_isolated :
    let s := wT fun x => { x with clusters := x.clusters.map fun k => { k with isolated := true } }
    s.Inv ∧ s.dev.hasT 0 = true ∧ s.dev.isoT 0 = true := by dsimp only; decide

theorem witness_PurlinDeliveries_wire :
    let m : Msg := { src := .rafter 0, dst := some 1, bcast := false, tag := 0, words := [5, 6], no := 3 }
    let s := wD fun d => { d with wire := [m], issued := 4 }
    let d := { s.dev with wire := s.dev.wire.filter fun y => y.no != m.no }
    s.Inv ∧ (s.dev.wire.filter (·.src == .rafter 0) ++ (s.dev.core (.rafter 0)).outq).find? (fun m => !m.bcast && m.dst == some 1) = some m ∧
      s.dev.first (coreWriter (.rafter 0)) (some 1) m.no = true ∧ d.deliverTo (.rafter 1) = 0 := by dsimp only; decide

theorem witness_ReturnSlots_quiet :
    let s := wD fun d => { d with tiles := (d.onT 0 fun x => { x with
      cmap := List.replicate 256 0, clusters := x.clusters.map (fun k => { k with esc := { k.esc with wins := [{ w := 0, e := 5, inForce := true }] } })
      pal := { x.pal with lowered := [5], value := [(5, 3)], sent := [(5, 0)] } }).tiles }
    let p := (s.dev.tl 0).pal
    s.Inv ∧ p.forced = [] ∧ p.ptr = none ∧ p.lowered = [5] ∧ p.value = [(5, 3)] ∧ p.rest = [] ∧ (assocGet p.sent 5).getD 255 ≤ s.dev.hardLim 0 5 := by
  dsimp only; decide

theorem witness_EveryCommandCompletes_loop :
    let a := wC fun k => { k with loop := { k.loop with fb := true }, cells := k.cells.set 0 { fword := some 767 } }
    let h := wD fun d => { d with clk := { d.clk with per := 1 }, tiles := (d.onLoop 0 0 fun l => { l with handDue := some (2, 47) }).tiles }
    let z := wL fun l => { l with fb := false, handed := false }
    a.Inv ∧ (a.dev.cl 0 0).loop.fb = true ∧ ((a.dev.cl 0 0).cell 0).fword = some 767 ∧ h.Inv ∧ (h.dev.cl 0 0).loop.handDue = some (2, 47) ∧
      47 < 48 * h.dev.clk.per ∧ z.Inv ∧ z.dev.live 0 0 = true ∧ (z.dev.cl 0 0).loop.fb = false ∧ (z.dev.cl 0 0).loop.handed = false ∧ w0.dev.hasT 0 = true := by
  dsimp only; decide

theorem witness_EveryCommandCompletes_sequencer :
    let a := wA .A (some .B1) true
    let y : Await := { tnum := 5, c := 0, st := some .B1, sent := 0 }
    let b := wWait 10 w0.dev.seq.cfg
    let p := wC fun k => { k with seq := { k.seq with chg := .powering } }
    let z := wC fun k => { k with seq := { k.seq with chg := .bootstrap } }
    a.Inv ∧ y ∈ (a.dev.tl 0).pal.awaits ∧ (∀ z ∈ (a.dev.tl 0).pal.awaits, z.tnum = y.tnum → z = y) ∧ y.sent + 1000 * fld a.dev.seq.cfg 21 16 ≤ 20000 ∧
      b.Inv ∧ (b.dev.cl 0 10).seq.chg = .waiting ∧ (b.dev.cl 0 10).seq.track = false ∧ (b.dev.cl 0 10).seq.qtr = false ∧ domOf 10 ≠ .L ∧
      (b.dev.cl 0 10).seq.wakeAt + 1000 * fld b.dev.seq.adm 7 0 ≤ 255000 ∧ (b.dev.tl 0).ramping < fld b.dev.seq.cfg 26 24 ∧
      p.Inv ∧ (p.dev.cl 0 0).seq.chg = .powering ∧ z.Inv ∧ (z.dev.cl 0 0).seq.chg = .bootstrap ∧ (z.dev.cl 0 0).seq.track = false := by
  dsimp only; decide

theorem witness_EveryCommandCompletes_cores :
    let a := wK fun x => { x with wdDue := true, checking := some 6 }
    let b := wT fun x => { x with trace := { x.trace with st := 1 }, fus := { x.fus with cmd := some (.commit 23) } }
    let z := wD fun d => { d with xtrig := [0], tiles := (d.onT 0 fun x => { x with trace := { x.trace with st := 1, cfg := 0x80 } }).tiles }
    a.Inv ∧ a.dev.hasCore .ridge = true ∧ (a.dev.core .ridge).wdDue = true ∧ (a.dev.core .ridge).checking = some 6 ∧ w0.dev.reached .host ∧
      (w0.dev.tl 0).rst = false ∧ b.Inv ∧ (b.dev.tl 0).trace.st = 1 ∧ (b.dev.tl 0).fus.cmd.isSome = true ∧ z.Inv ∧ 0 ∈ z.dev.xtrig ∧
      tst (z.dev.tl 0).trace.cfg 7 = true ∧ (z.dev.tl 0).trace.st = 1 := by dsimp only [Dev.reached]; decide

theorem witness_EveryCommandCompletes_dma :
    let on := fun f => wD fun d => { d with dma := { d.dma with ch := d.dma.ch.modify 7 f } }
    let a := on fun c => { c with en := true, st := 2, tail := 1 }
    let b := on fun c => { c with en := true, st := 2, cfg := 0x00080610, desc := some [0x80002000, 8, 0, 0, 0, 0, 0, 0] }
    let z := on fun c => { c with en := true, st := 2, desc := some [0x80002000, 8, 0, 0, 0, 0, 0, 0], rd := 8, wr := 8, wb := true, head := 63 }
    let n := on fun c => { c with st := 2, desc := some [0x80000100, 8, 0, 0, 0, 0, 0, 0] }
    let e := on fun c => { c with st := 2, desc := some [0x80000200, 8, 0, 0, 0, 0, 0, 0], slots := [{ off := 0, data := List.replicate 8 0xA5 }] }
    let x := a.dev.ch 7
    let y := b.dev.ch 7
    let ws : List Word := [0x80002000, 4, 0, 0, 0, 0, 0, 0]
    a.Inv ∧ 7 < a.dev.dma.ch.length ∧ x.en = true ∧ x.st = 2 ∧ x.desc = none ∧ x.head ≠ x.tail ∧ x.rloc = false ∧ tst (ws.getD 0 0) 31 = true ∧
      descBad { x.clear with desc := some ws } = false ∧ b.Inv ∧ y.st = 2 ∧ y.desc.isSome = true ∧ y.wb = false ∧ y.rd < y.len ∧ y.slots.length < y.maxslot ∧ (∀ b ∈ y.slots, b.data ≠ []) ∧
      (b.dev.dma.ch.map fun c => c.slots.length).foldl (· + ·) 0 < 64 ∧ y.ssp = 0 ∧ (List.replicate 8 (0xA5 : Byte)).length = y.burst y.rd ∧
      z.Inv ∧ (z.dev.ch 7).wb = true ∧ n.Inv ∧ (n.dev.ch 7).ssp = 1 ∧ (n.dev.ch 7).dsp = 0 ∧ (n.dev.ch 7).abt = false ∧
      e.Inv ∧ (e.dev.ch 7).slots = { off := 0, data := List.replicate 8 0xA5 } :: [] ∧ (e.dev.ch 7).dsp = 0 ∧ (e.dev.ch 7).bcast = false := by
  dsimp only; decide

theorem witness_EveryCommandCompletes_recorder :
    let on := fun f => wD fun d => { d with boot := { d.boot with nvdone := false }, log := f d.log }
    let a := on fun l => { l with flush := some 1, wptr := 131063 - 7, buf := [{ code := 6, optime := 7, seq := 1 }], optime := 1000 }
    let b := on fun l => { l with cfg := 0x01000000, hbeat := 3600000, frozen := true, frzAt := 5, optime := 10005 }
    let z := on fun l => { l with nonce := some 3, nonceAt := some 5, optime := 60005, clearing := true }
    let x := a.dev.log
    a.Inv ∧ z.dev.boot.nvdone = false ∧ z.dev.log.flush = none ∧ x.flush = some 1 ∧ x.wptr + 8 ≤ 131071 ∧ x.wptr % 8 = 0 ∧ 1 ≤ x.buf.countP (·.pend) ∧ x.optime % 1000 = 0 ∧
      x.frozen = false ∧ x.clearing = false ∧ x.full = false ∧ b.Inv ∧ fld b.dev.log.cfg 31 24 ≠ 0 ∧ 3600000 * fld b.dev.log.cfg 31 24 ≤ b.dev.log.hbeat ∧
      b.dev.log.frozen = true ∧ 10000 ≤ b.dev.log.since b.dev.log.frzAt ∧ z.Inv ∧ z.dev.log.nonceAt = some 5 ∧ 60000 ≤ z.dev.log.since 5 ∧
      z.dev.log.clearing = true ∧ z.dev.log.erased = false := by dsimp only; decide

theorem w_all {p : Tile → Prop} (d : Dev) (h0 : p {}) (h : ∀ x ∈ d.tiles, p x) (t : Nat) : p (d.tl t) := by
  simp only [Dev.tl, List.getD]
  cases ht : d.tiles[t]? with
  | none => simpa using h0
  | some x => simpa using h x (List.mem_of_getElem? ht)

/-- No verdict of d waits for its end. -/
def calm (d : Dev) : Prop := ∀ t, (d.tl t).rem.acts = []

theorem w_calm (d : Dev) (h : ∀ x ∈ d.tiles, x.rem.acts = []) : calm d := w_all d (p := fun x => x.rem.acts = []) rfl h

theorem witness_ClockBoundaries_cluster : w0.Inv ∧ 0 < w0.dev.tiles.length ∧ w0.dev.hasC 0 13 = true ∧ calm w0.dev :=
  ⟨by decide, by decide, by decide, w_calm _ (by decide)⟩

/-- Tile 0 with the marker word w waiting and, in c01, the windows l and the end of the latest. -/
def wQ (w : Word) (l : List Win) (x : Option Nat) (gap : Word) : State := wD fun d => { d.onT 0 (fun y => { y with
  esc := { y.esc with qwcfgE := gap, fifo := [⟨w, 0, 0⟩] }
  clusters := y.clusters.modify 1 fun k => { k with esc := { k.esc with wins := l, lastEnd := x } } }) with flt := { d.flt with sev := [] } }

theorem witness_QuietWindows_several :
    let a := wQ 0x20008132 [{ w := 0, e := 1 }] (some 1) 0
    let b := wQ 0x2000C132 [] (some 0) 0x3F00
    (∀ s ∈ [a, b], s.Inv ∧ s.dev.hasT 0 = true) ∧ (∀ m n, a.dev.flt.sevOf m n = 0 ∧ b.dev.flt.sevOf m n = 0) ∧
      (a.dev.tl 0).esc.fifo = [⟨0x20008132, 0, 0⟩] ∧ (b.dev.tl 0).esc.fifo = [⟨0x2000C132, 0, 0⟩] ∧ (0 + 15) / 16 * 16 + 16 ≤ 16 ∧ (a.dev.tl 0).esc.lastSched = none ∧
      ([0x20008132, 0x2000C132] : List Word).all (fun w => fld w 31 28 == 2 && fld w 27 14 != 0 && fld w 13 11 == 0 && fld w 10 8 == 1 && fld w 7 6 == 0 && fld w 5 0 == 50) = true ∧
      1 ∈ (List.range 14).filter (fun c => tst (0x20008132 : Word) (14 + c) && a.dev.live 0 c) ∧
      [0, 1] = (List.range 14).filter (fun c => tst (0x2000C132 : Word) (14 + c) && b.dev.live 0 c) ∧
      (a.dev.cl 0 1).esc.wins = [{ w := 0, e := 1 }] ∧ (0 + 15) / 16 * 16 / 1000 + 1 ≤ 1 ∧ 0 + 50 < max 1 (1 + 50) ∧
      (∀ v ∈ (b.dev.cl 0 1).esc.wins, v.e < 1) ∧ (1 : Nat) < max 1 (0 + fld (0x3F00 : Word) 13 8) := by
  refine ⟨by decide, fun m n => ?_, by decide⟩
  have h : ∀ f : FaultDev, f.sev = [] → f.sevOf m n = 0 := by
    intro f hf; simp only [FaultDev.sevOf, hf, List.getD]; simp [fld]
  exact ⟨h _ rfl, h _ rfl⟩

theorem witness_PalletRequests_moves :
    let s := fun (b : PState) => wT fun x => { x with
      pal := { x.pal with awaits := [{ tnum := 0, c := 0, st := none, sent := 0 }] }
      clusters := x.clusters.modify 0 fun k => { k with
        loop := { k.loop with outOn := true }, seq := { k.seq with st := b, cur := some { cls := 10, kind := .setpoint, step := 2, code := 300 } } } }
    let a : Await := { tnum := 0, c := 0, st := none, sent := 0 }
    let w : Word := 0x60000000
    let tr : Trans := { cls := 10, kind := .setpoint, step := 2, code := 300 }
    (∀ b ∈ [PState.A, .B1, .B2], (s b).Inv ∧ (s b).dev.hasT 0 = true ∧ ((s b).dev.tl 0).pal.awaits.find? (fun a => a.tnum == fld w 28 21) = some a ∧
      ((s b).dev.cl 0 0).seq.cur = some tr ∧ ((s b).dev.cl 0 0).seq.st = b ∧ ((s b).dev.cl 0 0).loop.outOn = true ∧ ((s b).dev.cl 0 0).seq.chg = .none) ∧
      fld w 31 29 = 3 ∧ fld w 20 0 = 0 ∧ tr.tnum = a.tnum ∧ tr.step = 2 ∧ tr.kind = .setpoint := by dsimp only; decide

/-- Cluster c of tile 0 computing (or, with fb, in fall-back) with the coefficient entry n. -/
def wS (c n : Nat) (fb entry : Bool) (left : Nat) : State := wT fun x => { x with
  fus := { x.fus with run := !fb }
  clusters := x.clusters.modify c fun k => { k with
    loop := { k.loop with outOn := true, fb := fb, entry := entry, entryLeft := left, carry := [40000, 2, 3, -40000]
                          xp := (List.range 20).map fun (i : Nat) => (i : Int) * 77 - 500 }
    seq := { k.seq with ref := 600000, chg := .none }, fus := { k.fus with slots := [n] } } }

theorem witness_StateSpaceLaw_samples :
    (∀ x ∈ [(0, wS 0 0 false false 0), (13, wS 13 0 false true 0), (0, wS 0 0 false false 8), (14, wS 14 20 false false 0), (17, wS 17 23 false false 0)],
      let c := x.1
      let s := x.2
      let k := s.dev.cl 0 c
      s.Inv ∧ s.dev.hasC 0 c = true ∧ k.cells.length = 8 ∧ k.loop.outOn = true ∧ k.seq.move = none ∧ k.seq.held = [] ∧ k.seq.queue = [] ∧ k.seq.cur = none ∧
        k.seq.chg = .none ∧ (s.dev.tl 0).esc.edges = [] ∧ k.loop.fb = false ∧ 600000 ≤ k.seq.ref ∧ k.fus.due = none ∧ k.fus.rel = none ∧
        tst k.fus.clctl 8 = false ∧ tst k.fus.clctlE 8 = false ∧ (s.dev.tl 0).fus.run = true ∧ (s.dev.tl 0).fus.runDue = false ∧
        k.fus.slotFor c (min 2 (k.cells.countP fun x => x.mode != .run)) ≠ 0x3F ∧ (s.dev.tl 0).rem.queue = [] ∧ (s.dev.tl 0).rem.acts = [] ∧ k.loop.carry.length = 4 ∧ k.loop.xp.length = 20) :=
  by decide

theorem witness_StateSpaceLaw_fallback :
    let s := wS 17 20 true false 0
    let k := s.dev.cl 0 17
    s.Inv ∧ s.dev.hasC 0 17 = true ∧ k.cells.length = 8 ∧ k.loop.outOn = true ∧ k.seq.move = none ∧ k.seq.held = [] ∧ k.seq.queue = [] ∧ k.seq.cur = none ∧
      k.seq.chg = .none ∧ (s.dev.tl 0).esc.edges = [] ∧ k.fus.due = none ∧ k.loop.fb = true ∧ (s.dev.tl 0).fus.run = false ∧
      (s.dev.tl 0).rem.acts = [] := by dsimp only; decide

theorem witness_RidgeLink_bad :
    let a : List Word := [0x10000000, 1, 0, 0]
    let b := sealed [0x10000001, 1, 0]
    w0.Inv ∧ tst w0.dev.lnk.ctrl 0 = true ∧ frameOk 1 a = false ∧ crcOk a = false ∧ frameOk 1 b = false ∧ crcOk b = true := by dsimp only; decide +kernel

/-- The block of the host's writes with a ring enabled, and with seventeen tiles. -/
def wH (ring : Bool) : State := wD fun d => { d with
  hp := { d.hp with ren := ring, done := true }
  dma := { d.dma with ch := d.dma.ch.map fun c => { c with en := ring } }
  tiles := if ring then List.replicate 17 { present := true } else d.tiles }

/-- The addresses of HostWrites' rows and fixed registers are device registers, and the port is open. -/
theorem witness_HostWrites_rows :
    (∀ b, ((wH b).dev.hp.closed = false ∧ (wH b).dev.hp.done = true ∧ (wH b).dev.hp.ren = b)) ∧ (wH false).Inv ∧ (wH true).Inv ∧
      16 < (wH true).dev.tilesOn.length ∧ ((wH true).dev.ch 7).en = true ∧ ((wH false).dev.ch 1).en = false ∧
      (∀ a ∈ [0x64, 0x104, 0x1000, 0x1024, 0x2000, 0x3004, 0x4004 + 0x100 * 11, 0x4010 + 0x100 * 11 + 12, 0x8108 + 0x40 * 7, 0xA040, 0x00, 0xA010], devReg a = true) := by
  decide

/-- R396: rows of HostWrites at the boundary values of their fields. -/
theorem test_host_rows :
    let st := fun (ring : Bool) (a : Nat) (v : Word) => devStatus .host (wH ring).dev a v
    [st false 0x104 0x03E80000, st false 0x104 0x03E90000, st false 0x1038 0x1FF, st false 0x1038 0x100, st false 0x2000 0, st true 0x2000 0, st true 0x2000 1,
     st false 0x2030 0x10000, st false 0x2030 0, st false 0x2030 0x80000000, st false 0x300C 0x800, st false 0x300C 0x900, st false 0x4008 48, st false 0x4008 49,
     st false 0x400C 0x6400, st false 0x400C 0x6500, st false 0x601C 0x3201, st false 0x601C 0x3101, st false 0x6800 0x2000, st false 0x6800 0x2003,
     st false 0xA004 0x100100, st false 0xA004 0x100, st true 0x1024 0, st false 0x1024 0, st true 0x8148 0, st false 0x8148 0, st false 0x4110 5, st false 0x4110 6] =
    [0, 1, 0, 1, 0, 1, 0, 0, 1, 1, 0, 1, 0, 1, 0, 1, 0, 1, 0, 1, 0, 1, 2, 0, 2, 0, 0, 1] := by decide

theorem witness_BoardClocksTestMesh_bypass :
    let listed := [0x00, 0x01, 0x02, 0x10, 0x11, 0x12, 0x13, 0x3F]
    w0.Inv ∧ [63, 2, 0x14].map (fun code => if code % 64 ∈ listed then 0x3F else code % 64) = [0x3F, 0x3F, 0x14] ∧ (0x14 : Nat) ∉ listed ∧
      w0.dev.faces 0 1 = true ∧ boolAt (w0.dev.tl 0).byp 1 = false ∧ w0.dev.neighbour 0 1 = some 1 := by decide

/-! ### Further witnesses: boundary forms of each statement -/

def wM (f : Dev → Dev) : State := wD fun d => { f d with mirrors := [{ cur := { tile := (f d).tl 0 } }, {}] }

theorem witness_UndefinedAndNotReady_ops :
    let w := fun (n : Nat) => BitVec.ofNat 32 (n * 2 ^ 26)
    w0.Inv ∧ w0.dev.ready .ridge = true ∧ inCode .ridge w0.dev.ridge.pc = true ∧
      ∀ n ∈ List.range' 1 11 ++ List.range' 16 20 ++ List.range' 48 11, (w n).toNat / 2 ^ 26 = n ∧ undefinedWord (w n) = false := by dsimp only; decide

theorem witness_LoadsAndStores_restart :
    let s := wK fun x => { x with g := (x.g.set 1 4).set 2 0x100008 }
    let z := wR fun x => { x with g := (x.g.set 1 2).set 2 0x100FE0 }
    let v := (s.dev.ridge).rd 1
    s.Inv ∧ s.dev.ready .ridge = true ∧ ((s.dev.ridge.rd 2 + sext18 0).toNat - 0x100000 = 0x08) ∧ tst v 2 = true ∧ (devWrite .ridge 8 v s.dev).1 = 0 ∧
      s.dev.selLoaded .ridge = false ∧ z.Inv ∧ z.dev.ready (.rafter 0) = true ∧ ((z.dev.core (.rafter 0)).rd 2 + sext18 0).toNat - 0x100000 = 0xFE0 ∧
      (tileChecks (liveView z.mem z.dev 0) 9 0 0xFE0 ((z.dev.core (.rafter 0)).rd 1)).first = 0 ∧ tst ((z.dev.core (.rafter 0)).rd 1) 1 = true ∧
      z.dev.selLoaded (.rafter 0) = false := by dsimp only; decide

theorem witness_RidgeOperationsSent_marked :
    let s := fun (h v : Word) => { wM id with dev := (wM id).dev.onCore .ridge fun x => { x with g := (x.g.set 1 v).set 2 h } }
    let a := (s 0 0x10000).dev
    let live := fun (d : Dev) (h : Word) => (shadowView d (hTile h)).d.live (hTile h) (hCl h)
    (s 0 0x400).Inv ∧ (s 0 0x400).dev.ready .ridge = true ∧ 1024 ≤ ((s 0 0x400).dev.ridge.rd 1).toNat ∧ (63 : Nat) < 64 ∧ 2 ^ 16 ≤ (a.ridge.rd 1).toNat ∧
      tst (0 : Word) 23 = false ∧ (shadowView a 0).d.answersT 0 = true ∧ boolAt a.pur.lost 0 = false ∧ live a 0 = true ∧
      (shadowView (wM fun d => d.onC 0 0 fun k => { k with isolated := true }).dev 0).d.live 0 0 = false ∧
      (shadowView w0.dev 1).d.answersT 1 = false := by dsimp only; decide

theorem witness_RafterOperationsAct_marked :
    let s := fun (v : Word) => wR fun x => { x with g := x.g.set 1 v }
    let z := wC fun k => { k with isolated := true }
    let a := s 0x400
    let b := s 0x10000
    a.Inv ∧ a.dev.ready (.rafter 0) = true ∧ (a.dev.core (.rafter 0)).rd 1 = 0x400 ∧ b.Inv ∧ b.dev.ready (.rafter 0) = true ∧
      (b.dev.core (.rafter 0)).rd 1 = 0x10000 ∧ (b.dev.core (.rafter 0)).rd 2 = 0 ∧ b.dev.answersT 0 = true ∧ b.dev.live 0 0 = true ∧ z.Inv ∧ z.dev.ready (.rafter 0) = true ∧
      z.dev.live 0 0 = false := by dsimp only; decide

/-- The Ridge, and the Rafter of tile 0, with the handle h in g2. -/
def wHr (h : Word) : State := { wM id with dev := (wM id).dev.onCore .ridge fun x => { x with g := x.g.set 2 h } }
def wHf (h : Word) : State := wR fun x => { x with g := x.g.set 2 h }

theorem witness_QueryAndPost_ridge (h : Word) (hh : h = 17 ∨ h = 0x800000 ∨ h = 0x00FF0000) :
    (wHr h).Inv ∧ (wHr h).dev.ready .ridge = true ∧ ((wHr h).dev.core .ridge).rd 2 = h ∧ (shadowView (wHr h).dev 0).d.answersT 0 = true ∧
      (shadowView (wHr h).dev 0).d.live 0 17 = true ∧ (0xC : Nat) ∉ List.range 12 := by rcases hh with rfl | rfl | rfl <;> decide

theorem witness_QueryAndPost_rafter (h : Word) (hh : h = 17 ∨ h = 0x800000) :
    let v := liveView (wHf h).mem (wHf h).dev 0
    (wHf h).Inv ∧ (wHf h).dev.ready (.rafter 0) = true ∧ ((wHf h).dev.core (.rafter 0)).rd 2 = h ∧ v.d.answersT 0 = true ∧ v.d.live 0 17 = true ∧
      (255 : Nat) ∉ [0x20, 0x21, 0x22] := by rcases hh with rfl | rfl <;> decide

theorem witness_PalletRequests_span :
    let q : ClSeq := { st := .B1, cur := some { cls := 10, kind := .setpoint, step := 3, code := 300 }, move := some (some 300, 0),
                       cllim := 0x01400170, chg := .asked .B1 }
    let a : Await := { tnum := 0, c := 0, st := some .B1, sent := 0 }
    let s := fun (q : ClSeq) (a : Await) => wT fun x => { x with
      pal := { x.pal with awaits := [a] }, clusters := x.clusters.modify 0 fun k => { k with loop := { k.loop with outOn := true }, seq := q } }
    let o : ClSeq := { q with st := .B2, cur := some { cls := 10, kind := .setpoint, step := 2, code := 300 }, move := none, chg := .none }
    (s q a).Inv ∧ fld (q.cllim) 9 0 = 0x170 ∧ ((s o { a with st := none }).dev.cl 0 0).seq.st ≠ .A ∧ (s o { a with st := none }).Inv := by dsimp only; decide

theorem witness_ReturnSlots_track :
    let s := wD fun d => { d with seq := { d.seq with phase := 3 }, tiles := (d.onT 0 fun x => { x with
      clusters := x.clusters.modify 0 (fun k => { k with seq := { k.seq with chg := .framed, track := true, base := some 360 } })
      pal := { x.pal with rest := [.state 1 0 .A] } }).tiles }
    let p := (s.dev.tl 0).pal
    s.Inv ∧ p.forced = [] ∧ p.ptr = none ∧ p.lowered = [] ∧ p.rest = .state 1 0 .A :: [] ∧ (s.dev.cl 0 0).seq.chg = .framed ∧ (s.dev.cl 0 0).seq.force = false ∧
      s.dev.seq.phase = 3 ∧ (s.dev.cl 0 0).seq.track = true ∧ ∀ b, (s.dev.tl b).pal.value = [] :=
  ⟨by decide, by decide, by decide, by decide, by decide, by decide, by decide, by decide, by decide, w_all _ (p := fun x => x.pal.value = []) rfl (by decide)⟩

theorem witness_ClusterWritesAct_span :
    let s := wC fun k => { k with
      seq := { k.seq with atarget := 360, target := some 360, bounds := [(5, 0x01700140)] }, esc := { k.esc with wins := [{ w := 0, e := 5, inForce := true }] } }
    let q := (s.dev.cl 0 0).seq
    let v : Word := 0x01900100
    let l := q.bounds.filter (fun y => y.1 < liveClass (.rafter 0)) ++ (liveClass (.rafter 0), v) :: q.bounds.filter fun y => liveClass (.rafter 0) < y.1
    s.Inv ∧ s.dev.live 0 0 = true ∧ (s.dev.tl 0).rst = false ∧ (s.dev.cl 0 0).quiet = true ∧ codeLo (domOf 0) ≤ fld v 9 0 ∧ fld v 9 0 ≤ fld v 25 16 ∧
      fld v 25 16 ≤ codeHi (domOf 0) ∧ fld (spanOf l) 9 0 ≤ q.atarget ∧ q.atarget ≤ fld (spanOf l) 25 16 := by dsimp only; decide

theorem witness_FuseeAndTraceCommands_live :
    let s := fun (c : FusCmd) => wT fun x => { x with
      clusters := x.clusters.map (fun k => { k with fus := { k.fus with slot := 3 } }), fus := { x.fus with cmd := some c } }
    let i := s (.invalidate 3)
    let m := s (.mapw 0 0 36)
    i.Inv ∧ i.dev.hasT 0 = true ∧ (i.dev.tl 0).fus.cmd = some (.invalidate 3) ∧ i.dev.hasC 0 7 = true ∧ (i.dev.cl 0 7).fus.slot = 3 ∧ m.Inv ∧
      (m.dev.tl 0).fus.cmd = some (.mapw 0 0 36) := by dsimp only; decide

theorem witness_AlertScrubMargin_slot :
    let s := wD fun d => { d with flt := { d.flt with scrub := 1 }, tiles := (d.onT 0 fun x => { x with
      clusters := x.clusters.map fun k => { k with fus := { k.fus with slot := 5 }, loop := { k.loop with handed := false } } }).tiles }
    s.Inv ∧ s.dev.hasC 0 3 = true ∧ (s.dev.cl 0 3).isolated = false ∧ (s.dev.cl 0 3).fus.slot = 5 ∧ (s.dev.cl 0 3).loop.handed = false := by
  dsimp only; decide

theorem witness_RidgeLink_due :
    let s := wD fun d => { d with lnk := { d.lnk with allocDue := some 5, heard := true, ticks := 300, etrain := false } }
    s.Inv ∧ s.dev.lnk.allocDue.isSome = true ∧ tst s.dev.lnk.ctrl 0 = true ∧ s.dev.lnk.acting = false ∧ s.dev.lnk.ewidth = 0 ∧ s.dev.lnk.etrain = false := by
  dsimp only; decide

theorem witness_ChannelControl_back :
    let s := fun (n : Option (Nat × Nat)) => wD fun d => { d with hp := { d.hp with
      rback := true, rhalted := true, wback := some (3, 0x00050010, 7), wcnt := n, rbasel := 0x1000, rhead := 15 } }
    let a := s none
    let b := s (some (5, 6))
    a.Inv ∧ b.Inv ∧ 4 ≤ a.dev.hp.log2n ∧ a.dev.hp.log2n ≤ 12 ∧ a.dev.hp.rback = true ∧ a.dev.hp.wback = some (3, 0x00050010, 7) ∧ a.dev.hp.wcnt = none ∧
      b.dev.hp.wcnt ≠ none := by dsimp only; decide

theorem witness_DmaErrors_counts :
    let s := fun (back : Bool) (n : Option (Nat × Nat)) => wD fun d => { d with hp := { d.hp with
      rback := back, wback := some (3, 0x00050010, 7), wcnt := n, wlast := 4, rbasel := 0x1000, rhead := 4 } }
    let a := s false (some (5, 6))
    let base := a.dev.hp.rbasel.toNat + 2 ^ 32 * a.dev.hp.rbaseh.toNat
    a.Inv ∧ (s true none).Inv ∧ 0 < a.dev.dma.ch.length ∧ a.dev.hp.rback = false ∧
      (a.dev.hp.wback.any fun w => decide (base + 16 * w.1 ≤ 0x103F ∧ 0x103F < base + 16 * w.1 + 16)) = true := by dsimp only; decide

theorem witness_DmaErrors_left :
    let s := fun (f : Chan → Chan) => wD fun d => d.onCh 1 fun c => f { c with desc := some [0x80001000, 8, 0, 0, 0, 0, 0, 0] }
    let a := s fun c => { c with st := 0, wb := true }
    let b := s fun c => { c with st := 3, abt := true, aborted := true, cfg := c.cfg ||| 0x1000 }
    a.Inv ∧ (a.dev.ch 1).st = 0 ∧ (a.dev.ch 1).desc.isSome = true ∧ (a.dev.ch 1).wb = true ∧ (a.dev.ch 1).rloc = false ∧ b.Inv ∧ (b.dev.ch 1).st = 3 ∧
      (b.dev.ch 1).wb = false ∧ (b.dev.ch 1).rloc = true ∧ (b.dev.ch 1).ssp = 0 := by dsimp only; decide

/-- Tile 0 with the words l of tokens in its FIFO, every one from 0 ns, and n edges in its schedule. -/
def wF (l : List Word) (n : Nat) : State := wT fun x => { x with esc := { x.esc with
  fifo := l.map (⟨·, 0, 0⟩), edges := List.replicate n { id := 0, hint := 0, tag := 0, isEnd := false, ns := 9000, sched := 0, dq := [0, 0, 0, 0], mask := [0], all := [0] } } }

theorem witness_HintTokens_fifo (l : List Word) (n : Nat) :
    ((wF l n).dev.tl 0).esc.fifo = l.map (⟨·, 0, 0⟩) ∧ ((wF l n).dev.tl 0).esc.lastSched = none := ⟨rfl, rfl⟩

theorem witness_HintTokens_wrong :
    (wF [0x10004001, 0, 0x10000] 0).Inv ∧ (wF [0x30000000, 0x1000000] 0).Inv ∧ (wF [0x50004002] 0).Inv ∧ fld (0x60000000 : Word) 31 28 = 6 ∧
      250 < fld (0x100040FB : Word) 7 0 ∧ fld (0x10000 : Word) 31 16 ≠ 0 ∧ fld (0x20004005 : Word) 10 8 = 0 ∧ 50 < fld (0x20004133 : Word) 5 0 ∧
      fld (0x1000000 : Word) 31 24 ≠ 0 ∧ fld (0x40000400 : Word) 27 10 ≠ 0 ∧ fld (0x50004002 : Word) 7 1 ≠ 0 := by decide

theorem witness_HintTokens_none :
    let s := wT fun x => { x with clusters := x.clusters.modify 0 (fun k => { k with isolated := true }), esc := { x.esc with fifo := [⟨0x50004001, 0, 0⟩] } }
    let o := wT fun x => { x with esc := { x.esc with fifo := [⟨0x10000000, 0, 2⟩, ⟨5, 0, 1⟩] } }
    s.Inv ∧ ((s.dev.tl 0).esc.fifo = ⟨0x50004001, 0, 0⟩ :: []) ∧ s.dev.live 0 0 = false ∧ (∀ c, c < 14 → tst (0x50004001 : Word) (14 + c) = true → c = 0) ∧ o.Inv ∧
      ((o.dev.tl 0).esc.fifo = ⟨0x10000000, 0, 2⟩ :: [⟨5, 0, 1⟩]) := by dsimp only; decide

theorem witness_HintTokens_full :
    let s := wF [0x10004001, 0, 5] 31
    s.Inv ∧ s.dev.live 0 0 = true ∧ tst (0x10004001 : Word) 14 = true ∧ 32 < (s.dev.tl 0).esc.edges.length + (if fld (5 : Word) 15 0 = 0 then 1 else 2) := by
  dsimp only; decide

theorem witness_OuterLoop_bands :
    let s := wT fun x => { x with fus := { x.fus with badOffs := [0xF184, 0xF204] } }
    let x := s.dev.tl 0
    s.Inv ∧ s.dev.hasC 0 0 = true ∧ 0 < x.fus.bands.length ∧ (x.fus.badOffs.any fun b => 0xF200 ≤ b && b < 0xF200 + 32) = true ∧
      (x.fus.badOffs.any fun b => 0xF180 ≤ b && b < 0xF180 + 16) = true := by dsimp only; decide

theorem witness_BoardClocksTestMesh_cells :
    let s := wD fun d => { d with bud := { d.bud with pin := true } }
    s.Inv ∧ s.dev.seq.phase = 0 ∧ (Instr.extest 5, 0) ∈ [(Instr.extest 5, 0), (.samplePreload 5, 2)] ∧ 0 < Signal.width .brdAlertN ∧ s.dev.hasT 1 = true := by dsimp only; decide

theorem witness_BoardClocksTestMesh_cell : ∃ (i : Nat) (x : BoundaryCell), w0.dev.boundary[i]? = some x ∧ x.sig = .brdAlertN ∧ w0.dev.boundary[748]? = none := by
  refine ⟨w0.dev.boundary.findIdx fun x => decide (x.sig = .brdAlertN), ?_⟩
  decide +kernel

theorem w_list {p : Cluster → Prop} (l : List Cluster) (h0 : p {}) (h : ∀ k ∈ l, p k) (c : Nat) : p (l.getD c {}) := by
  rw [List.getD_eq_getElem?_getD]
  cases hc : l[c]? with
  | none => simpa using h0
  | some k => simpa using h k (List.mem_of_getElem? hc)

theorem w_cls {p : Cluster → Prop} (d : Dev) (t : Nat) (h0 : p {}) (h : ∀ k ∈ (d.tl t).clusters, p k) (c : Nat) : p (d.cl t c) := w_list _ h0 h c

/-- Cluster c of tile 0 computing with the coefficient entry n, and the queue of repeats l. -/
def wV (c n : Nat) (l : List VoteJob) : State :=
  let s := wS c n false false 0
  { s with dev := s.dev.onT 0 fun x => { x with rem := { x.rem with queue := l } } }

/-- A repeat of cluster c that waits in its own slot. -/
def wVj (c n : Nat) : VoteJob :=
  { wJ with c := c, slot := n, xp := List.replicate 20 100, y := List.replicate 16 8, f := [0, 0, 0, 0], miss := List.replicate 8 false,
            beta := List.replicate 8 400, lims := List.replicate 8 (0, 767), prev := [1, 2, 3, 4, 5, 6, 7, 8] }

theorem witness_SamplesAndRepeats_words (p : Nat × Nat) (hp : p = (0, 0) ∨ p = (14, 20)) :
    let s := wV p.1 p.2 [wVj p.1 p.2]
    let k := s.dev.cl 0 p.1
    s.Inv ∧ s.dev.hasC 0 p.1 = true ∧ (s.dev.tl 0).rem.queue.find? (fun j => j.c == p.1 && j.fin.isNone) = some (wVj p.1 p.2) ∧ (wVj p.1 p.2).own = true ∧
      (s.dev.tl 0).rem.acts = [] ∧ (s.dev.tl 0).esc.edges = [] ∧ k.loop.fb = false ∧ k.loop.outOn = true ∧ k.cells.length = 8 ∧ k.seq.move = none ∧
      k.seq.held = [] ∧ k.seq.queue = [] ∧ k.seq.cur = none ∧ k.seq.chg = .none := by rcases hp with rfl | rfl <;> decide

/-- The words of a repeat of cluster c14 that the errors e strike, three ways apart or not at all. -/
theorem witness_SamplesAndRepeats_three :
    let s := wV 14 20 [wVj 14 20]
    let j := wVj 14 20
    let its := fun (e : List LaneDelta) => ((compAccs (compSet s.mem 0 j.slot) (s.dev.cl 0 14).cells j.y j.miss).map fun a => a.items e j.errs).flatten
    let e : List LaneDelta := [{ map := .M0, comb := false, j := 0, delta := 70000000 }, { map := .M1, comb := false, j := 0, delta := 200000000 }]
    (∃ v ∈ its e, v.isWord = true ∧ v.a0 ≠ v.a1 ∧ v.a0 ≠ v.a2 ∧ v.a1 ≠ v.a2) ∧ ∀ v ∈ its [], ¬ (v.isWord = true ∧ v.a0 ≠ v.a1 ∧ v.a0 ≠ v.a2 ∧ v.a1 ≠ v.a2) := by
  dsimp only; decide

/-- Tile 0 with a verdict of cluster c due at the next switching boundary, the eighth. -/
def wVd (c : Nat) (l : List VItem) (f : Rem → Rem) : State := wD fun d => { d.onT 0 (fun x => { x with rem := f { x.rem with acts := [(47, .verdict c 0 l)] } }) with
  clk := { d.clk with sw := 7 } }

/-- A word of an item in bit lane or combining map 7: what M0, M1 and M2 gave in the first sample and M0 and M1 in the repeat. -/
def wI (w : Bool) (a0 a1 a2 b0 b1 : Int) : VItem := { j := 7, isWord := w, lane := true, a0 := a0, a1 := a1, a2 := a2, b0 := b0, b1 := b1 }

theorem witness_SamplesAndRepeats_verdicts :
    let three := fun (v : VItem) => v.isWord = true ∧ v.a0 ≠ v.a1 ∧ v.a0 ≠ v.a2 ∧ v.a1 ≠ v.a2
    let halfB := fun (v : VItem) => v.a0 = v.a2 ∧ v.a1 = v.b1 ∧ v.a1 ≠ v.a0
    let halfA := fun (v : VItem) => v.a1 = v.a2 ∧ v.a0 = v.b0 ∧ v.a0 ≠ v.a1
    three (wI true 1 2 3 1 2) ∧ halfB (wI false 1 2 1 1 2) ∧ halfA (wI false 1 2 2 1 2) ∧ ¬ halfB (wI false 1 2 2 2 2) ∧ ¬ halfA (wI false 1 2 2 2 2) ∧
      ¬ three (wI false 1 2 2 2 2) := by dsimp only; decide

theorem witness_SamplesAndRepeats_verdict :
    let s := wVd 0 [wI false 1 2 2 2 2] fun r => { r with ctrlE := 2, charges := [(7, 5), (7, 6)] }
    let f := wVd 0 [wI false 1 2 1 1 2] fun r => { r with ctrlE := 2, badSpares := List.range' 992 32 }
    s.Inv ∧ s.dev.hasC 0 0 = true ∧ (s.dev.tl 0).rem.acts = [(0 + 47, .verdict 0 0 [wI false 1 2 2 2 2])] ∧ 0 + 47 ≤ 6 * (s.dev.clk.sw + 1) ∧
      (∀ b, b ≠ 0 → (s.dev.tl b).rem.acts = []) ∧ tst (s.dev.tl 0).rem.ctrlE 1 = true ∧ f.Inv ∧ (f.dev.tl 0).rem.freeSpares = [] := by
  refine ⟨by decide, by decide, rfl, by decide, fun b hb => ?_, by decide, by decide, by decide⟩
  match b with
  | 0 => exact absurd rfl hb
  | 1 => rfl
  | _ + 2 => rfl

/-- A block of one tile with one cluster, which f changes, and no core. -/
def wOne (f : Cluster → Cluster) : State := wD fun d => { d with tiles := [{ d.tl 0 with cmap := some [], clusters := [f (d.cl 0 0)] }] }

/-- Cluster c00 on its output, in state st, at its target. -/
def wP (st : PState) (g : Cluster → Cluster) : State := wOne fun k => g { k with
  loop := { k.loop with outOn := true }
  seq := { k.seq with st := st, stE := st, atarget := 300, target := some 300, base := some 300, ref := absOf 300, endv := absOf 300, chg := .none, cllim := 0x03200078 } }

/-- Four phases, those active as l says, with that current in each. -/
def wPh (l : List Bool) (ma : Int) : List Phase := l.map fun b => { active := b, ma := ma }

/-- Cluster c00 in B1 with phase shedding on, whose first regulator's phases carry ma each and whose shed stands as x says. -/
def wShed (x : Shed) (l : List Bool) (ma : Int) (droop : Bool) : State := wP .B1 fun k => { k with
  loop := { k.loop with shedcfg := 0x0801, shedcfgE := 0x0801, droop := droop }
  cells := k.cells.modify 0 fun y => { y with shed := x, shedRun := 7, phases := wPh l ma } }

theorem witness_SamplesAndRepeats_phases (s : State) (hs : s = wShed .steady [true, false, false, false] 1500 false ∨
    s = wShed .steady [true, true, true, true] 100 false ∨ s = wShed .steady [true, true, true, true] 100 true ∨
    s = wShed (.pending1 3) [true, true, true, true] 100 false ∨ s = wShed (.pending1 3) [true, true, true, true] 100 true ∨
    s = wShed (.pending2 3) [true, true, true, true] 100 false ∨ s = wShed (.pending2 3) [true, true, true, true] 100 true) :
    let k := s.dev.cl 0 0
    let u := afterDev s (.clusterSample 0 0 [])
    s.Inv ∧ s.dev.hasC 0 0 = true ∧ (s.dev.tl 0).rem.acts = [] ∧ (s.dev.tl 0).esc.edges = [] ∧ k.isolated = false ∧ k.quiet = false ∧ k.loop.outOn = true ∧
      k.seq.move = none ∧ k.seq.held = [] ∧ k.seq.chg = .none ∧ k.seq.queue = [] ∧ k.seq.cur = none ∧ k.seq.st = k.seq.stE ∧ (k.cell 0).mode = .run ∧
      (k.cell 0).phases.length = 4 ∧ (∀ p ∈ (k.cell 0).phases, p.active = true → p.avail = true) ∧ (u.cl 0 0).isolated = false ∧ u.flt.safe = s.dev.flt.safe ∧
      ((u.cl 0 0).cell 0).mode = .run := by rcases hs with rfl | rfl | rfl | rfl | rfl | rfl | rfl <;> decide +kernel

theorem witness_SamplesAndRepeats_settles :
    let tr : Trans := { cls := 10, kind := .setpoint, step := 4, code := 300, fcode := 5, tnum := 3 }
    let s := fun (v n : Nat) => wP .A fun k => { k with cells := List.replicate 8 { vcode := v }, seq := { k.seq with settled := n, cur := some tr } }
    let q := ((s 300 7).dev.cl 0 0).seq
    (s 300 7).Inv ∧ (s 200 7).Inv ∧ q.cur = some tr ∧ tr.step = 4 ∧ q.ref = q.endv ∧ q.settled = 7 ∧
      (∀ y ∈ ((s 300 7).dev.cl 0 0).cells, ((y.vcode : Int) - q.code).natAbs ≤ fld (s 300 7).dev.seq.cfg 31 28) ∧
      (afterDev (s 300 7) (.clusterSample 0 0 [])).flt.safe = (s 300 7).dev.flt.safe := by dsimp only; decide +kernel

theorem witness_SamplesAndRepeats_begins (c : Nat) (hc : c = 400 ∨ c = 100 ∨ c = 300) :
    let y : Trans := { cls := 10, kind := .setpoint, code := c, fcode := 7, rid := some 9 }
    let s := wP .A fun k => { k with seq := { k.seq with flast := 3, clgrE := 0x200, queue := [y] } }
    let q := (s.dev.cl 0 0).seq
    let u := afterDev s (.clusterSample 0 0 [])
    s.Inv ∧ q.cur = none ∧ q.queue = [y] ∧ q.st = .A ∧ fld q.clgrE 1 0 ≠ 1 ∧ (s.dev.cl 0 0).esc.guardOn = false ∧ (u.cl 0 0).isolated = false ∧
      u.flt.safe = s.dev.flt.safe := by rcases hc with rfl | rfl | rfl <;> decide +kernel

/-- Cluster c00 regulating at 1.0 V in the law or the fall-back, its first regulator's phases apart. -/
def wReg (fb : Bool) : State := wC fun k => { k with
  loop := { k.loop with outOn := true, fb := fb }, seq := { k.seq with ref := 700000, endv := 700000 }
  cells := k.cells.modify 1 fun x => { x with phases := wPh [true, true] 900 ++ wPh [true] 2000 } }

theorem witness_ClockBoundaries_period :
    let s := wReg true
    let x := (((s.dev.cl 0 0).cell 1).latchAt 48).wordBy 48
    s.Inv ∧ calm s.dev ∧ s.dev.hasC 0 0 = true ∧ (s.dev.cl 0 0).loop.outOn = true ∧ ((s.dev.cl 0 0).cell 1).mode = .run ∧ 1 < (s.dev.cl 0 0).cells.length ∧
      x.fpre = none ∧ (s.dev.cl 0 0).loop.fb = true ∧ 600000 ≤ (s.dev.cl 0 0).seq.ref ∧ (s.dev.cl 0 0).loop.handDue = none :=
  ⟨by decide, w_calm _ (by decide), by decide, by decide, by decide, by decide, by decide, by decide, by decide, by decide⟩

theorem witness_ClockBoundaries_law :
    let s := wS 0 0 false false 0
    s.Inv ∧ ((((s.dev.cl 0 0).cell 1).latchAt 48).wordBy 48).fpre = none ∧ (s.dev.cl 0 0).loop.outOn = true ∧
      ((afterDev s .periodBoundary).cl 0 0).loop.fb = false := by dsimp only; decide +kernel

theorem witness_ClockBoundaries_energy :
    let s := fun (n : Word) => wD fun d => { d with bud := { d.bud with ctrl := n } }
    (s 0).Inv ∧ tst (s 0).dev.bud.ctrl 0 = false ∧ (s 1).Inv ∧ tst (s 1).dev.bud.ctrl 0 = true := by dsimp only; decide

/-- Cluster c00 with a power of p mW against a cap of 500 mW, and its ladder as l says; PSRC 0. -/
def wLad (p : Int) (l : Ladder) : State :=
  let s := wOne fun k => { k with bud := { k.bud with pms := [p], cap := 5, capE := 5, ladder := l } }
  { s with dev := { s.dev with bud := { s.dev.bud with ctrl := 0 } } }

theorem witness_ClockBoundaries_ladder : ∀ s ∈ [wLad 1000 { cut := true }, wLad 1000 { h := 3, allow := some 7, overT := true },
    wLad 1000 { h := 3, allow := some 200, overT := true }, wLad 100 { h := 3, under := 15 }, wLad 495 { h := 3, under := 5 }],
    let u := (afterDev s (.tickBoundary 0)).cl 0 0
    s.Inv ∧ (∀ x ∈ s.dev.tiles, x.rem.acts = []) ∧ s.dev.hasC 0 0 = true ∧ (s.dev.cl 0 0).isolated = false ∧ u.isolated = false ∧
      (s.dev.cl 0 0).quietAt (s.dev.clk.tick + 1) = false ∧ (u.bud.pm = 1000 ∨ u.bud.pm = 100 ∨ u.bud.pm = 495) := by decide

theorem witness_ClockBoundaries_over :
    (0 < (1000 : Int) - 5 * 100) ∧ ¬ 64 * (1000 : Int) ≤ (500 * (64 - fld w0.dev.bud.ladcfg 3 0) : Nat) ∧
      64 * (100 : Int) ≤ (500 * (64 - fld w0.dev.bud.ladcfg 3 0) : Nat) ∧ ¬ 64 * (495 : Int) ≤ (500 * (64 - fld w0.dev.bud.ladcfg 3 0) : Nat) := by decide

/-- Cluster c00 in state st at its target, in PHASE 3, with a next event at tick n. -/
def wEv (st : PState) (n : Nat) : State :=
  let s := wP st fun k => { k with esc := { k.esc with nextTok := some n }, seq := { k.seq with clcfgE := 0x410 } }
  { s with dev := { s.dev with seq := { s.dev.seq with phase := 3 } } }

/-- Only c00 of tile 0 has an event before it. -/
theorem witness_ClockBoundaries_alone (st : PState) (n b : Nat) (k : Clk) (hb : b ≠ 0) : { (wEv st n).dev with clk := k }.nextEvent 0 b = none := by
  have h : ({ (wEv st n).dev with clk := k }.cl 0 b).esc = ({} : Cluster).esc := by
    cases b with
    | zero => exact absurd rfl hb
    | succ m => exact w_list (p := fun k => k.esc = ({} : Cluster).esc) [] rfl (by simp) m
  have e : ({ (wEv st n).dev with clk := k }.tl 0).esc = ({} : Tile).esc := rfl
  simp only [Dev.nextEvent, h, e]; rfl

/-- The states of the chooser's witnesses: cluster c00 leaves A for a deeper state, or wakes and is late. -/
def wEvs : List (State × Nat) := [(wEv .A 30, 30000), (wEv .B1 1, 1000)]

theorem witness_ClockBoundaries_chosen : ∀ p ∈ wEvs, ((afterDev p.1 (.tickBoundary 0)).cl 0 0).isolated = false ∧
    ∀ k ∈ ((afterDev p.1 (.tickBoundary 0)).tl 0).clusters, k.bud.b1 = false := by decide

theorem witness_ClockBoundaries_chooser : ∀ p ∈ wEvs,
    let d := p.1.dev
    let e := { d with clk := { d.clk with tick := d.clk.tick + 1, now := max d.clk.now (1000 * (d.clk.tick + 1)) } }
    p.1.Inv ∧ (∀ x ∈ d.tiles, x.rem.acts = []) ∧ d.seq.phase = 3 ∧ d.flt.safe = false ∧ d.bud.hold = false ∧ d.hasC 0 0 = true ∧ e.nextEvent 0 0 = some p.2 ∧
      (∀ k ∈ (d.tl 0).clusters, k.bud.b1 = false ∧ k.esc.wins = []) ∧ d.thmHeld 0 0 = false ∧ (d.cl 0 0).seq.chg = .none ∧ (d.cl 0 0).seq.force = false ∧
      (d.cl 0 0).seq.cur = none ∧ (d.cl 0 0).seq.queue = [] ∧ (d.cl 0 0).seq.lateAt ≠ some p.2 := by decide

theorem witness_ClockBoundaries_held (p : State × Nat) (h : p ∈ wEvs) : calm p.1.dev ∧ (∀ b, ((afterDev p.1 (.tickBoundary 0)).cl 0 b).bud.b1 = false) ∧
    ∀ b, (p.1.dev.cl 0 b).bud.b1 = false ∧ (p.1.dev.cl 0 b).esc.wins = [] := by
  obtain ⟨-, h1, -, -, -, -, -, h2, -⟩ := witness_ClockBoundaries_chooser p h
  exact ⟨w_calm _ h1, w_cls (p := fun k => k.bud.b1 = false) _ 0 rfl (witness_ClockBoundaries_chosen p h).2,
    w_cls (p := fun k => k.bud.b1 = false ∧ k.esc.wins = []) _ 0 ⟨rfl, rfl⟩ h2⟩

theorem witness_ClockBoundaries_epoch :
    let s := wC fun k => { k with bud := { k.bud with sums := [7, 8, 9, -11], ticks := 2 } }
    s.Inv ∧ s.dev.hasC 0 0 = true ∧ 0 < (s.dev.cl 0 0).bud.ticks := by dsimp only; decide

theorem witness_ClockBoundaries_ms : ∀ t, let r := (w0.dev.tl t).rem; r.acts = [] ∧ r.mmDue = [] ∧ r.queue = [] ∧ r.votes ≤ 0xFFFF ∧ r.mismatch ≤ 0xFFFF :=
  w_all w0.dev (p := fun x => x.rem.acts = [] ∧ x.rem.mmDue = [] ∧ x.rem.queue = [] ∧ x.rem.votes ≤ 0xFFFF ∧ x.rem.mismatch ≤ 0xFFFF) (by decide) (by decide)

/-- R330's steps for the descriptor ws taken up by channel 1 of s: whether it is malformed, and the status. -/
def dmaSteps (s : State) (ws : List Word) : Prop × Nat :=
  let d := s.dev
  let w := fun (i : Nat) => ws.getD i 0
  let D := fld (w 0) 15 12
  let S := fld (w 0) 11 8
  let t := fld (w 0) 6 0
  let len := fld (w 1) 23 0
  let src := (w 2).toNat + 2 ^ 32 * (w 3).toNat
  let dst := (w 4).toNat + 2 ^ 32 * (w 5).toNat
  let bcast := tst (w 0) 29
  let nv := if fld d.boot.nvid 7 0 = 0 then 0 else 2 ^ fld d.boot.nvid 7 0
  let size := fun (sp : Nat) => if sp = 0 then 2 ^ 64 else if sp = 1 then nv else if sp = 4 then 0x8000 else if sp = 5 then 0x4000 else if sp = 7 then 43008
    else if sp = 8 then 4 * ((d.tl t).trace.recs.map fun r => r.length).foldl (· + ·) 0 else 0x10000
  let cond := fun (sp t : Nat) => (sp = 2 ∨ sp = 3 → d.ridge.isHalted = true) ∧ (sp = 4 → (d.tl t).core.isHalted = true) ∧
    (sp = 5 → (d.tl t).core.isHalted = true ∨ (d.tl t).core.on = true ∧ (d.tl t).core.loaded = false) ∧ (sp = 8 → (d.tl t).trace.st = 3)
  let pair := (S = 0 ∧ 1 ≤ D ∧ D ≤ 7) ∨ (D = 0 ∧ 1 ≤ S) ∨ (S = 1 ∧ 2 ≤ D ∧ D ≤ 7)
  (tst (w 0) 28 = true ∨ fld (w 0) 27 16 ≠ 0 ∨ tst (w 0) 7 = true ∨ fld (w 1) 31 24 ≠ 0 ∨ w 6 ≠ 0 ∨ 9 ≤ S ∨ 9 ≤ D ∨
      (bcast = true ∧ (D < 4 ∨ 8 ≤ D)) ∨ (((D < 4 ∨ 8 ≤ D) ∧ S < 4 ∨ bcast = true) ∧ t ≠ 0),
    if src % 4 ≠ 0 ∨ dst % 4 ≠ 0 then 6
    else if len = 0 ∨ len % 4 ≠ 0 ∨ ¬ pair ∨ size S < src + len ∨ size D < dst + len then 1
    else if D = 1 ∧ nv - 0x400000 < dst + len then 5
    else if D = 1 ∧ d.dma.nvwen = false then 2
    else if (4 ≤ D ∨ 4 ≤ S) ∧ bcast = false ∧ ¬ (d.answersT t = true ∧ boolAt d.pur.lost t = false) then 3
    else if (4 ≤ D ∨ 4 ≤ S) ∧ bcast = false ∧ (d.tl t).rst = true then 4
    else if bcast = false ∧ ¬ (cond S t ∧ cond D t) then 2 else 0)

theorem witness_DmaTransfers_malformed : ∀ ws ∈ [[(0x90002000 : Word), 8], [0x80012000, 8], [0x80002080, 8], [0x80002000, 0x01000008],
    [0x80002000, 8, 0, 0, 0, 0, 5], [0x80009000, 8], [0xA0002000, 8], [0x80002001, 8]],
    tst (ws.getD 0 0) 31 = true ∧ (dmaSteps w0 ws).1 := by dsimp only [dmaSteps]; decide

theorem witness_DmaTransfers_statuses :
    let s := wD fun d => { d.onT 1 (fun x => { x with rst := true }) with
      boot := { d.boot with nvid := 24 }, dma := { d.dma with ch := d.dma.ch.modify 1 fun c => { c with en := true, st := 2, tail := 1 } } }
    s.Inv ∧ (s.dev.ch 1).en = true ∧ (s.dev.ch 1).desc = none ∧ (s.dev.ch 1).head ≠ (s.dev.ch 1).tail ∧ (s.dev.ch 1).rloc = false ∧
      [[(0x80002000 : Word), 8, 2], [0x80002000, 6], [0x80002000, 8, 0, 0, 0xFFFC], [0x80001000, 8], [0x80004002, 8], [0x80006001, 8], [0x80002000, 8],
        [0x80006000, 8], [0xA0004000, 8], [0x80001000, 8, 0, 0, 0xFFFFF8]].map (fun ws => (dmaSteps s ws).2) = [6, 1, 1, 2, 3, 4, 2, 0, 0, 5] := by
  dsimp only [dmaSteps]; decide

/-- Channel 1 with the slots l in transfer, the second of 16 bytes read. -/
def wSl (l : List Burst) (r : List Nat) : State := wD fun d => d.onCh 1 fun c => { c with
  en := true, st := 2, cfg := 0x00080610, desc := some [0x80006000, 16, 0, 0, 0, 0, 0, 0], rd := 16, slots := l, reread := r }

theorem witness_DmaTransfers_again :
    let l : List Burst := [{ off := 0, data := [] }, { off := 8, data := List.replicate 8 0xA5 }]
    let s := wSl l []
    let C := s.dev.ch 1
    s.Inv ∧ C.slots.find? (fun b => b.data.isEmpty) = some { off := 0, data := [] } ∧ C.wb = false ∧ C.desc.isSome = true ∧ C.ssp = 0 ∧ C.dsp = 6 ∧
      min (C.len - 0) (min (256 - (C.src + 0) % 256) (256 - (C.dst + 0) % 256)) = 16 ∧ (wSl l [0]).Inv ∧ 0 ∈ ((wSl l [0]).dev.ch 1).reread := by
  dsimp only; decide

/-- Slot 20 of tile 0, for domain K: its header alone. -/
def wSlot (c : FusCmd) : State :=
  { wT fun x => { x with fus := { x.fus with cmd := some c, valid := x.fus.valid.set 20 true } } with
    mem := Mem.writeL [] (storeBase 0 + 0xF000) (wordBytes 0x202) }

theorem witness_FuseeAndTraceCommands_slot :
    let s := wSlot (.commit 20)
    let m := wSlot (.mapw 20 2 1)
    let h := Mem.readW s.mem (storeBase 0 + 0xF000)
    s.Inv ∧ fld h 7 0 = 2 ∧ fld h 31 10 = 0 ∧ (∀ j, j < 7 → Mem.readW s.mem (storeBase 0 + 0xF000 + 4 * (j + 1)) = 0) ∧ m.Inv ∧
      (m.dev.tl 0).fus.valid.getD 20 false = true ∧ fld h 9 8 = 2 := by dsimp only; decide

end Sys2Proof.Tests
end

section
/-!
SUPPORT. What a read of a register changes, and what a mirror that arrives or a copy that ends does (R15, R17, R305 to R307, R309, R365, R401).
-/
namespace Sys2Proof.Machine

/-! ### Device parts that the closing of a command leaves alone -/

theorem Dev.Aside.mirrors {d e : Dev} (h : d.Aside e) : e.mirrors = d.mirrors := by
  have := congrArg Dev.mirrors h.hard
  exact this
theorem Dev.Aside.air {d e : Dev} (h : d.Aside e) : e.air = d.air := by
  have := congrArg Dev.air h.hard
  exact this
theorem Dev.Aside.hp {d e : Dev} (h : d.Aside e) : e.hp = d.hp := by
  have := congrArg Dev.hp h.hard
  exact this
theorem Dev.Aside.mir {d e : Dev} (h : d.Aside e) (t : Nat) : e.mir t = d.mir t := by simp only [Dev.mir, h.mirrors]

/-! ### The response to a reader (R365) -/

theorem respond_calm {old d : Dev} (h : old.Calm d) (w : Writer) (v : Option Word) (st : Nat) : old.Calm (respond w v st d) := by
  unfold respond
  cases w == Writer.host
  · exact h
  · exact h.dev rfl rfl rfl rfl

@[simp] theorem respond_mirrors (w : Writer) (v : Option Word) (st : Nat) (d : Dev) : (respond w v st d).mirrors = d.mirrors :=
  Dev.on_keeps Dev.mirrors d _ _ rfl
@[simp] theorem respond_air (w : Writer) (v : Option Word) (st : Nat) (d : Dev) : (respond w v st d).air = d.air := Dev.on_keeps Dev.air d _ _ rfl
@[simp] theorem respond_mir (w : Writer) (v : Option Word) (st : Nat) (d : Dev) (t : Nat) : (respond w v st d).mir t = d.mir t := by
  simp only [Dev.mir, respond_mirrors]
@[simp] theorem respond_latch (w : Writer) (v : Option Word) (st : Nat) (d : Dev) (r : Reader) : (respond w v st d).hp.latch r = d.hp.latch r :=
  Dev.on_keeps (fun e => e.hp.latch r) d _ _ rfl

/-! ### Device registers (R15, R17) -/

/-- Nothing that a read of a device register clears is looked at by a limit, a window or a trace event. -/
theorem devClear_calm (a : Nat) (d : Dev) : d.Calm (devClear a d) := by
  unfold devClear
  repeat' split
  all_goals exact (Dev.Calm.refl d).dev rfl rfl rfl rfl

theorem devClear_latch (a : Nat) (d : Dev) (r : Reader) : (devClear a d).hp.latch r = d.hp.latch r := by
  unfold devClear
  split
  · rfl
  · split
    · cases r <;> dsimp only <;> split <;> rfl
    · split <;> rfl

theorem hostAddr_aligned {a : Nat} (h4 : a % 4 = 0) (h : a < 2 ^ 20) : hostAddr a = a := by
  unfold hostAddr
  omega

theorem portRead_dev (r : Reader) {a : Nat} (m : List Host.Cell) (d : Dev) (h4 : a % 4 = 0) (h : a < 0x10000) :
    portRead r a m d = ((readDev r a d).1, respond (readerWriter r) (some (readDev r a d).1) 0 (readDev r a d).2) := by
  simp only [portRead, hostAddr_aligned h4 (Nat.lt_trans h (by decide)), readHost, if_pos h]

theorem readDev_plain (r : Reader) {a : Nat} (d : Dev) (ht : inTail a = false) (hw : wideTail a = []) : readDev r a d = (devWord d a, devClear a d) := by
  simp [readDev, ht, hw]

theorem readDev_tail (r : Reader) {a : Nat} {v : Word} (d : Dev) (ht : inTail a = true) (hv : latched (d.hp.latch r) a = some v) :
    readDev r a d = (v, d) := by
  simp [readDev, ht, hv]

/-- A read of a device register that is no word of a wide value. -/
theorem rcRead_dev {s : State} (hi : s.Inv) (r : Reader) {a : Nat} (h4 : a % 4 = 0) (h : a < 0x10000) (ht : inTail a = false) (hw : wideTail a = []) :
    s.gives (.rcRead r a) (respond (readerWriter r) (some (devWord s.dev a)) 0 (devClear a s.dev)) := by
  have he : exec (.rcRead r a) s = fin s (portRead r a s.mem s.dev).2 := rfl
  rw [portRead_dev r s.mem s.dev h4 h, readDev_plain r s.dev ht hw] at he
  exact State.gives_calm he hi (respond_calm (devClear_calm a s.dev) _ _ _)

/-- RDG_HLREF shows the oldest late refusal, and whether more wait. -/
theorem devWord_hlref_nil {d : Dev} (h : d.hp.hlref = []) : devWord d 0x14 = 0 := by
  show idWord d 0x14 = 0
  simp [idWord, h]
theorem devWord_hlref_cons {d : Dev} {y : Refused} {l : List Refused} (h : d.hp.hlref = y :: l) :
    devWord d 0x14 = word [(y.seq % 256, 24), (b2n !l.isEmpty, 23), (y.tile, 16), (y.cluster, 8), (y.status, 0)] := by
  show idWord d 0x14 = _
  simp [idWord, h]

/-- The registers of one place with RC fields, and RDG_HLREF. -/
theorem rc_plain : ∀ a ∈ [0x14, 0x1C, 0x108, 0x400C, 0x4010, 0x5024, 0x5110, 0x6024, 0xA020, 0xA024], inTail a = false ∧ wideTail a = [] := by decide

/-- RDG_FSTn and DMA_CHCNTn. -/
theorem fst_plain : ∀ n < 12, inTail (0x4008 + 0x100 * n) = false ∧ wideTail (0x4008 + 0x100 * n) = [] := by decide
theorem chcnt_plain : ∀ n < 8, inTail (0x812C + 0x40 * n) = false ∧ wideTail (0x812C + 0x40 * n) = [] := by decide

theorem devClear_fst {n : Nat} (d : Dev) (h1 : 1 ≤ n) (h : n ≤ 11) :
    devClear (0x4008 + 0x100 * n) d = { d with flt := { d.flt with count := d.flt.count.set (n - 1) 0 } } := by
  have hn : (0x4008 + 0x100 * n - 0x4000) / 0x100 - 1 = n - 1 := by omega
  unfold devClear
  rw [if_pos (by omega), hn]
  rfl

theorem devClear_chcnt {n : Nat} (d : Dev) (h : n < 8) :
    devClear (0x812C + 0x40 * n) d = { d with
      hp := if n = 0 then { d.hp with wcnt := none } else d.hp
      dma := { d.dma with ch := d.dma.ch.modify n fun c => { c with notok := 0, done := 0 } } } := by
  have hn : (0x812C + 0x40 * n - 0x8100) / 0x40 = n := by omega
  have h0 : 0x812C + 0x40 * n < 0x8140 ↔ n = 0 := by omega
  unfold devClear
  rw [if_neg (by omega), if_pos (by omega), hn]
  simp only [h0]

/-! ### Wide values (R17) -/

theorem HostDev.latch_setLatch (h : HostDev) (r : Reader) (l : List (Nat × Word)) : (h.setLatch r l).latch r = l := by cases r <;> rfl

/-- In a list of addresses with their values, an address is found with its value. -/
theorem latched_map (f : Nat → Word) {bs : List Nat} {b : Nat} (hb : b ∈ bs) : latched (bs.map fun b => (b, f b)) b = some (f b) := by
  induction bs with
  | nil => cases hb
  | cons c bs ih =>
    by_cases hc : c = b
    · simp [latched, hc]
    · have hm : b ∈ bs := (List.mem_cons.1 hb).resolve_left fun h => hc h.symm
      simpa [latched, hc] using ih hm

/-- What is latched anew is found, whatever was latched before. -/
theorem latched_renew (l : List (Nat × Word)) (f : Nat → Word) {bs : List Nat} {b : Nat} (hb : b ∈ bs) :
    latched ((l.filter fun p => !bs.contains p.1) ++ bs.map fun b => (b, f b)) b = some (f b) := by
  have hold : (l.filter fun p => !bs.contains p.1).find? (fun p => p.1 == b) = none := by
    rw [List.find?_eq_none]
    intro p hp hpb
    have hc := (List.mem_filter.1 hp).2
    rw [beq_iff_eq.1 hpb] at hc
    simp [hb] at hc
  rw [← latched_map f hb]
  simp only [latched, List.find?_append, hold, Option.none_or]

/-- The least significant word of a wide value stands at a register's address and is none of its later words. -/
theorem wideTail_head {a : Nat} (h : wideTail a ≠ []) : inTail a = false ∧ a % 4 = 0 ∧ a < 0x10000 := by
  unfold wideTail at h
  split at h
  case _ => decide
  case _ => decide
  case _ => decide
  case _ => decide
  case _ => decide
  case _ =>
    have hd : dmaWide a = true := Decidable.byContradiction fun hc => h (if_neg hc)
    simp only [dmaWide, Bool.and_eq_true, Bool.or_eq_true, decide_eq_true_eq, beq_iff_eq] at hd
    refine ⟨?_, by omega, by omega⟩
    simp only [inTail, dmaWide, Bool.or_eq_false_iff, Bool.and_eq_false_iff, beq_eq_false_iff_ne, decide_eq_false_iff_not]
    omega

theorem readDev_wide (r : Reader) {a b : Nat} (d : Dev) (hb : b ∈ wideTail a) :
    (readDev r a d).1 = devWord d a ∧ latched ((readDev r a d).2.hp.latch r) b = some (devWord d b) := by
  have hne : wideTail a ≠ [] := List.ne_nil_of_mem hb
  have hm : ((wideTail a).map fun b => (b, devWord d b)).isEmpty = false := by simpa using hne
  simp only [readDev, (wideTail_head hne).1, hm, Bool.false_eq_true, if_false, devClear_latch, HostDev.latch_setLatch]
  exact ⟨trivial, latched_renew _ (devWord d) hb⟩

theorem wideRead_latches (s : State) (r : Reader) {a : Nat} (h : wideTail a ≠ []) : s.makes (.wideRead r a) fun u =>
    (r = .host → u.hp.rdata = devWord s.dev a) ∧ ∀ b ∈ wideTail a, latched (u.hp.latch r) b = some (devWord s.dev b) := by
  obtain ⟨-, h4, hlt⟩ := wideTail_head h
  have he : exec (.wideRead r a) s = fin s (portRead r a s.mem s.dev).2 := rfl
  rw [portRead_dev r s.mem s.dev h4 hlt] at he
  refine State.makes_of he fun u hu => ⟨?_, fun b hb => ?_⟩
  · rintro rfl
    obtain ⟨b, hb⟩ := List.exists_mem_of_ne_nil _ h
    rw [hu.hp]
    exact (readDev_wide .host s.dev hb).1
  · rw [hu.hp, respond_latch]
    exact (readDev_wide r s.dev hb).2

/-- A later word that is latched is answered and stays latched. -/
theorem wideRead_tail {s : State} (hi : s.Inv) (r : Reader) {a : Nat} {v : Word} (ht : inTail a = true) (h : a < 0x10000) (h4 : a % 4 = 0)
    (hv : latched (s.dev.hp.latch r) a = some v) : s.gives (.wideRead r a) (respond (readerWriter r) (some v) 0 s.dev) := by
  have he : exec (.wideRead r a) s = fin s (portRead r a s.mem s.dev).2 := rfl
  rw [portRead_dev r s.mem s.dev h4 h, readDev_tail r s.dev ht hv] at he
  exact State.gives_calm he hi (respond_calm (.refl _) _ _ _)

/-! ### Mirrors read back -/

theorem Dev.mir_onMir (d : Dev) (t u : Nat) (f : Mirror → Mirror) :
    (d.onMir t f).mir u = if t = u ∧ u < d.mirrors.length then f (d.mir u) else d.mir u := by
  simp only [Dev.mir, Dev.onMir, List.getD_eq_getElem?_getD, List.getElem?_modify]
  by_cases h : t = u
  · subst h
    by_cases hl : t < d.mirrors.length
    · simp [hl]
    · simp [hl]
  · simp [h]

theorem Dev.mir_onMir_self (d : Dev) {t : Nat} (f : Mirror → Mirror) (h : t < d.mirrors.length) : (d.onMir t f).mir t = f (d.mir t) := by
  simp [Dev.mir_onMir, h]

theorem Dev.mir_onMir_ne (d : Dev) {t u : Nat} (f : Mirror → Mirror) (h : u ≠ t) : (d.onMir t f).mir u = d.mir u := by
  simp [Dev.mir_onMir, h.symm]

/-- A mirror with anything in it has its place in the list. -/
theorem Dev.mir_lt {d : Dev} {t : Nat} (h : d.mir t ≠ {}) : t < d.mirrors.length := by
  refine Decidable.byContradiction fun hl => h ?_
  rw [Dev.mir, List.getD_eq_getElem?_getD, List.getElem?_eq_none (Nat.le_of_not_lt hl)]
  rfl

theorem Dev.Calm.onMir {old d : Dev} (h : old.Calm d) (t : Nat) (f : Mirror → Mirror) : old.Calm (d.onMir t f) := h.dev rfl rfl rfl rfl

/-! ### Counts of a tile (R307) -/

/-- The read of one RC field whose value is `fld w p.1 p.2`: nothing for 0, else the field is taken and its subtraction sent. -/
def sendSub (r : Reader) (t off : Nat) (w : Word) (d : Dev) (p : Nat × Nat) : Dev :=
  if fld w p.1 p.2 = 0 then d
  else
    launch { src := readerWriter r, tile := t, cluster := off / 0x80, op := 0, seq := 0, kind := .sub off p.1 p.2 (fld w p.1 p.2) }
      (d.onMir t fun x => { x with reads := x.reads ++ [{ off := off, hi := p.1, lo := p.2, no := d.issued }] })

theorem sendSubs_eq (r : Reader) (t off : Nat) (w : Word) (d : Dev) : sendSubs r t off w d = (rcFields off).foldl (sendSub r t off w) d := rfl

/-- The field `p` counts as taken by a copy formed at `outer`, and its subtraction of `n` is on its way. -/
def SubSent (r : Reader) (t off outer : Nat) (p : Nat × Nat) (n : Nat) (d : Dev) : Prop :=
  (d.mir t).taken outer off p.1 = true ∧ ∃ f ∈ d.air, f.src = readerWriter r ∧ f.tile = t ∧ f.kind = .sub off p.1 p.2 n

/-- Another field read leaves what has been taken and sent. -/
theorem SubSent.sendSub {r : Reader} {t off outer : Nat} {p : Nat × Nat} {n : Nat} {d : Dev} (h : SubSent r t off outer p n d) (w : Word) (q : Nat × Nat) :
    SubSent r t off outer p n (sendSub r t off w d q) := by
  obtain ⟨htaken, f, hf, hflying⟩ := h
  unfold Machine.sendSub
  split
  · exact ⟨htaken, f, hf, hflying⟩
  · refine ⟨?_, f, List.mem_append_left _ hf, hflying⟩
    show ((d.onMir t _).mir t).taken outer off p.1 = true
    rw [Dev.mir_onMir]
    split
    · simp only [Mirror.taken, List.any_append] at htaken ⊢
      rw [htaken, Bool.true_or]
    · exact htaken

theorem SubSent.fold {r : Reader} {t off outer : Nat} {p : Nat × Nat} {n : Nat} (w : Word) (l : List (Nat × Nat)) {d : Dev}
    (h : SubSent r t off outer p n d) : SubSent r t off outer p n (l.foldl (Machine.sendSub r t off w) d) := by
  induction l generalizing d with
  | nil => exact h
  | cons q l ih => exact ih (h.sendSub w q)

/-- A field that is not 0 is taken by its read, and its subtraction sent. -/
theorem sendSub_sent (r : Reader) {t : Nat} (off outer : Nat) (w : Word) {d : Dev} {p : Nat × Nat} (ht : t < d.mirrors.length) (hp : fld w p.1 p.2 ≠ 0) :
    SubSent r t off outer p (fld w p.1 p.2) (sendSub r t off w d p) := by
  unfold Machine.sendSub
  rw [if_neg hp]
  refine ⟨?_, _, List.mem_append_right _ List.mem_cons_self, rfl, rfl, rfl⟩
  show ((d.onMir t _).mir t).taken outer off p.1 = true
  rw [Dev.mir_onMir_self d _ ht]
  simp [Mirror.taken, RcRead.before]

theorem sendSub_mirrors_length (r : Reader) (t off : Nat) (w : Word) (d : Dev) (p : Nat × Nat) :
    (sendSub r t off w d p).mirrors.length = d.mirrors.length := by
  unfold Machine.sendSub
  split
  · rfl
  · exact List.length_modify ..

theorem foldl_sendSub_sent (r : Reader) {t : Nat} (off outer : Nat) (w : Word) {p : Nat × Nat} (hp : fld w p.1 p.2 ≠ 0) (l : List (Nat × Nat)) (hl : p ∈ l)
    {d : Dev} (ht : t < d.mirrors.length) : SubSent r t off outer p (fld w p.1 p.2) (l.foldl (sendSub r t off w) d) := by
  induction l generalizing d with
  | nil => cases hl
  | cons q l ih =>
    rcases List.mem_cons.1 hl with rfl | hl
    · exact (sendSub_sent r off outer w ht hp).fold w l
    · exact ih hl (by rwa [sendSub_mirrors_length])

theorem sendSubs_sent (r : Reader) {t : Nat} {off : Nat} (outer : Nat) (w : Word) {p : Nat × Nat} (hp : p ∈ rcFields off) (hn : fld w p.1 p.2 ≠ 0) {d : Dev}
    (ht : t < d.mirrors.length) : SubSent r t off outer p (fld w p.1 p.2) (sendSubs r t off w d) := by
  rw [sendSubs_eq]
  exact foldl_sendSub_sent r off outer w hn (rcFields off) hp ht

/-- The window offsets with RC fields are offsets of registers, and RFT_SHSTAMP is none of them. -/
theorem rcFields_off {off : Nat} {p : Nat × Nat} (h : p ∈ rcFields off) : off % 4 = 0 ∧ off ≠ 0xFF0 := by
  unfold rcFields at h
  split at h
  · split at h
    · omega
    · cases h
  · split at h
    case _ => decide
    case _ => decide
    case _ => decide
    case _ => decide
    case _ => decide
    case _ => cases h

/-- The snapshot that a reader's window reads come from: its latched copy, or the mirror in force (R306). -/
def Mirror.readFrom (x : Mirror) (r : Reader) : Snap := match x.copy r with | some p => p.1 | none => x.cur

/-- The word that a reader finds at a window offset. -/
def Dev.seenWord (d : Dev) (r : Reader) (t off : Nat) : Word :=
  (d.mir t).masked ((d.mir t).readFrom r).outer off (windowWord (snapView d t ((d.mir t).readFrom r)) t off)

theorem readTile_eq (r : Reader) {t off : Nat} {d : Dev} (hh : d.hasT t = true) (ho : off ≠ 0xFF0) :
    readTile r true t off d = (d.seenWord r t off, sendSubs r t off (d.seenWord r t off) d) := by
  have hb : (off == 0xFF0) = false := beq_eq_false_iff_ne.2 ho
  simp only [readTile, hh, hb, Bool.not_true, Bool.and_false, Bool.false_and, Bool.false_eq_true, if_false]
  rfl

theorem portRead_tile (r : Reader) {t off : Nat} (m : List Host.Cell) (d : Dev) (ht : t < 96) (ho : off < 0x1000) (h4 : off % 4 = 0) :
    portRead r (tileAddr t off) m d =
      ((readTile r true t off d).1, respond (readerWriter r) (some (readTile r true t off d).1) 0 (readTile r true t off d).2) := by
  have ha : hostAddr (tileAddr t off) = tileAddr t off := hostAddr_aligned (by unfold tileAddr; omega) (by unfold tileAddr; omega)
  have h1 : ¬ tileAddr t off < 0x10000 := by unfold tileAddr; omega
  have h2 : tileAddr t off < 0x70000 := by unfold tileAddr; omega
  have h3 : (tileAddr t off - 0x10000) / 0x1000 = t := by unfold tileAddr; omega
  have h5 : tileAddr t off % 0x1000 = off := by unfold tileAddr; omega
  simp only [portRead, ha, readHost, if_neg h1, if_pos h2, h3, h5]

theorem rcRead_tile (s : State) (r : Reader) {t off : Nat} {p : Nat × Nat} (ht : t < 96) (hh : s.dev.hasT t = true) (hl : t < s.dev.mirrors.length)
    (ho : off < 0x1000) (hp : p ∈ rcFields off) : s.makes (.rcRead r (tileAddr t off)) fun u =>
      (r = .host → u.hp.rdata = s.dev.seenWord r t off) ∧
      (fld (s.dev.seenWord r t off) p.1 p.2 ≠ 0 →
        SubSent r t off ((s.dev.mir t).readFrom r).outer p (fld (s.dev.seenWord r t off) p.1 p.2) u) := by
  obtain ⟨h4, hne⟩ := rcFields_off hp
  have he : exec (.rcRead r (tileAddr t off)) s = fin s (portRead r (tileAddr t off) s.mem s.dev).2 := rfl
  rw [portRead_tile r s.mem s.dev ht ho h4, readTile_eq r hh hne] at he
  refine State.makes_of he fun u hu => ⟨?_, fun hn => ?_⟩
  · rintro rfl
    rw [hu.hp]
    rfl
  · have hsent := sendSubs_sent r ((s.dev.mir t).readFrom r).outer _ hp hn hl
    unfold SubSent at hsent ⊢
    rwa [hu.mir, hu.air, respond_mir, respond_air]

/-! ### The copy of a window (R306) -/

/-- The Ridge has no copy: a read of RFT_SHSTAMP leaves the block. -/
theorem shstampRead_ridge {s : State} (hi : s.Inv) {t : Nat} (ht : t < 96) (hh : s.dev.hasT t = true) : s.gives (.shstampRead .ridge t) s.dev := by
  have he : exec (.shstampRead .ridge t) s = fin s (portRead .ridge (tileAddr t 0xFF0) s.mem s.dev).2 := rfl
  rw [portRead_tile .ridge s.mem s.dev ht (by decide) (by decide)] at he
  have hr : (readTile .ridge true t 0xFF0 s.dev).2 = s.dev := by simp [readTile, hh, sendSubs, rcFields]
  rw [hr] at he
  exact State.gives_calm he hi (.refl _)

/-- The block with the mirror of a tile latched for a reader. -/
def Dev.latchCopy (d : Dev) (r : Reader) (t : Nat) : Dev := d.onMir t fun x => x.setCopy r (some (x.cur, d.clk.now))

theorem readTile_stamp {r : Reader} (hr : r ≠ .ridge) {t : Nat} {d : Dev} (hh : d.hasT t = true) :
    readTile r true t 0xFF0 d = ((d.latchCopy r t).seenWord r t 0xFF0, d.latchCopy r t) := by
  have hb : (r != Reader.ridge) = true := by simp [hr]
  simp only [readTile, hh, hb, Bool.not_true, Bool.true_and, beq_self_eq_true, Bool.false_eq_true, if_false, if_true]
  rfl

/-- What a reader finds at RFT_SHSTAMP right after its copy is latched is what the mirror in force shows. -/
theorem seenWord_stamp {r : Reader} (hr : r ≠ .ridge) {t : Nat} {d : Dev} (hl : t < d.mirrors.length) :
    (d.latchCopy r t).seenWord r t 0xFF0 = windowWord (shadowView (d.latchCopy r t) t) t 0xFF0 := by
  have hs : ((d.latchCopy r t).mir t).readFrom r = ((d.latchCopy r t).mir t).cur := by
    rw [Dev.latchCopy, Dev.mir_onMir_self d _ hl]
    cases r with
    | host => rfl
    | test => rfl
    | ridge => exact absurd rfl hr
  simp only [Dev.seenWord, hs, Mirror.masked, rcFields]
  rfl

theorem shstampRead_latches {s : State} (hi : s.Inv) {r : Reader} (hr : r ≠ .ridge) {t : Nat} (ht : t < 96) (hh : s.dev.hasT t = true) :
    s.gives (.shstampRead r t) (respond (readerWriter r) (some ((s.dev.latchCopy r t).seenWord r t 0xFF0)) 0 (s.dev.latchCopy r t)) := by
  have he : exec (.shstampRead r t) s = fin s (portRead r (tileAddr t 0xFF0) s.mem s.dev).2 := rfl
  rw [portRead_tile r s.mem s.dev ht (by decide) (by decide), readTile_stamp hr hh] at he
  exact State.gives_calm he hi (respond_calm ((Dev.Calm.refl _).onMir t _) _ _ _)

/-! ### A mirror arrives (R305, R307, R401) -/

/-- The mirror of a tile once the snapshot `y` has come into force, `l` still on their way. -/
def Mirror.arrived (x : Mirror) (y : Snap) (l : List Snap) : Mirror :=
  { x with cur := y, flight := l, stale := false, since := 0
           reads := x.reads.filter fun q => q.before y.outer || [x.host, x.test].any fun c => c.any fun p => q.before p.1.outer }

/-- A tile is found reachable again (R401). -/
def Dev.found (d : Dev) (t : Nat) : Dev :=
  d.on (d.lostT t && d.reach.contains t && d.routes t) fun d => { d with pur := { d.pur with lost := d.pur.lost.set t false } }

@[simp] theorem Dev.found_mir (d : Dev) (t u : Nat) : (d.found t).mir u = d.mir u := Dev.on_keeps (fun e => e.mir u) d _ _ rfl

theorem Dev.found_pur {d : Dev} {t : Nat} (h : d.lostT t = false ∨ d.reach.contains t = false ∨ d.routes t = false) : (d.found t).pur = d.pur := by
  have hc : (d.lostT t && d.reach.contains t && d.routes t) = false := by
    rcases h with h | h | h <;> simp only [h, Bool.false_and, Bool.and_false]
  simp only [Dev.found, hc, Dev.on_false]

theorem boolAt_set_false (l : List Bool) (t : Nat) : boolAt (l.set t false) t = false := by
  by_cases h : t < l.length
  · simp [boolAt, h]
  · simp [boolAt, List.getD_eq_getElem?_getD, h]

theorem Dev.found_lostT {d : Dev} {t : Nat} (hr : d.reach.contains t = true) (ho : d.routes t = true) : (d.found t).lostT t = false := by
  cases hl : d.lostT t
  · rw [Dev.lostT, Dev.found_pur (.inl hl)]
    exact hl
  · simp only [Dev.found, hl, hr, ho, Bool.and_true, Dev.on_true]
    exact boolAt_set_false _ _

theorem shadowMirror_none {t : Nat} {d : Dev} (h : (d.mir t).flight = []) : shadowMirror t d = d := by simp only [shadowMirror, h]

/-- R307: the reads that the mirror, once `y` is in force, still needs. -/
theorem Mirror.arrived_reads (x : Mirror) (y : Snap) (l : List Snap) :
    (x.arrived y l).reads = x.reads.filter ({ x with cur := y, flight := l, stale := false, since := 0 } : Mirror).needs := by
  have hp : ∀ (c : Option (Snap × Nat)) (q : RcRead),
      (c.any fun p => q.before p.1.outer) = (match c with | some p => q.before p.1.outer | none => false) := by
    intro c q
    cases c <;> rfl
  simp only [Mirror.arrived, hp]
  rfl

theorem shadowMirror_some {t : Nat} {d : Dev} {y : Snap} {l : List Snap} (h : (d.mir t).flight = y :: l) :
    shadowMirror t d = (d.onMir t fun x => x.arrived y l).found t := by
  have ha : (fun x : Mirror => x.arrived y l) = fun x =>
      { x with cur := y, flight := l, stale := false, since := 0
               reads := x.reads.filter ({ x with cur := y, flight := l, stale := false, since := 0 } : Mirror).needs } := by
    funext x
    rw [← Mirror.arrived_reads]
    rfl
  simp only [shadowMirror, h, ha]
  rfl

theorem Dev.Calm.found {old d : Dev} (h : old.Calm d) (t : Nat) : old.Calm (d.found t) := by
  unfold Dev.found
  cases d.lostT t && d.reach.contains t && d.routes t
  · exact h
  · exact h.dev rfl rfl rfl rfl

theorem shadowMirror_gives {s : State} (hi : s.Inv) {t : Nat} {y : Snap} {l : List Snap} (h : (s.dev.mir t).flight = y :: l) :
    s.gives (.shadowMirror t) ((s.dev.onMir t fun x => x.arrived y l).found t) :=
  State.gives_calm (congrArg (fin s) (shadowMirror_some h)) hi (((Dev.Calm.refl _).onMir t _).found t)

/-! ### A copy ends (R306) -/

theorem Dev.Calm.at (d : Dev) (ns : Nat) : d.Calm (d.at ns) := (Dev.Calm.refl d).dev rfl rfl rfl rfl

theorem latchExpiry_due {r : Reader} {t : Nat} {d : Dev} {p : Snap × Nat} (h : (d.mir t).copy r = some p) (hn : p.2 + 100000 ≤ d.clk.now) :
    latchExpiry r t d = d.onMir t fun x => x.setCopy r none := by simp only [latchExpiry, h, decide_eq_true hn, Dev.on_true]

theorem latchExpiry_early {r : Reader} {t : Nat} {d : Dev} {p : Snap × Nat} (h : (d.mir t).copy r = some p) (hn : d.clk.now < p.2 + 100000) :
    latchExpiry r t d = d := by simp only [latchExpiry, h, decide_eq_false (Nat.not_le.2 hn), Dev.on_false]

theorem latchExpiry_none {r : Reader} {t : Nat} {d : Dev} (h : (d.mir t).copy r = none) : latchExpiry r t d = d := by simp only [latchExpiry, h]

theorem State.gives_of_makes {s : State} {i : Instr} {d : Dev} {p : Dev → Prop} (h : s.gives i d) (hp : p d) : s.makes i p := ⟨_, h, rfl, rfl, hp⟩

/-! ### The statement -/

/-- Settles O52: a read of a device register is the one reading rule of its kind of register, with what it clears; a window's counts send their subtractions
field by field; a mirror and a copy are changed in their own tile's place only. -/
theorem readsAndMirrors : Obligations.ReadsAndMirrors := by
  unfold Obligations.ReadsAndMirrors
  intro s r t ns a hi d h x at' answer rc
  have hans : ∀ v e, answer v e = respond (readerWriter r) (some v) 0 e := by
    intro v e
    cases r <;> rfl
  have hrc : ∀ b e, inTail b = false ∧ wideTail b = [] → b % 4 = 0 → b < 0x10000 → devClear b d = e → rc b e := by
    intro b e hb h4 hlt he
    show s.gives _ (answer _ _)
    rw [hans, ← he]
    exact rcRead_dev hi r h4 hlt hb.1 hb.2
  have hone : ∀ b ∈ [0x14, 0x1C, 0x108, 0x400C, 0x4010, 0x5024, 0x5110, 0x6024, 0xA020, 0xA024], ∀ e, b % 4 = 0 → b < 0x10000 → devClear b d = e → rc b e :=
    fun b hb e => hrc b e (rc_plain b hb)
  have href : s.gives (.hlrefRead r) (answer (devWord d 0x14) { d with hp := { h with hlref := h.hlref.tail } }) :=
    hone 0x14 (by decide) _ (by decide) (by decide) rfl
  refine ⟨?_, hone _ (by decide) _ (by decide) (by decide) rfl, hone _ (by decide) _ (by decide) (by decide) rfl,
    hone _ (by decide) _ (by decide) (by decide) rfl, hone _ (by decide) _ (by decide) (by decide) rfl, hone _ (by decide) _ (by decide) (by decide) rfl,
    hone _ (by decide) _ (by decide) (by decide) rfl, hone _ (by decide) _ (by decide) (by decide) rfl, hone _ (by decide) _ (by decide) (by decide) rfl,
    hone _ (by decide) _ (by decide) (by decide) rfl, ?_, ?_, ?_, ?_, ?_, ?_, ?_, ?_, ?_, ?_, ?_⟩
  · refine Eq.subst (motive := fun v => s.gives (.hlrefRead r) (answer v _)) ?_ href
    cases hq : d.hp.hlref with
    | nil => exact devWord_hlref_nil hq
    | cons y l => exact devWord_hlref_cons hq
  · intro n h1 hn
    exact hrc _ _ (fst_plain n (by omega)) (by omega) (by omega) (devClear_fst d h1 hn)
  · intro n hn
    exact hrc _ _ (chcnt_plain n hn) (by omega) (by omega) (devClear_chcnt d hn)
  · intro ht hh hl off ho p hp
    exact rcRead_tile s r ht hh hl ho hp
  · exact wideRead_latches s r
  · intro v ht hlt h4 hv
    rw [hans]
    exact wideRead_tail hi r ht hlt h4 hv
  · intro ht hh
    refine ⟨?_, fun hr => State.gives_of_makes (shstampRead_latches hi hr ht hh) ⟨?_, fun hl hhost => ?_⟩⟩
    · rintro rfl
      exact shstampRead_ridge hi ht hh
    · rw [hans]
      cases r <;> rfl
    · subst hhost
      exact seenWord_stamp hr hl
  · intro hf
    exact State.gives_calm (congrArg (fin s) (shadowMirror_none hf)) hi (.refl _)
  · intro y l hf
    have hl : t < d.mirrors.length := Dev.mir_lt fun he => by simp [x, he] at hf
    have hm : ((d.onMir t fun x => x.arrived y l).found t).mir t = x.arrived y l := by rw [Dev.found_mir, Dev.mir_onMir_self d _ hl]
    refine State.gives_of_makes (shadowMirror_gives hi hf) ?_
    rw [hm]
    refine ⟨rfl, rfl, rfl, rfl, rfl, rfl, rfl, fun b hb => ?_, fun hp => Dev.found_pur hp, fun hr ho => Dev.found_lostT hr ho⟩
    rw [Dev.found_mir, Dev.mir_onMir_ne d _ hb]
  · intro p hc hn
    exact State.gives_calm (congrArg (fin s) (latchExpiry_due hc hn)) hi ((Dev.Calm.at d ns).onMir t _)
  · intro p hc hn
    exact State.gives_calm (congrArg (fin s) (latchExpiry_early hc hn)) hi (Dev.Calm.at d ns)
  · intro hc
    exact State.gives_calm (congrArg (fin s) (latchExpiry_none hc)) hi (Dev.Calm.at d ns)

end Sys2Proof.Machine
end

section
/-!
SUPPORT. The channels of the DMA engine: a channel read back, a halt, a descriptor taken up, a source burst (R327 to R332, R338, R339).
-/
namespace Sys2Proof.Machine

/-! ### A channel read back -/

theorem Dev.ch_onCh (d : Dev) (n k : Nat) (f : Chan → Chan) : (d.onCh n f).ch k = if n = k ∧ k < d.dma.ch.length then f (d.ch k) else d.ch k := by
  simp only [Dev.ch, Dev.onCh, List.getD_eq_getElem?_getD, List.getElem?_modify]
  by_cases h : n = k
  · subst h
    by_cases hl : n < d.dma.ch.length
    · simp [hl]
    · simp [hl]
  · simp [h]

theorem Dev.ch_onCh_self (d : Dev) {n : Nat} (f : Chan → Chan) (h : n < d.dma.ch.length) : (d.onCh n f).ch n = f (d.ch n) := by simp [Dev.ch_onCh, h]

@[simp] theorem Dev.onCh_length (d : Dev) (n : Nat) (f : Chan → Chan) : (d.onCh n f).dma.ch.length = d.dma.ch.length := List.length_modify ..
@[simp] theorem Dev.onCh_bus (d : Dev) (n : Nat) (f : Chan → Chan) : (d.onCh n f).dma.bus = d.dma.bus := rfl

theorem Dev.onCh_onCh (d : Dev) (n : Nat) (f g : Chan → Chan) : (d.onCh n f).onCh n g = d.onCh n fun c => g (f c) := by
  simp only [Dev.onCh, List.modify_modify_eq]
  rfl

/-- Of a change of a channel only what it does to that channel counts. -/
theorem Dev.onCh_congr {d : Dev} {n : Nat} {f g : Chan → Chan} (h : f (d.ch n) = g (d.ch n)) : d.onCh n f = d.onCh n g := by
  have hm : d.dma.ch.modify n f = d.dma.ch.modify n g := by
    refine List.ext_getElem? fun k => ?_
    simp only [List.getElem?_modify]
    by_cases hk : n = k
    · subst hk
      cases hq : d.dma.ch[n]? with
      | none => rfl
      | some c =>
        have hc : d.ch n = c := by simp [Dev.ch, List.getD_eq_getElem?_getD, hq]
        simpa [hc] using h
    · simp [hk]
  simp only [Dev.onCh, hm]

theorem Dev.onCh_id {d : Dev} {n : Nat} {f : Chan → Chan} (h : f (d.ch n) = d.ch n) : d.onCh n f = d := by
  have hm : d.dma.ch.modify n id = d.dma.ch := List.modify_id ..
  rw [Dev.onCh_congr (g := id) h, Dev.onCh, hm]

theorem Dev.Calm.onCh {old d : Dev} (h : old.Calm d) (n : Nat) (f : Chan → Chan) : old.Calm (d.onCh n f) := h.dev rfl rfl rfl rfl

theorem Dev.Aside.dma {d e : Dev} (h : d.Aside e) : e.dma = d.dma := by
  have := congrArg Dev.dma h.hard
  exact this
theorem Dev.Aside.ch {d e : Dev} (h : d.Aside e) (n : Nat) : e.ch n = d.ch n := by simp only [Dev.ch, h.dma]
theorem Dev.Aside.boot {d e : Dev} (h : d.Aside e) : e.boot = d.boot := by
  have := congrArg Dev.boot h.hard
  exact this
theorem Dev.Aside.uncorr {d e : Dev} (h : d.Aside e) : e.flt.uncorr = d.flt.uncorr := by
  have := congrArg (fun x : Dev => x.flt.uncorr) h.hard
  exact this
theorem Dev.Aside.onCh {d e : Dev} (h : d.Aside e) (n : Nat) (f : Chan → Chan) : (d.onCh n f).Aside (e.onCh n f) :=
  h.change (·.onCh n f) (fun _ _ g => congrArg (·.onCh n f) g) fun _ => rfl

/-! ### The state of a channel (R344), and its halt (R338) -/

theorem aside_setSt (n st : Nat) (d : Dev) : (d.onCh n fun c => { c with st := st }).Aside (setSt n st d) := .on _ (aside_ev ..)

/-- A state that stays as it is makes no event pending. -/
theorem setSt_same {n st : Nat} {d : Dev} (h : (d.ch n).st = st) : setSt n st d = d := by
  subst h
  have hb : ((d.ch n).st != (d.ch n).st) = false := by simp
  simp only [setSt, hb, Dev.on_false]
  exact Dev.onCh_id rfl

/-- What a halt makes of its channel. -/
def Chan.haltedAt (phase dir sp addr : Nat) (ecc nvto : Bool) (c : Chan) : Chan :=
  { c with st := 4, phase := phase, errl := nw addr, errh := nw (addr / 2 ^ 32), resid := if c.desc.isSome then c.len - c.wr else 0, slots := []
           erri := word [(b2n nvto, 9), (b2n ecc, 8), (sp, 4), (phase, 1), (dir, 0)] }

theorem aside_halt (n phase dir sp addr : Nat) (ecc nvto : Bool) (src : Nat) (d : Dev) :
    (d.onCh n (Chan.haltedAt phase dir sp addr ecc nvto)).Aside (halt n phase dir sp addr ecc nvto src d) := by
  unfold halt
  refine .trans ?_ (aside_raiseIn ..)
  refine Eq.subst (motive := fun e : Dev => e.Aside _) ?_ (aside_setSt n 4 _)
  rw [Dev.onCh_onCh]
  rfl

theorem halt_pends (n phase dir sp addr : Nat) (ecc nvto : Bool) (src : Nat) (d : Dev) : (halt n phase dir sp addr ecc nvto src d).pends 10 src .device :=
  raiseIn_pends ..

/-- The channel after a halt, and whatever its closing adds. -/
theorem halt_ch {n phase dir sp addr : Nat} {ecc nvto : Bool} {src : Nat} {d u : Dev} (hn : n < d.dma.ch.length)
    (hu : (halt n phase dir sp addr ecc nvto src d).Aside u) : u.ch n = (d.ch n).haltedAt phase dir sp addr ecc nvto := by
  rw [hu.ch, (aside_halt ..).ch, Dev.ch_onCh_self d _ hn]

/-! ### A descriptor taken up (R327, R330) -/

/-- The channel with the words of a descriptor it has just taken up. -/
def Chan.taking (c : Chan) (ws : List Word) : Chan := { c.clear with desc := some ws, st := 2 }

/-- R330 step 2 over the fields of Table 12-2. -/
theorem descBad_iff (c : Chan) : descBad c = true ↔
    tst (c.w 0) 28 = true ∨ fld (c.w 0) 27 16 ≠ 0 ∨ tst (c.w 0) 7 = true ∨ fld (c.w 1) 31 24 ≠ 0 ∨ c.w 6 ≠ 0 ∨ 9 ≤ c.ssp ∨ 9 ≤ c.dsp ∨
      (c.bcast = true ∧ (c.dsp < 4 ∨ 8 ≤ c.dsp)) ∨ (((c.dsp < 4 ∨ 8 ≤ c.dsp) ∧ c.ssp < 4 ∨ c.bcast = true) ∧ c.tile ≠ 0) := by
  have hf : fld (c.w 0) 27 24 ≠ 0 ∨ fld (c.w 0) 23 16 ≠ 0 ↔ fld (c.w 0) 27 16 ≠ 0 := by
    unfold fld
    omega
  simp only [descBad, Bool.or_eq_true, Bool.and_eq_true, Bool.not_eq_true', bne_iff_ne, decide_eq_true_eq, Bool.and_eq_false_iff, Bool.or_eq_false_iff,
    decide_eq_false_iff_not, ← hf]
  grind

/-- R329: the legal pairs, over numbers. -/
theorem pairOk_iff (s t : Nat) : pairOk s t = true ↔ (s = 0 ∧ 1 ≤ t ∧ t ≤ 7) ∨ (t = 0 ∧ 1 ≤ s ∧ s ≤ 8) ∨ (s = 1 ∧ 2 ≤ t ∧ t ≤ 7) := by
  simp only [pairOk, Bool.or_eq_true, Bool.and_eq_true, beq_iff_eq, decide_eq_true_eq, or_assoc, and_assoc]

/-- R319, Table 12-3: the condition of a space, over the marks of the cores and the trace. -/
theorem spaceCond_iff (d : Dev) (sp t : Nat) : spaceCond d sp t = true ↔
    (sp = 2 ∨ sp = 3 → d.ridge.isHalted = true) ∧ (sp = 4 → (d.tl t).core.isHalted = true) ∧
      (sp = 5 → (d.tl t).core.isHalted = true ∨ (d.tl t).core.on = true ∧ (d.tl t).core.loaded = false) ∧ (sp = 8 → (d.tl t).trace.st = 3) := by
  unfold spaceCond
  split <;> simp_all

/-- Table 12-3: a destination or source of tile space holds no more than 64 KiB, but for the trace buffer. -/
theorem spaceSize_tile {d : Dev} {sp t : Nat} (h4 : 4 ≤ sp) (h7 : sp ≤ 7) : spaceSize d sp t ≤ 0x10000 := by
  obtain rfl | rfl | rfl | rfl : sp = 4 ∨ sp = 5 ∨ sp = 6 ∨ sp = 7 := by omega
  all_goals simp [spaceSize]

/-- What `beginDesc` does with a channel that runs: it takes the words, and then halts, ends with a status, or goes on from there. -/
theorem beginDesc_eq {n : Nat} {ws : List Word} {d : Dev} {c : Chan} (hn : n < d.dma.ch.length) (hst : (d.ch n).st = 2) (hc : (d.ch n).taking ws = c) :
    beginDesc n ws d =
      if !tst (c.w 0) 31 || descBad c then halt n 0 0 c.ringSp (c.entry c.head) false false 1 (d.onCh n fun _ => c.clear)
      else if descStatus d c ≠ 0 then d.onCh n fun _ => { c with status := descStatus d c, wb := true }
      else if c.bcast then d.onCh n fun _ => { c with refused := (d.tilesOn.map fun t => (t, tileRefusal d c.dsp t)).filter fun p => p.2 != 0 }
      else d.onCh n fun _ => c := by
  have hset : setSt n 2 (d.onCh n fun c => { c.clear with desc := some ws }) = d.onCh n fun _ => c := by
    rw [setSt_same]
    · refine Dev.onCh_congr ?_
      simp only [← hc, Chan.taking, Chan.clear, hst]
    · rw [Dev.ch_onCh_self d _ hn]
      exact hst
  have hch : (d.onCh n fun _ => c).ch n = c := Dev.ch_onCh_self d _ hn
  unfold beginDesc
  dsimp only
  simp only [hset, hch, Dev.onCh_onCh]
  rfl

theorem descFetch_due {m : List Host.Cell} {n : Nat} {words : List Word} {d : Dev} (h1 : 1 ≤ n) (h8 : n < 8)
    (h : (d.ch n).en = true ∧ (d.ch n).st = 2 ∧ (d.ch n).desc = none ∧ (d.ch n).head ≠ (d.ch n).tail) :
    descFetch m n words d = beginDesc n (if (d.ch n).rloc then ramDesc m (d.ch n) else words) d := by
  obtain ⟨hen, hst, hdesc, hhead⟩ := h
  simp [descFetch, h1, h8, hen, hst, hdesc, bne_iff_ne.2 hhead]

theorem descFetch_idle {m : List Host.Cell} {n : Nat} {words : List Word} {d : Dev}
    (h : ¬ ((d.ch n).en = true ∧ (d.ch n).st = 2 ∧ (d.ch n).desc = none ∧ (d.ch n).head ≠ (d.ch n).tail)) : descFetch m n words d = d := by
  have hc : (1 ≤ n && n < 8 && (d.ch n).en && (d.ch n).st == 2 && (d.ch n).desc.isNone && (d.ch n).head != (d.ch n).tail) = false := by
    refine Bool.eq_false_iff.2 fun hc => ?_
    simp only [Bool.and_eq_true, beq_iff_eq, bne_iff_ne, Option.isNone_iff_eq_none] at hc
    obtain ⟨⟨⟨⟨-, hen⟩, hst⟩, hdesc⟩, hhead⟩ := hc
    exact h ⟨hen, hst, hdesc, hhead⟩
  simp only [descFetch, hc, Dev.on_false]

/-! ### A source burst (R332, R333, R339) -/

/-- The bytes of the next source burst. -/
def Dev.burstIn (m : List Host.Cell) (d : Dev) (n : Nat) (data : List Byte) : List Byte :=
  if (d.ch n).ssp = 0 then data
  else spaceRead m d (d.ch n).ssp (d.ch n).tile ((d.ch n).src + (d.ch n).readAt) ((d.ch n).burst (d.ch n).readAt)

/-- The next source burst of a channel may arrive: it runs, has a slot for it, and non-volatile memory is not in use by a flush. -/
def Dev.mayRead (m : List Host.Cell) (d : Dev) (n : Nat) (data : List Byte) : Prop :=
  (d.ch n).st = 2 ∧ (d.ch n).desc.isSome = true ∧ (d.ch n).wb = false ∧
    ((d.ch n).slots.find? (·.data.isEmpty) = none →
      (d.ch n).rd < (d.ch n).len ∧ (d.ch n).slots.length < (d.ch n).maxslot ∧ (d.dma.ch.map fun c => c.slots.length).foldl (· + ·) 0 < 64) ∧
    (d.burstIn m n data).length = (d.ch n).burst (d.ch n).readAt ∧ ((d.ch n).ssp = 1 → d.log.flush = none)

theorem mayRead_iff (m : List Host.Cell) (d : Dev) (n : Nat) (data : List Byte) : d.mayRead m n data ↔
    ¬ ((d.ch n).st ≠ 2 ∨ (d.ch n).desc.isNone ∨ (d.ch n).wb ∨ (!(d.ch n).slots.any (·.data.isEmpty) ∧ ((d.ch n).len ≤ (d.ch n).rd ∨
      (d.ch n).maxslot ≤ (d.ch n).slots.length ∨ 64 ≤ (d.dma.ch.map fun c => c.slots.length).foldl (· + ·) 0)) ∨
      (d.burstIn m n data).length ≠ (d.ch n).burst (d.ch n).readAt ∨ ((d.ch n).ssp = 1 ∧ d.log.flush.isSome)) := by
  have hd : (d.ch n).desc.isNone = !(d.ch n).desc.isSome := by cases (d.ch n).desc <;> rfl
  have hf : d.log.flush.isSome = true ↔ ¬ d.log.flush = none := by cases d.log.flush <;> simp
  have hw : (!(d.ch n).slots.any (·.data.isEmpty)) = true ↔ (d.ch n).slots.find? (·.data.isEmpty) = none := by
    rw [← List.isSome_find?]
    cases (d.ch n).slots.find? (·.data.isEmpty) <;> simp
  rw [hd, hw, hf, Dev.mayRead]
  grind

theorem sourceBurst_waits {m : List Host.Cell} {n : Nat} {data : List Byte} {bad : Bool} {d : Dev} (h : ¬ d.mayRead m n data) :
    sourceBurst m n data bad d = d := by
  rw [mayRead_iff, Classical.not_not] at h
  exact if_pos h

theorem sourceBurst_good {m : List Host.Cell} {n : Nat} {data : List Byte} {d : Dev} (h : d.mayRead m n data) :
    sourceBurst m n data false d = d.onCh n fun c => c.take (d.ch n).readAt (d.burstIn m n data) :=
  if_neg ((mayRead_iff ..).1 h)

/-- A burst with an uncorrectable byte is counted and reported; then it is to be read again, or halts its channel. -/
theorem sourceBurst_bad {m : List Host.Cell} {n : Nat} {data : List Byte} {d : Dev} (h : d.mayRead m n data) :
    sourceBurst m n data true d =
      if (d.ch n).reread.contains (d.ch n).readAt then
        halt n 1 0 (d.ch n).ssp ((d.ch n).src + (d.ch n).readAt) true false 0 (raise 8 8 .device 0 (badRead d))
      else (raise 8 8 .device 0 (badRead d)).onCh n fun c => { c with reread := (d.ch n).readAt :: c.reread } :=
  if_neg ((mayRead_iff ..).1 h)

theorem incSat_eq (hi n : Nat) : incSat hi n = min hi (n + 1) := by
  unfold incSat
  split <;> omega

theorem badRead_uncorr (d : Dev) : (badRead d).flt.uncorr = min 0xFFFF (d.flt.uncorr + 1) := incSat_eq _ _

theorem badRead_eq (d : Dev) : badRead d = { d with flt := { d.flt with uncorr := min 0xFFFF (d.flt.uncorr + 1) } } := by
  rw [← incSat_eq]
  rfl

/-! ### DESCRIPTOR_FETCH (R327, R330) -/

/-- The channel with the descriptor that a fetch brings it. -/
def State.fetched (s : State) (n : Nat) (words : List Word) : Chan :=
  (s.dev.ch n).taking (if (s.dev.ch n).rloc then ramDesc s.mem (s.dev.ch n) else words)

/-- A descriptor is due: the channel runs, has none in progress, and its ring is not empty. -/
def Chan.due (c : Chan) : Prop := c.en = true ∧ c.st = 2 ∧ c.desc = none ∧ c.head ≠ c.tail

section
variable {s : State} {n : Nat} {words : List Word}

theorem exec_descriptorFetch (h1 : 1 ≤ n) (h8 : n < 8) (hn : n < s.dev.dma.ch.length) (hd : (s.dev.ch n).due) {c : Chan} (hc : s.fetched n words = c) :
    exec (.descriptorFetch n words) s = fin s (
      if !tst (c.w 0) 31 || descBad c then halt n 0 0 c.ringSp (c.entry c.head) false false 1 (s.dev.onCh n fun _ => c.clear)
      else if descStatus s.dev c ≠ 0 then s.dev.onCh n fun _ => { c with status := descStatus s.dev c, wb := true }
      else if c.bcast then
        s.dev.onCh n fun _ => { c with refused := (s.dev.tilesOn.map fun t => (t, tileRefusal s.dev c.dsp t)).filter fun p => p.2 != 0 }
      else s.dev.onCh n fun _ => c) :=
  congrArg (fin s) ((descFetch_due h1 h8 hd).trans (beginDesc_eq hn hd.2.1 hc))

theorem descriptorFetch_halts (h1 : 1 ≤ n) (h8 : n < 8) (hn : n < s.dev.dma.ch.length) (hd : (s.dev.ch n).due)
    (hbad : tst ((s.fetched n words).w 0) 31 = false ∨ descBad (s.fetched n words) = true) :
    s.makes (.descriptorFetch n words) fun u => (u.ch n).st = 4 ∧ (u.ch n).desc = none ∧ u.pends 10 1 .device := by
  have he := exec_descriptorFetch (words := words) h1 h8 hn hd rfl
  rw [if_pos (by rcases hbad with h | h <;> simp [h])] at he
  refine State.makes_of he fun u hu => ?_
  have hch := halt_ch (by simpa using hn) hu
  rw [Dev.ch_onCh_self _ _ hn] at hch
  rw [hch]
  exact ⟨rfl, rfl, hu.pends _ _ _ (halt_pends ..)⟩

/-- A descriptor that a channel takes up without halting. -/
theorem descriptorFetch_takes (h1 : 1 ≤ n) (h8 : n < 8) (hn : n < s.dev.dma.ch.length) (hd : (s.dev.ch n).due)
    (hown : tst ((s.fetched n words).w 0) 31 = true) (hok : descBad (s.fetched n words) = false) :
    s.makes (.descriptorFetch n words) fun u => u.ch n =
      let c := s.fetched n words
      if descStatus s.dev c ≠ 0 then { c with status := descStatus s.dev c, wb := true }
      else if c.bcast then { c with refused := (s.dev.tilesOn.map fun t => (t, tileRefusal s.dev c.dsp t)).filter fun p => p.2 != 0 }
      else c := by
  have he := exec_descriptorFetch (words := words) h1 h8 hn hd rfl
  rw [if_neg (by simp [hown, hok])] at he
  refine State.makes_of he fun u hu => ?_
  rw [hu.ch]
  dsimp only
  split
  · exact Dev.ch_onCh_self _ _ hn
  · split
    · exact Dev.ch_onCh_self _ _ hn
    · exact Dev.ch_onCh_self _ _ hn

theorem descriptorFetch_idle (hi : s.Inv) (hd : ¬ (s.dev.ch n).due) : s.gives (.descriptorFetch n words) s.dev :=
  State.gives_calm (congrArg (fin s) (descFetch_idle hd)) hi (.refl _)

end

/-! ### SOURCE_BURST (R332, R339) -/

section
variable {s : State} {n : Nat} {data : List Byte}

theorem sourceBurst_idle (hi : s.Inv) (bad : Bool) (h : ¬ s.dev.mayRead s.mem n data) : s.gives (.sourceBurst n data bad) s.dev :=
  State.gives_calm (congrArg (fin s) (sourceBurst_waits h)) hi (.refl _)

/-- A burst enters the buffer: `g` is what `Chan.take` makes of the channel. -/
theorem sourceBurst_enters (hi : s.Inv) (h : s.dev.mayRead s.mem n data) {g : Chan → Chan}
    (hg : (s.dev.ch n).take (s.dev.ch n).readAt (s.dev.burstIn s.mem n data) = g (s.dev.ch n)) : s.gives (.sourceBurst n data false) (s.dev.onCh n g) :=
  State.gives_calm (congrArg (fin s) ((sourceBurst_good h).trans (Dev.onCh_congr hg))) hi ((Dev.Calm.refl _).onCh n g)

theorem sourceBurst_again (h : s.dev.mayRead s.mem n data) (ho : (s.dev.ch n).readAt ∉ (s.dev.ch n).reread) :
    s.leads (.sourceBurst n data true) ((badRead s.dev).onCh n fun c => { c with reread := (s.dev.ch n).readAt :: c.reread }) [(8, 8, .device)] := by
  have he : exec (.sourceBurst n data true) s = fin s _ := congrArg (fin s) (sourceBurst_bad h)
  rw [if_neg (by simpa using ho)] at he
  refine State.leads_of he ((aside_raise ..).onCh n _) fun f hf => ?_
  rw [List.mem_singleton.1 hf]
  exact raise_pends 8 8 .device 0 (badRead s.dev)

theorem sourceBurst_halts (hn : n < s.dev.dma.ch.length) (h : s.dev.mayRead s.mem n data) (ho : (s.dev.ch n).readAt ∈ (s.dev.ch n).reread) :
    s.makes (.sourceBurst n data true) fun u => u.flt.uncorr = min 0xFFFF (s.dev.flt.uncorr + 1) ∧
      (u.ch n).st = 4 ∧ (u.ch n).phase = 1 ∧ (u.ch n).slots = [] ∧ u.pends 8 8 .device ∧ u.pends 10 0 .device := by
  have he : exec (.sourceBurst n data true) s = fin s _ := congrArg (fin s) (sourceBurst_bad h)
  rw [if_pos (by simpa using ho)] at he
  refine State.makes_of he fun u hu => ?_
  have hr : (badRead s.dev).Aside (raise 8 8 .device 0 (badRead s.dev)) := aside_raise ..
  have hlen : n < (raise 8 8 .device 0 (badRead s.dev)).dma.ch.length := by rw [hr.dma]; exact hn
  have hh := aside_halt n 1 0 (s.dev.ch n).ssp ((s.dev.ch n).src + (s.dev.ch n).readAt) true false 0 (raise 8 8 .device 0 (badRead s.dev))
  rw [halt_ch hlen hu]
  refine ⟨?_, rfl, rfl, rfl, (hh.trans hu).pends _ _ _ (raise_pends 8 8 .device 0 (badRead s.dev)), hu.pends _ _ _ (halt_pends ..)⟩
  rw [(hh.trans hu).uncorr, Dev.onCh_flt, hr.uncorr, badRead_uncorr]

end

end Sys2Proof.Machine
end

section
/-!
SUPPORT. What a burst written to a space changes: the bytes of its block of the memory map, one tile's marks, the system bus (R114, R332, R335, R367).
-/
namespace Sys2Proof.Machine

/-! ### Bytes written one by one, some of them dropped (R114) -/

/-- Bytes with the offsets at which they stand from `o` on. -/
def placed (o : Nat) : List Byte → List (Nat × Byte)
  | [] => []
  | b :: l => (o, b) :: placed (o + 1) l

theorem mapI_placed (o i : Nat) (l : List Byte) : mapI (fun i (p : Nat × Byte) => (o + i, p.2)) i (l.map fun b => (0, b)) = placed (o + i) l := by
  induction l generalizing i with
  | nil => rfl
  | cons b l ih => simp only [List.map_cons, mapI, placed, ih, Nat.add_assoc]

theorem placed_any (q : Nat → Bool) (o : Nat) (l : List Byte) : ((placed o l).any fun p => q p.1) = (List.range l.length).any fun i => q (o + i) := by
  induction l generalizing o with
  | nil => rfl
  | cons b l ih =>
    have hs : ∀ i, o + 1 + i = o + (i + 1) := by omega
    simp only [placed, List.any_cons, ih, hs, List.length_cons, List.range_succ_eq_map, List.any_map, Function.comp_def, Nat.add_zero]

/-- Bytes written at `B` and their offsets, but for the offsets at which `k` fails. -/
def writeKept (B : Nat) (k : Nat → Bool) (o : Nat) (l : List Byte) (m : List Host.Cell) : List Host.Cell :=
  ((placed o l).filter fun p => k p.1).foldl (fun m p => Mem.write m (B + p.1) p.2) m

theorem writeKept_cons (B : Nat) (k : Nat → Bool) (o : Nat) (b : Byte) (l : List Byte) (m : List Host.Cell) :
    writeKept B k o (b :: l) m = writeKept B k (o + 1) l (if k o then Mem.write m (B + o) b else m) := by
  cases h : k o <;> simp [writeKept, placed, h]

/-- One byte written where it is kept. -/
theorem writeIf_wf {m : List Host.Cell} (p : Bool) (a : Nat) (b : Byte) (h : Memory.wf m = true) : Memory.wf (if p then Mem.write m a b else m) = true := by
  split
  · exact Mem.write_wf a b h
  · exact h

theorem writeIf_ne {m : List Host.Cell} (p : Bool) {a x : Nat} (b : Byte) (hx : x ≠ a) (h : Memory.wf m = true) :
    Mem.read (if p then Mem.write m a b else m) x = Mem.read m x := by
  split
  · exact Mem.read_write_ne a x b hx h
  · rfl

theorem writeKept_wf (B : Nat) (k : Nat → Bool) (o : Nat) (l : List Byte) {m : List Host.Cell} (h : Memory.wf m = true) :
    Memory.wf (writeKept B k o l m) = true := Mem.foldl_wf' _ (fun _ _ h => Mem.write_wf _ _ h) _ m h

theorem writeKept_out (B : Nat) (k : Nat → Bool) (o : Nat) (l : List Byte) {m : List Host.Cell} (h : Memory.wf m = true) {q : Nat}
    (hq : q < B + o ∨ B + o + l.length ≤ q) : Mem.read (writeKept B k o l m) q = Mem.read m q := by
  induction l generalizing o m with
  | nil => rfl
  | cons b l ih =>
    rw [List.length_cons] at hq
    rw [writeKept_cons, ih _ (writeIf_wf _ _ _ h) (by omega), writeIf_ne _ _ (by omega) h]

theorem writeKept_at (B : Nat) (k : Nat → Bool) (o : Nat) (l : List Byte) {m : List Host.Cell} (h : Memory.wf m = true) {i : Nat} (hi : i < l.length) :
    Mem.read (writeKept B k o l m) (B + o + i) = if k (o + i) then l.getD i 0 else Mem.read m (B + o + i) := by
  induction l generalizing o m i with
  | nil => cases hi
  | cons b l ih =>
    rw [writeKept_cons]
    cases i with
    | zero =>
      rw [writeKept_out _ _ _ _ (writeIf_wf _ _ _ h) (by omega)]
      cases k o
      · simp
      · simp [Mem.read_write_self _ _ h]
    | succ i =>
      have hB : B + o + (i + 1) = B + (o + 1) + i := by omega
      have ho : o + (i + 1) = o + 1 + i := by omega
      rw [hB, ho, ih _ (writeIf_wf _ _ _ h) (by simpa using hi), writeIf_ne _ _ (by omega) h, List.getD_cons_succ]

/-- Bytes written, read back one by one. -/
theorem Mem.read_writeL_at (l : List Byte) {m : List Host.Cell} (a : Nat) (h : Memory.wf m = true) {i : Nat} (hi : i < l.length) :
    Mem.read (Mem.writeL m a l) (a + i) = l.getD i 0 := by
  induction l generalizing m a i with
  | nil => cases hi
  | cons b l ih =>
    cases i with
    | zero => rw [Nat.add_zero, Mem.writeL, Mem.read_writeL_out _ _ _ (by omega) (Mem.write_wf a b h), Mem.read_write_self a b h, List.getD_cons_zero]
    | succ i =>
      have ha : a + (i + 1) = a + 1 + i := by omega
      rw [Mem.writeL, ha, ih (a + 1) (Mem.write_wf a b h) (by simpa using hi), List.getD_cons_succ]

/-! ### Live slots and the tile that holds them (R114) -/

theorem Tile.hard_clsOn {x y : Tile} (h : x.hard = y.hard) : x.clsOn = y.clsOn := by
  have hp : x.present = y.present := by
    have := congrArg Tile.present h
    exact this
  have hc : x.clusters.map Cluster.hard = y.clusters.map Cluster.hard := congrArg Tile.clusters h
  have hi : idxs (fun k : Cluster => k.present) 0 x.clusters = idxs (fun k : Cluster => k.present) 0 y.clusters :=
    idxs_congr Cluster.hard _ (fun k l g => by have := congrArg Cluster.present g; exact this) _ _ _ hc
  simp only [Tile.clsOn, hp, hi]

theorem Tile.hard_slot {x y : Tile} (h : x.hard = y.hard) (c : Nat) : (x.clusters.getD c {}).fus.slot = (y.clusters.getD c {}).fus.slot := by
  have hk : (x.clusters.getD c {}).hard = (y.clusters.getD c {}).hard := by rw [← Tile.hard_cl, ← Tile.hard_cl, h]
  have := congrArg (fun k : Cluster => k.fus.slot) hk
  exact this

/-- A slot is live by the tile's hard part and the region map alone. -/
theorem offLive_congr {m m' : List Host.Cell} {x y : Tile} {t : Nat} (h : x.hard = y.hard)
    (hm : ∀ q, storeBase t + 0xF080 ≤ q → q < storeBase t + 0xF180 → Mem.read m q = Mem.read m' q) (o : Nat) : offLive m x t o = offLive m' y t o := by
  have hmap : ∀ dm : Domain, ∀ r < regions dm, mapAt m t (domCode dm) r = mapAt m' t (domCode dm) r := by
    intro dm r hr
    have hb : regions dm ≤ 36 ∧ domCode dm ≤ 3 := by cases dm <;> decide
    simp only [mapAt]
    rw [hm _ (by omega) (by omega)]
  have hany : ∀ (dm : Domain) (s : Nat), ((List.range (regions dm)).any fun r => mapAt m t (domCode dm) r == s) =
      (List.range (regions dm)).any fun r => mapAt m' t (domCode dm) r == s := by
    intro dm s
    rw [Bool.eq_iff_iff, List.any_eq_true, List.any_eq_true]
    refine exists_congr fun r => and_congr_right fun hr => ?_
    rw [hmap dm r (List.mem_range.1 hr)]
  have hlive : ∀ s, slotLive m x t s = slotLive m' y t s := by
    intro s
    simp only [slotLive, Tile.domains, Tile.hard_clsOn h, hany, Tile.hard_slot h]
  unfold offLive
  split
  · exact hlive _
  · rfl

/-! ### One space written (R335) -/

/-- R114: a byte at store offset `o` that a write to a space keeps as it is, and counts as dropped: of a live slot or of the map. -/
def storeKeeps (m : List Host.Cell) (d : Dev) (sp t o : Nat) : Bool := sp == 6 && (offLive m (d.tl t) t o || offMap o)

theorem storeKeeps_iff (m : List Host.Cell) (d : Dev) (sp t o : Nat) :
    storeKeeps m d sp t o = true ↔ sp = 6 ∧ (offLive m (d.tl t) t o = true ∨ offMap o = true) := by simp [storeKeeps]

theorem storeBytes_mem (t o : Nat) (l : List Byte) (m : List Host.Cell) (d : Dev) :
    (storeBytes t o l m d).1 = writeKept (storeBase t) (fun q => !offLive m (d.tl t) t q && !offMap q && q < 0xF440) o l m := by
  simp only [storeBytes, mapI_placed]
  rfl

theorem storeBytes_dropped (t o : Nat) (l : List Byte) (m : List Host.Cell) (d : Dev) :
    (storeBytes t o l m d).2.2 = (List.range l.length).any fun i => storeKeeps m d 6 t (o + i) := by
  simp only [storeBytes, mapI_placed, storeKeeps, beq_self_eq_true, Bool.true_and]
  exact placed_any (fun q => offLive m (d.tl t) t q || offMap q) o l

/-- Of the block a write to a store changes the tile's Fusee, but for a fault that it raises. -/
theorem storeBytes_aside (t o : Nat) (l : List Byte) (m : List Host.Cell) (d : Dev) : ∃ f, (d.onTFus t f).Aside (storeBytes t o l m d).2.1 :=
  ⟨_, .on _ (aside_raise ..)⟩

section
variable (sp t a : Nat) (l : List Byte) (m : List Host.Cell) (d : Dev)

theorem spaceWrite_mem_plain (h0 : sp ≠ 0) (h6 : sp ≠ 6) : (spaceWrite sp t a l m d).1 = Mem.writeL m (spaceBase sp t + a) l := by
  unfold spaceWrite
  split
  case _ => exact absurd rfl h0
  case _ => rw [show spaceBase 2 t = 0 from rfl, Nat.zero_add]
  case _ => rfl
  case _ => exact absurd rfl h6
  case _ => rfl
  case _ => rfl

theorem spaceWrite_ch : (spaceWrite sp t a l m d).2.1.dma.ch = d.dma.ch := by
  unfold spaceWrite
  split
  case h_3 => rw [Dev.onCore_dma]
  case h_4 =>
    obtain ⟨f, hf⟩ := storeBytes_aside t a l m d
    rw [hf.dma]
    rfl
  all_goals rfl

theorem spaceWrite_bus (h0 : sp ≠ 0) : (spaceWrite sp t a l m d).2.1.dma.bus = d.dma.bus := by
  unfold spaceWrite
  split
  case h_1 => exact absurd rfl h0
  case h_3 => rw [Dev.onCore_dma]
  case h_4 =>
    obtain ⟨f, hf⟩ := storeBytes_aside t a l m d
    rw [hf.dma]
    rfl
  all_goals rfl

/-- A write to a space of a tile leaves every other tile, but for what a fault may add. -/
theorem spaceWrite_tl {u : Nat} (hu : u ≠ t) : ((spaceWrite sp t a l m d).2.1.tl u).hard = (d.tl u).hard := by
  have hne : ∀ f, (d.onT t f).tl u = d.tl u := fun f => by simp [Dev.tl_onT, hu.symm]
  unfold spaceWrite
  split
  case h_3 => exact congrArg Tile.hard (hne _)
  case h_4 =>
    obtain ⟨f, hf⟩ := storeBytes_aside t a l m d
    rw [hf.tl]
    exact congrArg Tile.hard (hne _)
  case h_5 => exact congrArg Tile.hard (hne _)
  all_goals rfl

theorem spaceWrite_dropped : (spaceWrite sp t a l m d).2.2 = (List.range l.length).any fun i => storeKeeps m d sp t (a + i) := by
  have hno : ∀ sp, sp ≠ 6 → ((List.range l.length).any fun i => storeKeeps m d sp t (a + i)) = false := by
    intro sp h6
    simp [storeKeeps, h6]
  unfold spaceWrite
  split
  case h_4 => exact storeBytes_dropped t a l m d
  case h_6 => exact (hno _ ‹sp = 6 → False›).symm
  all_goals exact (hno _ (by decide)).symm

variable {m} (hm : Memory.wf m = true)
include hm

theorem spaceWrite_wf : Memory.wf (spaceWrite sp t a l m d).1 = true := by
  by_cases h0 : sp = 0
  · subst h0
    exact hm
  by_cases h6 : sp = 6
  · subst h6
    rw [show (spaceWrite 6 t a l m d).1 = _ from storeBytes_mem t a l m d]
    exact writeKept_wf _ _ _ _ hm
  · rw [spaceWrite_mem_plain sp t a l m d h0 h6]
    exact Mem.writeL_wf l _ hm

/-- A write to a space leaves every byte outside its block, and one to system memory every byte. -/
theorem spaceWrite_out {q : Nat} (hq : sp = 0 ∨ q < spaceBase sp t + a ∨ spaceBase sp t + a + l.length ≤ q) :
    Mem.read (spaceWrite sp t a l m d).1 q = Mem.read m q := by
  by_cases h0 : sp = 0
  · subst h0
    rfl
  have hq := hq.resolve_left h0
  by_cases h6 : sp = 6
  · subst h6
    rw [show (spaceWrite 6 t a l m d).1 = _ from storeBytes_mem t a l m d]
    exact writeKept_out _ _ _ _ hm hq
  · rw [spaceWrite_mem_plain sp t a l m d h0 h6]
    exact Mem.read_writeL_out l _ q hq hm

/-- What a write to an inner space leaves at each byte of its block. -/
theorem spaceWrite_at (h0 : sp ≠ 0) {i : Nat} (hi : i < l.length) : Mem.read (spaceWrite sp t a l m d).1 (spaceBase sp t + a + i) =
    if storeKeeps m d sp t (a + i) = true ∨ sp = 6 ∧ 0xF440 ≤ a + i then Mem.read m (spaceBase sp t + a + i) else l.getD i 0 := by
  by_cases h6 : sp = 6
  · subst h6
    rw [show (spaceWrite 6 t a l m d).1 = _ from storeBytes_mem t a l m d, show spaceBase 6 t = storeBase t from rfl, writeKept_at _ _ _ _ hm hi]
    have hk : (!offLive m (d.tl t) t (a + i) && !offMap (a + i) && decide (a + i < 0xF440)) = true ↔
        ¬ (storeKeeps m d 6 t (a + i) = true ∨ 6 = 6 ∧ 0xF440 ≤ a + i) := by
      simp [storeKeeps]
    exact (ite_congr (propext hk) (fun _ => rfl) fun _ => rfl).trans (ite_not ..)
  · rw [spaceWrite_mem_plain sp t a l m d h0 h6, Mem.read_writeL_at l _ hm hi, if_neg (by simp [storeKeeps, h6])]

end

/-! ### The same burst written to the spaces of several tiles (R331) -/

/-- One tile of a burst: memory, block, and whether a byte has been dropped. -/
def writeStep (sp a : Nat) (l : List Byte) (r : List Host.Cell × Dev × Bool) (t : Nat) : List Host.Cell × Dev × Bool :=
  let x := spaceWrite sp t a l r.1 r.2.1
  (x.1, x.2.1, r.2.2 || x.2.2)

/-- All tiles of a burst, in turn. -/
def writeAll (sp a : Nat) (l : List Byte) (ts : List Nat) (r : List Host.Cell × Dev × Bool) : List Host.Cell × Dev × Bool := ts.foldl (writeStep sp a l) r

/-- A tile's spaces lie in 16 MiB of their own. -/
theorem spaceBase_tile {sp : Nat} (t : Nat) (h4 : 4 ≤ sp) (h7 : sp ≤ 7) : tileBase t ≤ spaceBase sp t ∧ spaceBase sp t + 0x10000 ≤ tileBase (t + 1) := by
  obtain rfl | rfl | rfl | rfl : sp = 4 ∨ sp = 5 ∨ sp = 6 ∨ sp = 7 := by omega
  all_goals simp only [spaceBase, storeBase, fmaxBase, tileBase, dataRam]; omega

/-- The blocks of two tiles are apart. -/
theorem spaceBase_apart {sp t u a n q : Nat} (h4 : 4 ≤ sp) (h7 : sp ≤ 7) (hn : a + n ≤ 0x10000) (hu : u ≠ t) (hq : spaceBase sp u ≤ q)
    (hq' : q < spaceBase sp u + 0x10000) : q < spaceBase sp t + a ∨ spaceBase sp t + a + n ≤ q := by
  obtain ⟨hu1, hu2⟩ := spaceBase_tile u h4 h7
  obtain ⟨ht1, ht2⟩ := spaceBase_tile t h4 h7
  simp only [tileBase] at hu1 hu2 ht1 ht2
  omega

/-- A write to one tile's space leaves what another tile keeps. -/
theorem storeKeeps_spaceWrite {sp t u a : Nat} (l : List Byte) {m : List Host.Cell} (d : Dev) (hm : Memory.wf m = true)
    (hfit : sp = 6 → a + l.length ≤ 0x10000) (hu : u ≠ t) (o : Nat) :
    storeKeeps (spaceWrite sp t a l m d).1 (spaceWrite sp t a l m d).2.1 sp u o = storeKeeps m d sp u o := by
  by_cases h6 : sp = 6
  · have hlive : offLive (spaceWrite sp t a l m d).1 ((spaceWrite sp t a l m d).2.1.tl u) u o = offLive m (d.tl u) u o := by
      refine offLive_congr (spaceWrite_tl sp t a l m d hu) (fun q h1 h2 => spaceWrite_out sp t a l d hm (.inr ?_)) o
      have hb : spaceBase sp u = storeBase u := by rw [h6]; rfl
      exact spaceBase_apart (by omega) (by omega) (hfit h6) hu (by omega) (by omega)
    simp only [storeKeeps, hlive]
  · simp only [storeKeeps, beq_eq_false_iff_ne.2 h6, Bool.false_and]

section
variable (sp a : Nat) (l : List Byte)

theorem writeAll_ch (ts : List Nat) (r : List Host.Cell × Dev × Bool) : (writeAll sp a l ts r).2.1.dma.ch = r.2.1.dma.ch :=
  foldl_keeps (fun r : List Host.Cell × Dev × Bool => r.2.1.dma.ch) (writeStep sp a l) (fun r t => spaceWrite_ch sp t a l r.1 r.2.1) ts r

theorem writeAll_bus (h0 : sp ≠ 0) (ts : List Nat) (r : List Host.Cell × Dev × Bool) : (writeAll sp a l ts r).2.1.dma.bus = r.2.1.dma.bus :=
  foldl_keeps (fun r : List Host.Cell × Dev × Bool => r.2.1.dma.bus) (writeStep sp a l) (fun r t => spaceWrite_bus sp t a l r.1 r.2.1 h0) ts r

theorem writeAll_out (ts : List Nat) (r : List Host.Cell × Dev × Bool) (hm : Memory.wf r.1 = true) {q : Nat}
    (hq : sp = 0 ∨ ∀ t ∈ ts, q < spaceBase sp t + a ∨ spaceBase sp t + a + l.length ≤ q) : Mem.read (writeAll sp a l ts r).1 q = Mem.read r.1 q := by
  induction ts generalizing r with
  | nil => rfl
  | cons t ts ih =>
    have ht : sp = 0 ∨ q < spaceBase sp t + a ∨ spaceBase sp t + a + l.length ≤ q := hq.imp_right fun h => h t List.mem_cons_self
    have hts := hq.imp_right fun h u hu => h u (List.mem_cons_of_mem t hu)
    exact (ih (writeStep sp a l r t) (spaceWrite_wf sp t a l r.2.1 hm) hts).trans (spaceWrite_out sp t a l r.2.1 hm ht)

/-- A byte is dropped exactly where the block, as it stands before the burst, keeps one. -/
theorem writeAll_dropped (hfit : sp = 6 → a + l.length ≤ 0x10000) (ts : List Nat) (hts : ts.Nodup) (r : List Host.Cell × Dev × Bool)
    (hm : Memory.wf r.1 = true) : (writeAll sp a l ts r).2.2 = (r.2.2 || ts.any fun t => (List.range l.length).any fun i => storeKeeps r.1 r.2.1 sp t (a + i)) := by
  induction ts generalizing r with
  | nil => simp [writeAll]
  | cons t ts ih =>
    obtain ⟨htn, hts⟩ := List.nodup_cons.1 hts
    have hstep : ∀ u ∈ ts, ∀ o, storeKeeps (writeStep sp a l r t).1 (writeStep sp a l r t).2.1 sp u o = storeKeeps r.1 r.2.1 sp u o :=
      fun u hu o => storeKeeps_spaceWrite l r.2.1 hm hfit (fun h : u = t => htn (h ▸ hu)) o
    have hrest : (ts.any fun u => (List.range l.length).any fun i => storeKeeps (writeStep sp a l r t).1 (writeStep sp a l r t).2.1 sp u (a + i)) =
        ts.any fun u => (List.range l.length).any fun i => storeKeeps r.1 r.2.1 sp u (a + i) := by
      rw [Bool.eq_iff_iff, List.any_eq_true, List.any_eq_true]
      refine exists_congr fun u => and_congr_right fun hu => ?_
      simp only [hstep u hu]
    have hih := ih hts (writeStep sp a l r t) (spaceWrite_wf sp t a l r.2.1 hm)
    rw [hrest, show (writeStep sp a l r t).2.2 = (r.2.2 || _) from congrArg (r.2.2 || ·) (spaceWrite_dropped sp t a l r.1 r.2.1), Bool.or_assoc] at hih
    rw [List.any_cons]
    exact hih

/-- What the burst leaves at each byte of each tile's block, where the blocks of several tiles lie apart. -/
theorem writeAll_at (h0 : sp ≠ 0) (ts : List Nat) (hts : ts.Nodup)
    (hsep : ∀ t ∈ ts, ∀ u ∈ ts, u ≠ t → 4 ≤ sp ∧ sp ≤ 7 ∧ a + l.length ≤ 0x10000)
    (r : List Host.Cell × Dev × Bool) (hm : Memory.wf r.1 = true) {t i : Nat} (ht : t ∈ ts) (hi : i < l.length) :
    Mem.read (writeAll sp a l ts r).1 (spaceBase sp t + a + i) =
      if storeKeeps r.1 r.2.1 sp t (a + i) = true ∨ sp = 6 ∧ 0xF440 ≤ a + i then Mem.read r.1 (spaceBase sp t + a + i) else l.getD i 0 := by
  induction ts generalizing r with
  | nil => cases ht
  | cons u ts ih =>
    obtain ⟨hun, hts⟩ := List.nodup_cons.1 hts
    have hm' : Memory.wf (writeStep sp a l r u).1 = true := spaceWrite_wf sp u a l r.2.1 hm
    rcases List.mem_cons.1 ht with rfl | ht
    · have hout : ∀ v ∈ ts, spaceBase sp t + a + i < spaceBase sp v + a ∨ spaceBase sp v + a + l.length ≤ spaceBase sp t + a + i := by
        intro v hv
        have hne : t ≠ v := fun h => hun (h ▸ hv)
        obtain ⟨h4, h7, hfit⟩ := hsep v (List.mem_cons_of_mem _ hv) t List.mem_cons_self hne
        exact spaceBase_apart h4 h7 hfit hne (by omega) (by omega)
      exact (writeAll_out sp a l ts (writeStep sp a l r t) hm' (.inr hout)).trans (spaceWrite_at sp t a l r.2.1 hm h0 hi)
    · have hne : t ≠ u := fun h => hun (h ▸ ht)
      obtain ⟨h4, h7, hfit⟩ := hsep u List.mem_cons_self t (List.mem_cons_of_mem _ ht) hne
      have hread : Mem.read (writeStep sp a l r u).1 (spaceBase sp t + a + i) = Mem.read r.1 (spaceBase sp t + a + i) :=
        spaceWrite_out sp u a l r.2.1 hm (.inr (spaceBase_apart h4 h7 hfit hne (by omega) (by omega)))
      have hkeep : storeKeeps (writeStep sp a l r u).1 (writeStep sp a l r u).2.1 sp t (a + i) = storeKeeps r.1 r.2.1 sp t (a + i) :=
        storeKeeps_spaceWrite l r.2.1 hm (fun _ => hfit) hne _
      have hih := ih hts (fun v hv w hw => hsep v (List.mem_cons_of_mem _ hv) w (List.mem_cons_of_mem _ hw)) (writeStep sp a l r u) hm' ht
      rw [hread, hkeep] at hih
      exact hih

end

end Sys2Proof.Machine
end

section
/-!
SUPPORT. The oldest burst of a channel written to its destination, or refused there (R319, R331 to R336, R339).
-/
namespace Sys2Proof.Machine

/-! ### Tiles present are listed once -/

theorem idxs_ge {α : Type} (p : α → Bool) (n : Nat) (l : List α) : ∀ i ∈ idxs p n l, n ≤ i := by
  induction l generalizing n with
  | nil => simp [idxs]
  | cons x l ih =>
    have hl : ∀ i ∈ idxs p (n + 1) l, n ≤ i := fun i hi => Nat.le_of_succ_le (ih (n + 1) i hi)
    unfold idxs
    split
    · exact List.forall_mem_cons.2 ⟨Nat.le_refl n, hl⟩
    · exact hl

theorem idxs_nodup {α : Type} (p : α → Bool) (n : Nat) (l : List α) : (idxs p n l).Nodup := by
  induction l generalizing n with
  | nil => exact List.nodup_nil
  | cons x l ih =>
    unfold idxs
    split
    · exact List.nodup_cons.2 ⟨fun h => Nat.not_succ_le_self n (idxs_ge p (n + 1) l n h), ih (n + 1)⟩
    · exact ih (n + 1)

theorem targets_nodup (c : Chan) (d : Dev) : (c.targets d).Nodup := by
  unfold Chan.targets
  split
  · exact (idxs_nodup _ 0 d.tiles).filter _
  · exact List.nodup_cons.2 ⟨List.not_mem_nil, List.nodup_nil⟩

/-! ### A destination that has shut (R319, R331, R336) -/

theorem shutTo_iff (d : Dev) (sp t : Nat) :
    shutTo d sp t = true ↔ if sp = 1 then d.dma.nvwen = false else 2 ≤ sp ∧ sp ≤ 5 ∧ spaceCond d sp t = false := by
  unfold shutTo
  split <;> simp [and_assoc]

/-- The tiles of a BCAST that refuse what is written to them from here on, and those that a burst still reaches. -/
def Dev.shutNow (d : Dev) (n : Nat) : List Nat := ((d.ch n).targets d).filter fun t => (d.ch n).bcast && shutTo d (d.ch n).dsp t
def Dev.openTo (d : Dev) (n : Nat) : List Nat := ((d.ch n).targets d).filter fun t => !((d.ch n).bcast && shutTo d (d.ch n).dsp t)

/-- A channel with tiles refused with STATE. -/
def Chan.refusing (c : Chan) (ts : List Nat) : Chan := { c with refused := c.refused ++ ts.map fun t => (t, 2) }

theorem Chan.refusing_nil (c : Chan) : c.refusing [] = c := by simp only [Chan.refusing, List.map_nil, List.append_nil]

theorem refused_any (ts : List Nat) (t : Nat) : ((ts.map fun t => (t, 2)).any fun p : Nat × Nat => p.1 == t) = decide (t ∈ ts) := by
  rw [Bool.eq_iff_iff, List.any_eq_true, decide_eq_true_iff]
  constructor
  · rintro ⟨p, hp, ht⟩
    obtain ⟨u, hu, rfl⟩ := List.mem_map.1 hp
    exact beq_iff_eq.1 ht ▸ hu
  · exact fun ht => ⟨(t, 2), List.mem_map.2 ⟨t, ht, rfl⟩, beq_iff_eq.2 rfl⟩

/-- Without BCAST no tile is refused on the way. -/
theorem Dev.shutNow_nil {d : Dev} {n : Nat} (hb : (d.ch n).bcast = false) : d.shutNow n = [] := by
  refine List.filter_eq_nil_iff.2 fun t _ => ?_
  rw [hb, Bool.false_and]
  exact Bool.false_ne_true

theorem Dev.openTo_one {d : Dev} {n : Nat} (hb : (d.ch n).bcast = false) : d.openTo n = [(d.ch n).tile] := by
  have ht : (d.ch n).targets d = [(d.ch n).tile] := if_neg (Bool.eq_false_iff.1 hb)
  rw [Dev.openTo, ht, hb]
  rfl

theorem refuseShut_shut {n : Nat} {d : Dev} (hb : (d.ch n).bcast = false) (hs : shutTo d (d.ch n).dsp (d.ch n).tile = true) :
    refuseShut n d = d.onCh n fun c => { c with status := 2, wb := true, slots := [] } := by
  simp only [refuseShut, hb, hs, Bool.false_eq_true, if_false, Dev.on_true]

theorem refuseShut_open {n : Nat} {d : Dev} (ho : (d.ch n).bcast = true ∨ shutTo d (d.ch n).dsp (d.ch n).tile = false) :
    refuseShut n d = d.onCh n fun _ => (d.ch n).refusing (d.shutNow n) := by
  cases hb : (d.ch n).bcast with
  | true =>
    simp only [refuseShut, hb, if_true]
    refine Dev.onCh_congr ?_
    simp only [Chan.refusing, Dev.shutNow, hb, Bool.true_and]
  | false =>
    have hs := ho.resolve_left (by simp [hb])
    simp only [refuseShut, hb, hs, Bool.false_eq_true, if_false, Dev.on_false]
    refine (Dev.onCh_id ?_).symm
    rw [Dev.shutNow_nil hb, Chan.refusing_nil]

/-- The tiles that remain once those that have shut are refused. -/
theorem targets_refusing (d e : Dev) (n : Nat) (he : e.tilesOn = d.tilesOn) : ((d.ch n).refusing (d.shutNow n)).targets e = d.openTo n := by
  cases hb : (d.ch n).bcast with
  | false =>
    rw [Dev.shutNow_nil hb, Chan.refusing_nil, Dev.openTo_one hb]
    exact if_neg (Bool.eq_false_iff.1 hb)
  | true =>
    have ht : (d.ch n).targets d = d.tilesOn.filter fun t => !(d.ch n).refused.any fun p => p.1 == t := if_pos hb
    have hr : ((d.ch n).refusing (d.shutNow n)).targets e =
        d.tilesOn.filter fun t => !((d.ch n).refused ++ (d.shutNow n).map fun t => (t, 2)).any fun p => p.1 == t := by
      rw [← he]
      exact if_pos hb
    rw [hr, Dev.openTo, ht, List.filter_filter]
    refine List.filter_congr fun t htile => ?_
    have hnow : decide (t ∈ d.shutNow n) = (!((d.ch n).refused.any fun p => p.1 == t) && shutTo d (d.ch n).dsp t) := by
      rw [Bool.eq_iff_iff, decide_eq_true_iff, Dev.shutNow, ht, hb, List.mem_filter, List.mem_filter, Bool.true_and, Bool.and_eq_true]
      exact ⟨fun h => ⟨h.1.2, h.2⟩, fun h => ⟨⟨htile, h.1⟩, h.2⟩⟩
    rw [List.any_append, refused_any, hnow, hb, Bool.true_and]
    cases (d.ch n).refused.any fun p => p.1 == t <;> cases shutTo d (d.ch n).dsp t <;> rfl

/-! ### DESTINATION_BURST -/

theorem destBurst_idle {n : Nat} {m : List Host.Cell} {d : Dev}
    (h : (d.ch n).slots = [] ∨ (d.ch n).wb = true ∨ (d.ch n).st ≠ 2 ∧ (d.ch n).st ≠ 3) : destBurst n m d = (m, d) := by
  have hc : ((d.ch n).desc.isSome && ((d.ch n).st == 2 || (d.ch n).st == 3) && !(d.ch n).wb && !(d.ch n).slots.isEmpty) = false := by
    rcases h with h | h | h <;> simp [h]
  unfold destBurst
  simp only [hc, Dev.on_false]
  split
  case h_2 => rfl
  case h_1 b r hs =>
    have hw : (d.ch n).wb = true ∨ (d.ch n).st ≠ 2 ∧ (d.ch n).st ≠ 3 := h.resolve_left (by simp [hs])
    have hb : (d.ch n).st ≠ 2 ∨ (d.ch n).wb = true := hw.elim .inr fun h => .inl h.1
    have ht : ¬ (((d.ch n).st = 2 ∨ (d.ch n).st = 3) ∧ (!(d.ch n).wb) = true) := by
      rw [Bool.not_eq_true', ← Bool.not_eq_true]
      rintro ⟨hst, hwb⟩
      exact hw.elim hwb fun h => hst.elim h.1 h.2
    rw [if_pos hb, if_neg ht, ite_self, ite_self, ite_self]

/-- A channel that has a burst to write. -/
def Chan.writing (c : Chan) (b : Burst) (r : List Burst) : Prop := c.slots = b :: r ∧ c.desc.isSome = true ∧ c.wb = false ∧ (c.st = 2 ∨ c.st = 3)

theorem destBurst_shut {n : Nat} {m : List Host.Cell} {d : Dev} {b : Burst} {r : List Burst} (hn : n < d.dma.ch.length) (hc : (d.ch n).writing b r)
    (hb : (d.ch n).bcast = false) (hs : shutTo d (d.ch n).dsp (d.ch n).tile = true) :
    destBurst n m d = (m, d.onCh n fun c => { c with status := 2, wb := true, slots := [] }) := by
  obtain ⟨hslots, hdesc, hwb, hst⟩ := hc
  have hg : ((d.ch n).desc.isSome && ((d.ch n).st == 2 || (d.ch n).st == 3) && !(d.ch n).wb && !(d.ch n).slots.isEmpty) = true := by
    simp [hslots, hdesc, hwb, hst]
  unfold destBurst
  simp only [hg, Dev.on_true, refuseShut_shut hb hs, Dev.ch_onCh_self d _ hn]

/-- The channel once its oldest burst is written. -/
def Chan.wrote (c : Chan) (b : Burst) (r : List Burst) (drop : Bool) : Chan :=
  { c with slots := r, wr := b.off + b.data.length, wb := decide (b.off + b.data.length = c.len), dropped := c.dropped || drop
           reread := c.reread.filter (· != b.off) }

/-- The same, as the burst that reaches the descriptor's length ends its data phase. -/
def Chan.ackBurst (c : Chan) (b : Burst) (r : List Burst) (drop : Bool) : Chan :=
  let c := { c with slots := r, wr := b.off + b.data.length, dropped := c.dropped || drop, reread := c.reread.filter (· != b.off) }
  if c.wr = c.len then { c with wb := true } else c

theorem Chan.ackBurst_eq {c : Chan} (b : Burst) (r : List Burst) (drop : Bool) (hw : c.wb = false) : c.ackBurst b r drop = c.wrote b r drop := by
  have hl : ({ c with slots := r, wr := b.off + b.data.length, dropped := c.dropped || drop, reread := c.reread.filter (· != b.off) } : Chan).len = c.len := rfl
  simp only [Chan.ackBurst, hl]
  split
  · next h => simp only [Chan.wrote, decide_eq_true h]
  · next h => simp only [Chan.wrote, decide_eq_false h, hw]

/-- What becomes of the oldest burst where its destination has not shut: `c` is the channel with the tiles refused that have. -/
theorem destBurst_open {n : Nat} {m : List Host.Cell} {d : Dev} {b : Burst} {r : List Burst} {c : Chan} (hn : n < d.dma.ch.length) (hw : (d.ch n).writing b r)
    (ho : (d.ch n).bcast = true ∨ shutTo d (d.ch n).dsp (d.ch n).tile = false) (hc : (d.ch n).refusing (d.shutNow n) = c) :
    destBurst n m d =
      if (d.ch n).dsp = 1 ∧ d.log.flush.isSome then (m, d.onCh n fun _ => c)
      else if b.bad then
        (m, if (d.ch n).st ≠ 2 then d.onCh n fun _ => c
          else if (d.ch n).reread.contains b.off then halt n 1 0 c.ssp (c.src + b.off) true false 0 (d.onCh n fun _ => c)
          else d.onCh n fun _ => { c with slots := { b with data := [], bad := false } :: r, reread := b.off :: (d.ch n).reread })
      else if b.data.isEmpty then (m, d.onCh n fun _ => c)
      else
        let x := writeAll (d.ch n).dsp ((d.ch n).dst + b.off) b.data (d.openTo n) (m, d.onCh n fun _ => c, false)
        (x.1, x.2.1.onCh n fun _ => c.wrote b r x.2.2) := by
  obtain ⟨hslots, hdesc, hwb, hst⟩ := hw
  have hg : ((d.ch n).desc.isSome && ((d.ch n).st == 2 || (d.ch n).st == 3) && !(d.ch n).wb && !(d.ch n).slots.isEmpty) = true := by
    simp [hslots, hdesc, hwb, hst]
  have hch : (d.onCh n fun _ => c).ch n = c := Dev.ch_onCh_self d _ hn
  have hcs : c.slots = b :: r := by rw [← hc]; exact hslots
  have hcw : c.wb = false := by rw [← hc]; exact hwb
  have hdsp : c.dsp = (d.ch n).dsp := by rw [← hc]; rfl
  have hdst : c.dst = (d.ch n).dst := by rw [← hc]; rfl
  have hcst : c.st = (d.ch n).st := by rw [← hc]; rfl
  have hread : c.reread = (d.ch n).reread := by rw [← hc]; rfl
  have hct : c.st = 2 ∨ c.st = 3 := by rw [← hc]; exact hst
  have htargets : c.targets (d.onCh n fun _ => c) = d.openTo n := by rw [← hc]; exact targets_refusing d _ n rfl
  unfold destBurst
  simp only [hg, Dev.on_true, refuseShut_open ho, hc, hch]
  rw [hcs]
  refine ite_congr (by rw [hdsp, Dev.onCh_log]) (fun _ => rfl) fun _ => ite_congr rfl (fun _ => ?_) fun _ => ite_congr rfl (fun _ => rfl) fun _ => ?_
  · refine congrArg (Prod.mk m) (ite_congr (by simp [hcw, hcst]) (fun _ => rfl) fun _ => ite_congr (by rw [hread]) (fun _ => rfl) fun _ => ?_)
    rw [Dev.onCh_onCh, hread]
  · rw [if_pos ⟨hct, by rw [hcw]; rfl⟩, htargets, hdsp, hdst]
    refine congrArg (Prod.mk _) (Dev.onCh_congr ?_)
    have hx : (writeAll (d.ch n).dsp ((d.ch n).dst + b.off) b.data (d.openTo n) (m, d.onCh n fun _ => c, false)).2.1.ch n = c := by
      rw [Dev.ch, writeAll_ch]
      exact hch
    exact (congrArg (fun e : Chan => e.ackBurst b r _) hx).trans (Chan.ackBurst_eq b r _ hcw)

section
variable {s : State} {n : Nat}

theorem exec_destinationBurst {m : List Host.Cell} {d : Dev} (h : destBurst n s.mem s.dev = (m, d)) : exec (.destinationBurst n) s = finM s m d := by
  show finM s _ _ = _
  rw [h]

theorem destinationBurst_gives (hi : s.Inv) {f : Chan → Chan} (h : destBurst n s.mem s.dev = (s.mem, s.dev.onCh n f)) :
    s.gives (.destinationBurst n) (s.dev.onCh n f) := State.gives_calm (exec_destinationBurst h) hi ((Dev.Calm.refl _).onCh n f)

theorem destinationBurst_idle (hi : s.Inv) (h : (s.dev.ch n).slots = [] ∨ (s.dev.ch n).wb = true ∨ (s.dev.ch n).st ≠ 2 ∧ (s.dev.ch n).st ≠ 3) :
    s.gives (.destinationBurst n) s.dev := State.gives_calm (exec_destinationBurst (destBurst_idle h)) hi (.refl _)

variable {b : Burst} {r : List Burst} (hn : n < s.dev.dma.ch.length) (hw : (s.dev.ch n).writing b r)
include hn hw

theorem destinationBurst_shut (hi : s.Inv) (hb : (s.dev.ch n).bcast = false) (hs : shutTo s.dev (s.dev.ch n).dsp (s.dev.ch n).tile = true) :
    s.gives (.destinationBurst n) (s.dev.onCh n fun c => { c with status := 2, wb := true, slots := [] }) :=
  destinationBurst_gives hi (destBurst_shut hn hw hb hs)

/-- A burst to non-volatile memory waits for a flush in progress. -/
theorem destinationBurst_waits (hi : s.Inv) (hb : (s.dev.ch n).bcast = false) (hs : shutTo s.dev (s.dev.ch n).dsp (s.dev.ch n).tile = false)
    (hf : (s.dev.ch n).dsp = 1 ∧ s.dev.log.flush.isSome = true) : s.gives (.destinationBurst n) s.dev := by
  have hc : (s.dev.ch n).refusing (s.dev.shutNow n) = s.dev.ch n := by rw [Dev.shutNow_nil hb, Chan.refusing_nil]
  have h := destBurst_open (m := s.mem) hn hw (.inr hs) hc
  rw [if_pos hf, Dev.onCh_id rfl] at h
  exact State.gives_calm (exec_destinationBurst h) hi (.refl _)

variable (ho : (s.dev.ch n).bcast = true ∨ shutTo s.dev (s.dev.ch n).dsp (s.dev.ch n).tile = false)
  (hf : ¬ ((s.dev.ch n).dsp = 1 ∧ s.dev.log.flush.isSome = true))
include ho hf

/-- A bad burst of a channel that aborts is never written. -/
theorem destinationBurst_aborting (hi : s.Inv) (hb : b.bad = true) (hst : (s.dev.ch n).st = 3) :
    s.gives (.destinationBurst n) (s.dev.onCh n fun _ => (s.dev.ch n).refusing (s.dev.shutNow n)) := by
  have h := destBurst_open (m := s.mem) hn hw ho rfl
  rw [if_neg hf, if_pos hb, if_pos (by simp [hst])] at h
  exact destinationBurst_gives hi h

/-- A bad burst is read again in its slot. -/
theorem destinationBurst_again (hi : s.Inv) (hb : b.bad = true) (hst : (s.dev.ch n).st = 2) (hr : b.off ∉ (s.dev.ch n).reread) :
    s.gives (.destinationBurst n) (s.dev.onCh n fun _ =>
      { (s.dev.ch n).refusing (s.dev.shutNow n) with slots := { b with data := [], bad := false } :: r, reread := b.off :: (s.dev.ch n).reread }) := by
  have h := destBurst_open (m := s.mem) hn hw ho rfl
  rw [if_neg hf, if_pos hb, if_neg (by simp [hst]), if_neg (by simpa [Chan.refusing] using hr)] at h
  exact destinationBurst_gives hi h

/-- A slot that waits for its data holds the channel up. -/
theorem destinationBurst_empty (hi : s.Inv) (hb : b.bad = false) (hd : b.data = []) :
    s.gives (.destinationBurst n) (s.dev.onCh n fun _ => (s.dev.ch n).refusing (s.dev.shutNow n)) := by
  have h := destBurst_open (m := s.mem) hn hw ho rfl
  rw [if_neg hf, if_neg (by simp [hb]), if_pos (by simp [hd])] at h
  exact destinationBurst_gives hi h

/-- A burst that is bad again halts its channel. -/
theorem destinationBurst_halts (hb : b.bad = true) (hst : (s.dev.ch n).st = 2) (hr : b.off ∈ (s.dev.ch n).reread) :
    s.makes (.destinationBurst n) fun u => (u.ch n).st = 4 ∧ (u.ch n).phase = 1 ∧ (u.ch n).slots = [] ∧ u.pends 10 0 .device := by
  have h := destBurst_open (m := s.mem) hn hw ho rfl
  rw [if_neg hf, if_pos hb, if_neg (by simp [hst]), if_pos (by simpa [Chan.refusing] using hr)] at h
  refine State.makes_of (exec_destinationBurst h) fun u hu => ?_
  rw [halt_ch (by simpa using hn) hu]
  exact ⟨rfl, rfl, rfl, hu.pends _ _ _ (halt_pends ..)⟩

/-- A burst that is written: its channel, the system bus, and every byte of memory. -/
theorem destinationBurst_writes (hi : s.Inv) (hb : b.bad = false) (hd : b.data ≠ []) (h7 : (s.dev.ch n).dsp ≤ 7)
    (hfit : (s.dev.ch n).bcast = true ∨ 4 ≤ (s.dev.ch n).dsp →
      (s.dev.ch n).dst + b.off + b.data.length ≤ spaceSize s.dev (s.dev.ch n).dsp (s.dev.ch n).tile) :
    ∃ u, exec (.destinationBurst n) s = .next u ∧ u.pending = s.pending ∧
      u.dev.ch n = ((s.dev.ch n).refusing (s.dev.shutNow n)).wrote b r ((s.dev.openTo n).any fun t => (List.range b.data.length).any fun i =>
        storeKeeps s.mem s.dev (s.dev.ch n).dsp t ((s.dev.ch n).dst + b.off + i)) ∧
      ((s.dev.ch n).dsp = 0 → (s.dev.ch n).bcast = false → u.dev.dma.bus = (busWrite ((s.dev.ch n).dst + b.off) b.data s.dev).dma.bus) ∧
      ((s.dev.ch n).dsp ≠ 0 → u.dev.dma.bus = s.dev.dma.bus) ∧
      (1 ≤ (s.dev.ch n).dsp → (s.dev.ch n).bcast = false ∨ 4 ≤ (s.dev.ch n).dsp → ∀ t ∈ s.dev.openTo n, ∀ i, i < b.data.length →
        Mem.read u.mem (spaceBase (s.dev.ch n).dsp t + ((s.dev.ch n).dst + b.off) + i) =
          if storeKeeps s.mem s.dev (s.dev.ch n).dsp t ((s.dev.ch n).dst + b.off + i) = true ∨
              (s.dev.ch n).dsp = 6 ∧ 0xF440 ≤ (s.dev.ch n).dst + b.off + i
            then Mem.read s.mem (spaceBase (s.dev.ch n).dsp t + ((s.dev.ch n).dst + b.off) + i) else b.data.getD i 0) ∧
      ∀ q, (s.dev.ch n).dsp = 0 ∨ (∀ t ∈ s.dev.openTo n, q < spaceBase (s.dev.ch n).dsp t + ((s.dev.ch n).dst + b.off) ∨
          spaceBase (s.dev.ch n).dsp t + ((s.dev.ch n).dst + b.off) + b.data.length ≤ q) → Mem.read u.mem q = Mem.read s.mem q := by
  have h := destBurst_open (m := s.mem) hn hw ho rfl
  rw [if_neg hf, if_neg (by simp [hb]), if_neg (by simpa using hd)] at h
  have hwf : Memory.wf s.mem = true := hi.1
  have hnd : (s.dev.openTo n).Nodup := (targets_nodup _ _).filter _
  have h64 : 4 ≤ (s.dev.ch n).dsp → (s.dev.ch n).dst + b.off + b.data.length ≤ 0x10000 :=
    fun h4 => Nat.le_trans (hfit (.inr h4)) (spaceSize_tile h4 h7)
  obtain ⟨u, hu, ha, hmem, hpend, -⟩ := finM_aside s _ _
  refine ⟨u, (exec_destinationBurst h).trans hu, hpend, ?_, fun h0' hbc => ?_, fun h0 => ?_, fun h1 hbc t ht i hil => ?_, fun q hq => ?_⟩
  · rw [ha.ch, Dev.ch_onCh_self]
    · rw [writeAll_dropped _ _ _ (fun h6 => h64 (by omega)) _ hnd _ hwf, Bool.false_or]
      rfl
    · rw [writeAll_ch]
      exact (Dev.onCh_length ..).symm ▸ hn
  · rw [ha.dma, Dev.onCh_bus, Dev.openTo_one hbc, h0']
    rfl
  · rw [ha.dma]
    exact writeAll_bus _ _ _ h0 _ _
  · rw [hmem]
    refine writeAll_at _ _ _ (Nat.one_le_iff_ne_zero.1 h1) _ hnd (fun t ht u hu hne => ?_) _ hwf ht hil
    rcases hbc with hbc | h4
    · rw [Dev.openTo_one hbc, List.mem_singleton] at ht hu
      exact absurd (hu.trans ht.symm) hne
    · exact ⟨h4, h7, h64 h4⟩
  · rw [hmem]
    exact writeAll_out _ _ _ _ _ hwf hq

end

end Sys2Proof.Machine
end

section
/-!
SUPPORT. The write-back of a descriptor: W6 and W0, HEAD, and what its event leaves pending (R331, R332, R337, R344).
-/
namespace Sys2Proof.Machine

/-! ### An event stays pending through the closing -/

theorem tst_eq_testBit (w : Word) (i : Nat) : tst w i = w.toNat.testBit i := by rw [tst, Nat.testBit_eq_decide_div_mod_eq, Bool.eq_iff_iff, beq_iff_eq, decide_eq_true_iff]

theorem tst_setBit_of_tst {w : Word} {j : Nat} (i : Nat) (h : tst w j = true) : tst (setBit w i) j = true := by
  rw [tst_eq_testBit] at h ⊢
  rw [setBit, BitVec.toNat_or, Nat.testBit_or, h, Bool.true_or]

theorem tst_setBit_self (w : Word) {i : Nat} (h : i < 32) : tst (setBit w i) i = true := by
  rw [tst_eq_testBit, setBit, BitVec.toNat_or, Nat.testBit_or, BitVec.toNat_ofNat, Nat.testBit_mod_two_pow, Nat.testBit_two_pow_self, decide_eq_true h,
    Bool.and_true, Bool.or_true]

theorem ev_ridge_sets {n : Nat} {d : Dev} (hn : n < 32) (h : d.ridge.on = true) : tst (ev .ridge n d).ridge.evpend n = true := by
  have he : (ev .ridge n d).ridge = { d.ridge with evpend := setBit d.ridge.evpend n } := if_pos h
  rw [he]
  exact tst_setBit_self _ hn

theorem ev_ridge_keeps {j : Nat} (k : CoreId) (n : Nat) {d : Dev} (h : tst d.ridge.evpend j = true) : tst (ev k n d).ridge.evpend j = true := by
  cases k with
  | rafter t => exact h
  | ridge =>
    have he : (ev .ridge n d).ridge = if d.ridge.on then { d.ridge with evpend := setBit d.ridge.evpend n } else d.ridge := rfl
    rw [he]
    split
    · exact tst_setBit_of_tst n h
    · exact h

theorem edgeEvents_ridge {j : Nat} (old : Dev) {d : Dev} (h : tst d.ridge.evpend j = true) : tst (edgeEvents old d).ridge.evpend j = true := by
  unfold edgeEvents
  refine List.foldlRecOn (motive := fun e : Dev => tst e.ridge.evpend j = true) d.tilesOn _ h fun e he t _ => ?_
  have hq : tst (e.on ((old.tl t).clusters.map Cluster.quiet != (d.tl t).clusters.map Cluster.quiet) (ev (.rafter t) 11)).ridge.evpend j = true := by
    unfold Dev.on
    split
    · exact ev_ridge_keeps _ _ he
    · exact he
  dsimp only
  generalize e.on _ _ = e' at hq ⊢
  unfold Dev.on
  split
  · exact ev_ridge_keeps _ _ (ev_ridge_keeps _ _ hq)
  · exact hq

/-- A command that raises nothing loses no event of the Ridge in its closing. -/
theorem settle_ridge {j : Nat} (m0 : List Host.Cell) (old : Dev) (m : List Host.Cell) {d : Dev} (hd : d.rests) (h : tst d.ridge.evpend j = true) :
    tst (settle m0 old m d).ridge.evpend j = true := by
  unfold settle
  rw [closing_nil _ _ hd, syncAll_keeps (·.ridge) fun _ _ _ => rfl]
  exact edgeEvents_ridge old h

theorem Dev.Aside.ridge_on {d e : Dev} (h : d.Aside e) : e.ridge.on = d.ridge.on := by
  have := congrArg (fun x : Dev => x.ridge.on) h.hard
  exact this

theorem setSt_rests {n st : Nat} {d : Dev} (h : d.rests) : (setSt n st d).rests := by
  unfold setSt Dev.on
  split
  · exact h
  · exact h

/-! ### Words written and read back -/

theorem leNat_wordBytes (w : Word) : nw (leNat (wordBytes w)) = w := by
  refine BitVec.eq_of_toNat_eq ?_
  have hw : w.toNat < 2 ^ 32 := w.isLt
  simp only [nw, wordBytes, leNat, BitVec.toNat_ofNat, BitVec.extractLsb'_toNat, Nat.shiftRight_eq_div_pow]
  omega

theorem Mem.readW_writeL {m : List Host.Cell} (a : Nat) (w : Word) (h : Memory.wf m = true) : Mem.readW (Mem.writeL m a (wordBytes w)) a = w := by
  have hb : Mem.readL (Mem.writeL m a (wordBytes w)) a 4 = wordBytes w := Mem.readL_writeL (wordBytes w) a h
  rw [Mem.readW, hb, leNat_wordBytes]

theorem Mem.readW_writeL_out {m : List Host.Cell} (a b : Nat) (w : Word) (h : Memory.wf m = true) (hb : b + 4 ≤ a ∨ a + 4 ≤ b) :
    Mem.readW (Mem.writeL m a (wordBytes w)) b = Mem.readW m b := by
  have hout : ∀ q, b ≤ q → q < b + 4 → Mem.read (Mem.writeL m a (wordBytes w)) q = Mem.read m q := by
    intro q h1 h2
    have hl : (wordBytes w).length = 4 := rfl
    exact Mem.read_writeL_out _ a q (by omega) h
  simp only [Mem.readW, Mem.readL]
  rw [hout b (by omega) (by omega), hout (b + 1) (by omega) (by omega), hout (b + 1 + 1) (by omega) (by omega), hout (b + 1 + 1 + 1) (by omega) (by omega)]

/-! ### The words that go back, and the channel and the block after them -/

def Chan.backW6 (c : Chan) : Word := word [(c.refused.length, 24), (c.len - c.wr, 0)]
def Chan.backW0 (c : Chan) : Word := put (put (put (c.w 0) 31 31 0) 28 28 (b2n c.abt)) 23 16 c.endStatus

/-- A ring in Ridge data RAM takes W6, then W0. -/
def Chan.backMem (c : Chan) (m : List Host.Cell) : List Host.Cell :=
  Mem.writeL (Mem.writeL m (ridgeD + (c.rbl.toNat + 32 * c.head + 24) % 0x10000) (wordBytes c.backW6))
    (ridgeD + (c.rbl.toNat + 32 * c.head) % 0x10000) (wordBytes c.backW0)

/-- The channel, its descriptor `o` over, before its state follows. -/
def Chan.overAs (o c : Chan) : Chan :=
  { c.clear with
    en := c.en && !(tst o.backW0 30) && !(c.stoperr && o.endStatus != 0), head := (c.head + 1) % 2 ^ c.log2n, lastst := o.endStatus
    back := some (c.head, o.backW6, o.backW0), resid := if o.abt then o.len - o.wr else c.resid, done := incSat 0xFFFF c.done
    notok := if o.endStatus = 0 then c.notok else incSat 0xFFFF c.notok }
def Chan.over (c : Chan) : Chan := c.overAs c

/-- The block, but for the channel, once a descriptor of channel `n` is over. -/
def Dev.backed (n : Nat) (d : Dev) : Dev :=
  let e := d.on (!(d.ch n).rloc) (busWrite ((d.ch n).entry (d.ch n).head) (wordBytes (d.ch n).backW0))
  { e with
    dma := { e.dma with bref := if (d.ch n).bcast then (d.ch n).refused.map Prod.fst else e.dma.bref }
    boot := { e.boot with nvcrc := if (d.ch n).ssp = 1 then nw (crc32 (d.ch n).nv) else e.boot.nvcrc } }

theorem backed_ch (n k : Nat) (d : Dev) : (d.backed n).ch k = d.ch k :=
  Dev.on_keeps (fun e => e.ch k) d _ _ rfl

theorem backed_length (n : Nat) (d : Dev) : (d.backed n).dma.ch.length = d.dma.ch.length :=
  Dev.on_keeps (fun e => e.dma.ch.length) d _ _ rfl

theorem backed_bus (n : Nat) (d : Dev) : (d.backed n).dma.bus =
    if (d.ch n).rloc then d.dma.bus else (busWrite ((d.ch n).entry (d.ch n).head) (wordBytes (d.ch n).backW0) d).dma.bus := by
  unfold Dev.backed Dev.on
  cases (d.ch n).rloc <;> rfl

theorem backed_bref (n : Nat) (d : Dev) : (d.backed n).dma.bref = if (d.ch n).bcast then (d.ch n).refused.map Prod.fst else d.dma.bref := by
  unfold Dev.backed Dev.on
  cases (d.ch n).rloc <;> rfl

theorem backed_nvcrc (n : Nat) (d : Dev) : (d.backed n).boot.nvcrc = if (d.ch n).ssp = 1 then nw (crc32 (d.ch n).nv) else d.boot.nvcrc := by
  unfold Dev.backed Dev.on
  cases (d.ch n).rloc <;> rfl

theorem backed_ridge (n : Nat) (d : Dev) : (d.backed n).ridge = d.ridge := Dev.on_keeps (fun e => e.ridge) d _ _ rfl

theorem backed_rests {n : Nat} {d : Dev} (h : d.rests) : (d.backed n).rests := by
  unfold Dev.backed Dev.on
  split
  · exact h
  · exact h

/-! ### DESCRIPTOR_WRITEBACK -/

theorem writeBack_idle {n : Nat} {m : List Host.Cell} {d : Dev} (h : (d.ch n).desc = none ∨ (d.ch n).wb = false ∧ (d.ch n).abt = false ∨ (d.ch n).st = 4) :
    writeBack n m d = (m, d) := by
  unfold writeBack
  refine if_pos ?_
  rcases h with h | ⟨hw, ha⟩ | h
  · exact .inl (by rw [h]; rfl)
  · exact .inr (.inl (by simp [hw, ha]))
  · exact .inr (.inr h)

theorem writeBack_eq {n : Nat} {m : List Host.Cell} {d : Dev} (hn : n < d.dma.ch.length) (hd : (d.ch n).desc.isSome = true)
    (hw : (d.ch n).wb = true ∨ (d.ch n).abt = true) (hs : (d.ch n).st ≠ 4) :
    writeBack n m d =
      (if (d.ch n).rloc then (d.ch n).backMem m else m, ev .ridge 8 (setSt n (d.ch n).over.idle ((d.backed n).onCh n fun _ => (d.ch n).over))) := by
  have hc : ¬ ((d.ch n).desc.isNone = true ∨ ¬ ((d.ch n).wb = true ∨ (d.ch n).abt = true) ∨ (d.ch n).st = 4) := by
    have hsome : (d.ch n).desc.isNone = false := by rw [← Option.not_isSome, hd]; rfl
    rw [hsome]
    rintro (h | h | h)
    · exact Bool.noConfusion h
    · exact h hw
    · exact hs h
  have hover : (d.backed n).onCh n (d.ch n).overAs = (d.backed n).onCh n fun _ => (d.ch n).over := Dev.onCh_congr (by rw [backed_ch]; rfl)
  have hch : ((d.backed n).onCh n fun _ => (d.ch n).over).ch n = (d.ch n).over := Dev.ch_onCh_self _ _ (by rwa [backed_length])
  unfold writeBack
  dsimp only
  rw [if_neg hc]
  refine congrArg (Prod.mk _) (congrArg (ev .ridge 8) ?_)
  exact (congrArg (fun e : Dev => setSt n (e.ch n).idle e) hover).trans (congrArg (fun c : Chan => setSt n c.idle _) hch)

section
variable {s : State} {n : Nat}

theorem descriptorWriteback_idle (hi : s.Inv) (h : (s.dev.ch n).desc = none ∨ (s.dev.ch n).wb = false ∧ (s.dev.ch n).abt = false ∨ (s.dev.ch n).st = 4) :
    s.gives (.descriptorWriteback n) s.dev := by
  have he : exec (.descriptorWriteback n) s = finM s (writeBack n s.mem s.dev).1 (writeBack n s.mem s.dev).2 := rfl
  rw [writeBack_idle h] at he
  exact State.gives_calm he hi (.refl _)

theorem descriptorWriteback_backs (hi : s.Inv) (hn : n < s.dev.dma.ch.length) (hd : (s.dev.ch n).desc.isSome = true)
    (hw : (s.dev.ch n).wb = true ∨ (s.dev.ch n).abt = true) (hs : (s.dev.ch n).st ≠ 4) :
    ∃ u, exec (.descriptorWriteback n) s = .next u ∧ u.pending = s.pending ∧ u.mem = (if (s.dev.ch n).rloc then (s.dev.ch n).backMem s.mem else s.mem) ∧
      u.dev.ch n = { (s.dev.ch n).over with st := (s.dev.ch n).over.idle } ∧ u.dev.dma.bus = (s.dev.backed n).dma.bus ∧
      u.dev.dma.bref = (s.dev.backed n).dma.bref ∧ u.dev.boot.nvcrc = (s.dev.backed n).boot.nvcrc ∧
      (s.dev.ridge.on = true → tst u.dev.ridge.evpend 8 = true) := by
  have he : exec (.descriptorWriteback n) s = finM s (writeBack n s.mem s.dev).1 (writeBack n s.mem s.dev).2 := rfl
  rw [writeBack_eq hn hd hw hs] at he
  have hset := aside_setSt n (s.dev.ch n).over.idle ((s.dev.backed n).onCh n fun _ => (s.dev.ch n).over)
  rw [Dev.onCh_onCh] at hset
  have ha := (hset.trans (aside_ev .ridge 8 _)).trans (aside_settle s.mem s.dev (if (s.dev.ch n).rloc then (s.dev.ch n).backMem s.mem else s.mem) _)
  refine ⟨_, he, rfl, rfl, ?_, ?_, ?_, ?_, fun hon => ?_⟩
  · exact (ha.ch n).trans (Dev.ch_onCh_self _ _ (by rwa [backed_length]))
  · exact congrArg (·.bus) ha.dma
  · exact congrArg (·.bref) ha.dma
  · exact congrArg (·.nvcrc) ha.boot
  · have hr : (setSt n (s.dev.ch n).over.idle ((s.dev.backed n).onCh n fun _ => (s.dev.ch n).over)).rests := setSt_rests (backed_rests hi.2)
    refine settle_ridge _ _ _ hr (ev_ridge_sets (by decide) ?_)
    rw [hset.ridge_on]
    exact (congrArg Core.on (backed_ridge n s.dev)).trans hon

end

/-- What the memory holds after W6 and W0 have gone back to a ring in Ridge data RAM. -/
theorem backMem_reads {c : Chan} {m : List Host.Cell} (hm : Memory.wf m = true) (h32 : c.rbl.toNat % 32 = 0) :
    let e := ridgeD + (c.rbl.toNat + 32 * c.head) % 0x10000
    Mem.readW (c.backMem m) e = c.backW0 ∧ Mem.readW (c.backMem m) (e + 24) = c.backW6 ∧
      ∀ q, ¬ (e ≤ q ∧ q < e + 4) → ¬ (e + 24 ≤ q ∧ q < e + 28) → Mem.read (c.backMem m) q = Mem.read m q := by
  intro e
  have he : ridgeD + (c.rbl.toNat + 32 * c.head + 24) % 0x10000 = e + 24 := by omega
  have hb : c.backMem m = Mem.writeL (Mem.writeL m (e + 24) (wordBytes c.backW6)) e (wordBytes c.backW0) := by rw [← he]; rfl
  have hl : ∀ w, (wordBytes w).length = 4 := fun _ => rfl
  have hwf : Memory.wf (Mem.writeL m (e + 24) (wordBytes c.backW6)) = true := Mem.writeL_wf _ _ hm
  rw [hb]
  refine ⟨Mem.readW_writeL e _ hwf, ?_, fun q h0 h6 => ?_⟩
  · rw [Mem.readW_writeL_out e _ _ hwf (by omega), Mem.readW_writeL _ _ hm]
  · rw [Mem.read_writeL_out _ e q (by rw [hl]; omega) hwf, Mem.read_writeL_out _ (e + 24) q (by rw [hl]; omega) hm]

end Sys2Proof.Machine
end

section
/-!
SUPPORT. The DMA engine's transfers, from a descriptor taken up to its write-back (R327 to R339, R344).
-/
namespace Sys2Proof.Machine

/-! ### The steps of R330 -/

/-- The bytes of each space of Table 12-3, as one condition after another. -/
theorem spaceSize_eq (d : Dev) {sp : Nat} (t : Nat) (h : sp ≤ 8) : spaceSize d sp t =
    if sp = 0 then 2 ^ 64 else if sp = 1 then (if fld d.boot.nvid 7 0 = 0 then 0 else d.nvSize) else if sp = 4 then 0x8000 else if sp = 5 then 0x4000
      else if sp = 7 then 43008 else if sp = 8 then 4 * ((d.tl t).trace.recs.map fun r => r.length).foldl (· + ·) 0 else 0x10000 := by
  obtain rfl | rfl | rfl | rfl | rfl | rfl | rfl | rfl | rfl :
      sp = 0 ∨ sp = 1 ∨ sp = 2 ∨ sp = 3 ∨ sp = 4 ∨ sp = 5 ∨ sp = 6 ∨ sp = 7 ∨ sp = 8 := by omega
  all_goals rfl

theorem tileSp_tiled (c : Chan) : 4 ≤ c.tileSp ↔ 4 ≤ c.dsp ∨ 4 ≤ c.ssp := by
  unfold Chan.tileSp
  split
  · next h => exact ⟨.inl, fun _ => h⟩
  · next h => exact ⟨.inr, fun g => g.resolve_left h⟩

/-- A descriptor whose spaces are not reserved. -/
theorem spaces_of_not_descBad {c : Chan} (h : descBad c = false) : c.ssp ≤ 8 ∧ c.dsp ≤ 8 := by
  have hn : ¬ descBad c = true := by simp [h]
  rw [descBad_iff] at hn
  simp only [not_or] at hn
  obtain ⟨-, -, -, -, -, hs, hd, -, -⟩ := hn
  omega

theorem pairOk_of_le {s : Nat} (t : Nat) (h : s ≤ 8) :
    pairOk s t = true ↔ (s = 0 ∧ 1 ≤ t ∧ t ≤ 7) ∨ (t = 0 ∧ 1 ≤ s) ∨ (s = 1 ∧ 2 ≤ t ∧ t ≤ 7) := by
  rw [pairOk_iff]
  simp only [h, and_true]

/-- R330 steps 3 to 9. Where non-volatile memory is not used nothing fits it, so that its log region is never asked for. -/
theorem descStatus_eq (d : Dev) (c : Chan) : descStatus d c =
    if c.src % 4 ≠ 0 ∨ c.dst % 4 ≠ 0 then 6
    else if c.len = 0 ∨ c.len % 4 ≠ 0 ∨ ¬ pairOk c.ssp c.dsp = true ∨ spaceSize d c.ssp c.tile < c.src + c.len ∨
      spaceSize d c.dsp c.tile < c.dst + c.len then 1
    else if c.dsp = 1 ∧ spaceSize d 1 c.tile - 0x400000 < c.dst + c.len then 5
    else if c.dsp = 1 ∧ d.dma.nvwen = false then 2
    else if (4 ≤ c.dsp ∨ 4 ≤ c.ssp) ∧ c.bcast = false ∧ ¬ (d.answersT c.tile = true ∧ boolAt d.pur.lost c.tile = false) then 3
    else if (4 ≤ c.dsp ∨ 4 ≤ c.ssp) ∧ c.bcast = false ∧ (d.tl c.tile).rst = true then 4
    else if c.bcast = false ∧ ¬ (spaceCond d c.ssp c.tile = true ∧ spaceCond d c.dsp c.tile = true) then 2 else 0 := by
  have hneg : ∀ b : Bool, (!b) = true ↔ b = false := by decide
  have hlog : ¬ spaceSize d c.dsp c.tile < c.dst + c.len → c.len ≠ 0 →
      ((c.dsp = 1 ∧ d.nvSize - 0x400000 < c.dst + c.len) ↔ c.dsp = 1 ∧ spaceSize d 1 c.tile - 0x400000 < c.dst + c.len) := by
    refine fun hfit hlen => and_congr_right fun h1 => ?_
    rw [h1, show spaceSize d 1 c.tile = if fld d.boot.nvid 7 0 = 0 then 0 else d.nvSize from rfl] at hfit
    rw [show spaceSize d 1 c.tile = if fld d.boot.nvid 7 0 = 0 then 0 else d.nvSize from rfl]
    split at hfit
    · omega
    · next hv => rw [if_neg hv]
  have hcond : (!spaceCond d c.ssp c.tile) = true ∨ (!spaceCond d c.dsp c.tile) = true ↔
      ¬ (spaceCond d c.ssp c.tile = true ∧ spaceCond d c.dsp c.tile = true) := by
    rw [hneg, hneg, Decidable.not_and_iff_or_not, Bool.not_eq_true, Bool.not_eq_true]
  have hreach : (!d.answersT c.tile) = true ∨ boolAt d.pur.lost c.tile = true ↔ ¬ (d.answersT c.tile = true ∧ boolAt d.pur.lost c.tile = false) := by
    rw [hneg, Decidable.not_and_iff_or_not, Bool.not_eq_true, Bool.not_eq_false]
  unfold descStatus
  refine ite_congr rfl (fun _ => rfl) fun _ => ite_congr ?_ (fun _ => rfl) fun hin => ite_congr ?_ (fun _ => rfl) fun _ => ite_congr ?_ (fun _ => rfl) fun _ =>
    ite_congr ?_ (fun _ => rfl) fun _ => ite_congr ?_ (fun _ => rfl) fun _ => ite_congr ?_ (fun _ => rfl) fun _ => rfl
  · rw [hneg, Bool.not_eq_true]
  · simp only [not_or] at hin
    obtain ⟨hlen, -, -, -, hfit⟩ := hin
    exact propext (hlog hfit hlen)
  · rw [hneg]
  · rw [tileSp_tiled, hneg, hreach]
  · rw [tileSp_tiled, hneg]
  · rw [hneg, hcond]

/-! ### What a burst makes of its channel -/

theorem Chan.take_new {c : Chan} {o : Nat} {l : List Byte} (h : c.slots.find? (·.data.isEmpty) = none) : c.take o l =
    { c with slots := c.slots ++ [{ off := o, data := l }], rd := o + l.length
             nv := if c.ssp = 1 then c.nv.take o ++ l ++ c.nv.drop (o + l.length) else c.nv } := by
  have ha : c.slots.any (·.data.isEmpty) = false := by rw [← List.isSome_find?, h]; rfl
  simp only [Chan.take, ha, Bool.false_eq_true, if_false]

theorem Chan.take_again {c : Chan} {o : Nat} {l : List Byte} (h : c.slots.find? (·.data.isEmpty) ≠ none) : c.take o l =
    { c with slots := c.slots.map fun b => if b.off = o then { b with data := l } else b
             nv := if c.ssp = 1 then c.nv.take o ++ l ++ c.nv.drop (o + l.length) else c.nv } := by
  have ha : c.slots.any (·.data.isEmpty) = true := by rw [← List.isSome_find?]; exact Option.isSome_iff_ne_none.2 h
  simp only [Chan.take, ha, if_true, beq_iff_eq]

/-- Settles O56: each command is taken by the branches of its meaning; a burst is followed byte by byte through the spaces it is written to,
and the write-back's event is kept through the closing. -/
theorem dmaTransfers : Obligations.DmaTransfers := by
  unfold Obligations.DmaTransfers
  intro s n words data bad hi h1 h8 hn d C due ws c w D S t len src dst bcast tiled nv size cond pair odd reaches st refusal wait o used k l may
  have hc : s.fetched n words = c := rfl
  have hodd : odd ↔ descBad c = true := (descBad_iff c).symm
  have hcond : ∀ sp t, cond sp t ↔ spaceCond d sp t = true := fun sp t => (spaceCond_iff d sp t).symm
  have hst : ¬ odd → st = descStatus d c := by
    intro hok
    obtain ⟨hS, hD⟩ := spaces_of_not_descBad (Bool.eq_false_iff.2 fun h => hok (hodd.2 h))
    rw [descStatus_eq]
    refine ite_congr rfl (fun _ => rfl) fun _ => ite_congr ?_ (fun _ => rfl) fun _ => ite_congr rfl (fun _ => rfl) fun _ => ite_congr rfl (fun _ => rfl) fun _ =>
      ite_congr rfl (fun _ => rfl) fun _ => ite_congr rfl (fun _ => rfl) fun _ => ite_congr ?_ (fun _ => rfl) fun _ => rfl
    · rw [pairOk_of_le c.dsp hS, spaceSize_eq d c.tile hS, spaceSize_eq d c.tile hD]
      rfl
    · rw [hcond, hcond]
      rfl
  have href : refusal = tileRefusal d c.dsp := by
    funext u
    refine ite_congr rfl (fun _ => rfl) fun _ => ite_congr rfl (fun _ => rfl) fun _ => ?_
    cases hq : spaceCond d c.dsp u with
    | true => exact if_pos ((hcond D u).2 hq)
    | false => exact if_neg fun h => Bool.noConfusion (hq.symm.trans ((hcond D u).1 h))
  have hl : may → l.length = k := fun h => h.2.2.2.2.1
  refine ⟨fun hdue hbad => descriptorFetch_halts h1 h8 hn hdue (hbad.imp_right hodd.1), fun hdue hown hok => ?_, descriptorFetch_idle hi, sourceBurst_idle hi bad,
    fun hm hb => ?_, fun hm hb ho => ?_, fun hm hb ho => ?_, destinationBurst_idle hi,
    fun b r hslots hdesc hwb hrun => ?_, descriptorWriteback_idle hi, fun hdesc hw hs => ?_⟩
  · have htake := descriptorFetch_takes (words := words) h1 h8 hn hdue hown (Bool.eq_false_iff.2 fun h => hok (hodd.2 h))
    dsimp only at htake
    rw [hc, ← hst hok] at htake
    refine ⟨fun hne => ?_, fun h0 hbc => ?_, fun h0 hbc => ?_⟩
    · rwa [if_pos hne] at htake
    · rwa [if_neg (not_not_intro h0), if_neg (by rw [show c.bcast = false from hbc]; decide)] at htake
    · rw [if_neg (not_not_intro h0), if_pos (show c.bcast = true from hbc)] at htake
      rw [href]
      exact htake
  · subst hb
    refine ⟨fun hwait => sourceBurst_enters hi hm ?_, fun hwait => sourceBurst_enters hi hm ?_⟩
    · rw [← hl hm]
      exact Chan.take_new hwait
    · rw [← hl hm]
      exact Chan.take_again hwait
  · subst hb
    have hlead := sourceBurst_again hm ho
    rw [badRead_eq] at hlead
    exact hlead
  · subst hb
    exact sourceBurst_halts hn hm ho
  · intro shut into now out C' held
    have hw : C.writing b r := ⟨hslots, hdesc, hwb, hrun⟩
    have hshut : ∀ t, decide (shut t) = shutTo d C.dsp t := by
      intro t
      rw [Bool.eq_iff_iff, decide_eq_true_iff, shutTo_iff]
    have hopen : C.bcast = true ∨ ¬ shut C.tile → C.bcast = true ∨ shutTo d C.dsp C.tile = false :=
      Or.imp_right fun h => (hshut C.tile).symm.trans (decide_eq_false h)
    have hnow : now = d.shutNow n := List.filter_congr fun t _ => by rw [hshut]
    have hout : out = d.openTo n := List.filter_congr fun t _ => by rw [hshut]
    have hC : C' = C.refusing (d.shutNow n) := congrArg C.refusing hnow
    refine ⟨fun hbc hs => destinationBurst_shut hn hw hi hbc ((hshut _).symm.trans (decide_eq_true hs)),
      fun hbc hs => destinationBurst_waits hn hw hi hbc ((hshut _).symm.trans (decide_eq_false hs)), fun ho hheld => ?_⟩
    rw [hC, hout]
    have ho := hopen ho
    refine ⟨destinationBurst_aborting hn hw ho hheld hi, destinationBurst_again hn hw ho hheld hi, destinationBurst_empty hn hw ho hheld hi,
      destinationBurst_halts hn hw ho hheld, fun hb hd h7 hfit => ?_⟩
    intro keeps
    have hkeeps : ∀ t o, keeps t o ↔ storeKeeps s.mem d C.dsp t o = true := fun t o => (storeKeeps_iff ..).symm
    obtain ⟨u, hexec, hpend, hch, hbus0, hbus, hat, hkept⟩ := destinationBurst_writes hn hw ho hheld hi hb hd h7 hfit
    refine ⟨u, hexec, hpend, hch.trans ?_, hbus0, hbus, fun h1 hbc t ht i hil => (hat h1 hbc t ht i hil).trans ?_, hkept⟩
    · simp only [hkeeps, Bool.decide_eq_true]
      rfl
    · exact ite_congr (by rw [hkeeps]) (fun _ => rfl) fun _ => rfl
  · obtain ⟨u, hexec, hpend, hmem, hch, hbus, hbref, hcrc, hev⟩ := descriptorWriteback_backs hi hn hdesc hw hs
    refine ⟨u, hexec, hpend, ?_⟩
    intro st w0 w6 x e
    have hend : st = C.endStatus := ite_congr rfl (fun _ => rfl) fun _ => ite_congr (by rw [List.isEmpty_iff]) (fun _ => rfl) fun _ => rfl
    have hw0 : w0 = C.backW0 := congrArg (put (put (put (C.w 0) 31 31 0) 28 28 (b2n C.abt)) 23 16) hend
    have hx : x = { C.over with st := C.over.idle } := hch
    have hne : (C.endStatus != 0) = decide (C.endStatus ≠ 0) := by rw [Bool.eq_iff_iff, bne_iff_ne, decide_eq_true_iff]
    rw [hend, hw0, hx]
    refine ⟨rfl, rfl, rfl, rfl, incSat_eq _ _, ?_, rfl, ?_, ?_, hev, hbus.trans (backed_bus ..), hbref.trans (backed_bref ..), hcrc.trans (backed_nvcrc ..),
      fun hr => ?_, fun hr h32 => ?_⟩
    · exact ite_congr rfl (fun _ => rfl) fun _ => incSat_eq _ _
    · rw [← hne]
      rfl
    · exact ite_congr (Bool.not_eq_true' _) (fun _ => rfl) fun _ => rfl
    · rw [hmem, if_neg (Bool.eq_false_iff.1 hr)]
    · rw [hmem, if_pos hr]
      exact backMem_reads hi.1 h32

end Sys2Proof.Machine
end
